-- ==== Sys2Proof/Word.lean ====
section
/-! DEFINITION. The word types of the GLX48 model and the ranges of its numbered units (spec/00_scope.md R7, Names). -/
namespace Sys2Proof

/-- One byte. -/
abbrev Byte := BitVec 8
/-- A 64-bit register, scalar register or address. -/
abbrev W64 := BitVec 64
/-- A 32-bit element, counter field or FP32 pattern. -/
abbrev W32 := BitVec 32
/-- A recipe step as it stands in the pantry (128 bits, R325). -/
abbrev StepWord := BitVec 128
/-- A tile descriptor (32 B, R339). -/
abbrev Desc := BitVec 256

/-- Cores C00 to C47. -/
abbrev Core := Fin 48
/-- Arrays A0 to A5 of a core. -/
abbrev Arr := Fin 6
/-- Stream engines D0 to D3 of a core. -/
abbrev Eng := Fin 4
/-- Borvik links L00 to L23. -/
abbrev Link := Fin 24
/-- Nimzen halves N0 and N1. -/
abbrev Half := Fin 2
/-- Compute, pantry or I/O die 0 and 1. -/
abbrev Die := Fin 2
/-- HBM3E stacks H0 to H7. -/
abbrev Stack := Fin 8
/-- LPDDR5X channels M00 to M31. -/
abbrev Chan := Fin 32
/-- Queues 0 to 2047. -/
abbrev QueueNo := Fin 2048
/-- Monitors MON000 to MON191. -/
abbrev MonNo := Fin 192
/-- Switchable power domains 0 to 79. -/
abbrev Dom := Fin 80
/-- Larder words 0 to 511. -/
abbrev LardNo := Fin 512
/-- Gathering contexts and receive slots 0 to 15 of a core. -/
abbrev Ctx := Fin 16

end Sys2Proof
end

