-- ==== Sys2Proof/Syntax.lean ====
section
/-! DEFINITION. The commands of the block: one constructor of `Instr` per row of spec/opcode_table.json, with the
operands the row's rules name. A recipe step carries the 128-bit step word the sequencer fetched (R325); an event
carries what the environment decides (data that arrives, cycles that were waited, the ECC outcome of a read). -/
namespace Sys2Proof

/-- The outcome of the SECDED check of one read (R397, R398, R612, R613). -/
inductive Ecc | ok | corrected | uncorrectable
deriving DecidableEq, Repr

/-- Who makes a register write or an addressed access (R647, Table 23-7). -/
inductive Writer | program (c : Core) | mesh (c : Core) | remote (dev : BitVec 16) | companion | smbus | jtag | image
deriving DecidableEq, Repr

/-- The requesters of an SRAM read (Table 23-7), numbered as fault records number them. -/
abbrev Requester := BitVec 6

/-- An addressed access: a read of `len` bytes or a write of `data`. -/
structure Access where
  who  : Writer
  addr : W64
  len  : Nat
  data : Option (List Byte)
deriving DecidableEq, Repr

/-- What an addressed access does at its address: it reads `len` bytes, or writes bytes. -/
inductive AccessOp | read (len : Nat) | write (data : List Byte)
deriving DecidableEq, Repr
def AccessOp.access (op : AccessOp) (who : Writer) (addr : W64) : Access :=
  match op with
  | .read n => ⟨who, addr, n, none⟩
  | .write bs => ⟨who, addr, 0, some bs⟩

/-- What a count of a dispatch says (R378, R379): the rows to come, the number of sources, and the pitch of the COUNT phase. -/
structure XdCount where
  count : Nat
  nsrc  : Nat
  pitch : BitVec 48
deriving DecidableEq, Repr

/-- What a returned row belongs to (R386): the entry at its source, the source's rank, and the pitch of the dispatch's COUNT phase. -/
structure XdEntry where
  entry : BitVec 20
  rank  : BitVec 16
  pitch : BitVec 48
deriving DecidableEq, Repr

/-- A pop of at most `limit` bytes, with the error that strikes the link word of a cell, counted from the front, before it (Table 23-1,
class 3). -/
structure PopCmd where
  limit : Nat
  err   : Option (Nat × BitVec 32)
deriving DecidableEq, Repr

/-- A collective: its TAG and the pitch of its topo entry (R482, R485). -/
structure CollId where
  tag   : BitVec 16
  pitch : BitVec 48
deriving DecidableEq, Repr

/-- The TXID and the address of a Nimzen message (R495). -/
structure NzTag where
  txid : BitVec 10
  addr : BitVec 48
deriving DecidableEq, Repr

/-- The source of a belay row or credit (R168, Table 6-4): hop kind, array or core, link and device. -/
structure BelaySrc where
  kind : BitVec 2
  id   : BitVec 6
  link : BitVec 5
  dev  : BitVec 16
deriving DecidableEq, Repr

/-- One row on the belay chain (R160, R164). -/
structure BelayRow where
  tag  : BitVec 16
  hop  : BitVec 8
  row  : List W32
deriving DecidableEq, Repr

/-- The arbiters of the memory tiers and of the mesh (R402, R408, R653). -/
inductive MemCtl | hbm (s : Stack) | lp (c : Chan) | mesh (c : Core)
deriving DecidableEq, Repr

/-- A request at an arbiter: stamp (R402), requester number (Table 14-4, Table 25-6), local address of its first
64 B word, number of words, and the bytes of a write. -/
structure MemReq where
  stamp : Nat
  who   : BitVec 6
  addr  : BitVec 48
  words : Nat
  data  : Option (List Byte)
deriving DecidableEq, Repr

/-- The memory tiers (Table 23-7). -/
inductive Tier | hbm | lpddr
deriving DecidableEq, Repr

/-- A Borvik packet (R472, Table 17-4) and the body that follows its header. -/
structure Pkt where
  dest  : BitVec 16
  src   : BitVec 16
  ptype : BitVec 4
  txid  : BitVec 10
  ttl   : BitVec 6
  vc    : BitVec 3
  body  : List Byte
deriving DecidableEq, Repr

/-- The heartbeat body of Table 21-1. -/
structure Heartbeat where
  src       : BitVec 16
  pitch     : BitVec 48
  state     : BitVec 3
  epoch     : W64
  shardGen  : W32
  mirrorGen : W32
deriving DecidableEq, Repr

/-- An ATTACH message (R566). -/
structure AttachMsg where
  src       : BitVec 16
  epoch     : W64
  shardGen  : W32
  mirrorGen : W32
deriving DecidableEq, Repr

/-- What the two ends of a link exchange in KEYING (R487, R549): the peer's ID, its identity public key, its
certificate and its signature over the transcript. -/
structure PeerOffer where
  devId : BitVec 16
  key   : List Byte
  cert  : List Byte
  sig   : List Byte
deriving DecidableEq, Repr

/-- Why the time reference was lost (R442). -/
inductive RefLoss | timeref | syncOff | syncNone | link
deriving DecidableEq, Repr

/-- The paths to the SEC_ page (R542). -/
inductive SecPath | program | smbus | jtag
deriving DecidableEq, Repr

/-- The readings of one WATCH sample (R578, R588): energy detectors, Nimzen idle exit, WAKE_N low, temperature in
1/16 degree, VDD_AON and VIO18 in mV. -/
structure Sample where
  links  : BitVec 24
  halves : BitVec 2
  wakeN  : Bool
  temp   : BitVec 16
  aon    : BitVec 16
  vio    : BitVec 16
deriving DecidableEq, Repr

/-- An end that trains, keys and closes records: a Borvik link or a half of the Nimzen link (R490, R498, R499). -/
inductive LinkEnd | link (l : Link) | half (h : Half)
deriving DecidableEq, Repr

/-- A register field loaded from the image (class 9 of Table 23-1), named by its address. -/
abbrev FieldAddr := BitVec 48

/-- The commands of the GLX48: one constructor per row of spec/opcode_table.json. -/
inductive Instr
  -- 04 the MAC array
  | load (c : Core) (w : StepWord)
  | loadBegin (c : Core) (a : Arr) (waited : Nat)
  | loadDone (c : Core) (a : Arr)
  | pass (c : Core) (w : StepWord)
  | planeSwap (c : Core) (a : Arr)
  -- 05 feeders
  | feed (c : Core) (w : StepWord)
  | feedStart (c : Core) (f : Arr) (starve : Nat)
  | exportStep (c : Core) (w : StepWord)
  | aclr (c : Core) (w : StepWord)
  | asave (c : Core) (w : StepWord)
  | arestore (c : Core) (w : StepWord)
  | fres (c : Core) (w : StepWord)
  | fpres (c : Core) (w : StepWord)
  | fflush (c : Core) (w : StepWord)
  | frel (c : Core) (w : StepWord)
  | fillDeadline (c : Core) (g : Ctx)
  | fillWatchdog (c : Core) (g : Ctx) (f : Fin 2)
  | coreFgctxWrite (c : Core) (g : Ctx) (v : W64)
  -- 07 the sieve engine
  | disp (c : Core) (w : StepWord)
  | dispResume (c : Core) (waited : Nat)
  | sop (c : Core) (w : StepWord)
  | sieveJobStart (c : Core) (dealWait bankWait resWait : Nat)
  | mergeTileClose (c : Core) (waited : Nat)
  | sdrain (c : Core) (w : StepWord)
  | sclr (c : Core) (w : StepWord)
  -- 08 the vector unit
  | vop (c : Core) (w : StepWord)
  | vred (c : Core) (w : StepWord)
  | vrow (c : Core) (w : StepWord)
  | osmUpdate (c : Core) (w : StepWord)
  | osmRescale (c : Core) (w : StepWord)
  | osmFinal (c : Core) (w : StepWord)
  | quant (c : Core) (w : StepWord)
  | tileOutputWrite (c : Core)
  | vecAmaxWrite (c : Core) (n : Fin 4) (v : W64)
  -- 10, 11 data and control steps
  | strm (c : Core) (w : StepWord)
  | copy (c : Core) (w : StepWord)
  | trickle (c : Core) (w : StepWord)
  | trickleDone (c : Core) (ecc : Ecc)
  | dload (c : Core) (w : StepWord)
  | dstore (c : Core) (w : StepWord)
  | dset (c : Core) (w : StepWord)
  | fset (c : Core) (w : StepWord)
  | fsigr (c : Core) (w : StepWord)
  | fwait (c : Core) (w : StepWord)
  | fence (c : Core) (w : StepWord)
  | guardSatisfied (c : Core) (waited : Nat)
  | slotTimeout (c : Core)
  | alu (c : Core) (w : StepWord)
  | movi (c : Core) (w : StepWord)
  | cmp (c : Core) (w : StepWord)
  | plog (c : Core) (w : StepWord)
  | ld (c : Core) (w : StepWord)
  | st (c : Core) (w : StepWord)
  | br (c : Core) (w : StepWord)
  | loop (c : Core) (w : StepWord)
  | endl (c : Core) (w : StepWord)
  | ptest (c : Core) (w : StepWord)
  | nop (c : Core) (w : StepWord)
  | endStep (c : Core) (w : StepWord)
  | bset (c : Core) (w : StepWord)
  | belay (c : Core) (w : StepWord)
  -- 06 the belay chain
  | belayStageReady (c : Core) (n : Fin 8)
  | belayCreditGrant (c : Core) (n : Fin 8) (src : BelaySrc)
  | belayRowReceive (c : Core) (n : Fin 8) (src : BelaySrc) (row : BelayRow)
  | belayTimeout (c : Core) (n : Fin 8)
  | qpush (c : Core) (w : StepWord)
  | qpop (c : Core) (w : StepWord)
  | qpopWake (c : Core) (waited : Nat)
  | qtry (c : Core) (w : StepWord)
  | twait (c : Core) (w : StepWord)
  | twaitDone (c : Core) (waited : Nat)
  | ttime (c : Core) (w : StepWord)
  -- 11 starts, enables and flags
  | startTake (c : Core)
  | clearFault (c : Core) (v : W64)
  | unitDisable (c : Core) (v : W64)
  | abort (c : Core) (v : W64)
  | unitEnable (c : Core) (v : W64)
  | drainDone (c : Core) (unit : Fin 13)
  | seqFlagset (c : Core) (v : W64)
  | seqFlagclr (c : Core) (v : W64)
  | accWindowAccess (who : Writer) (addr : W64) (op : AccessOp)
  | meshPantryAccess (a : Access) (ecc : Ecc)
  | panInvalGo (c : Core) (v : W64)
  -- 10 stream engines
  | streamBegin (c : Core) (e : Eng)
  | streamAdmit (c : Core) (e : Eng) (waited : Nat)
  | streamAddr (c : Core) (e : Eng)
  | streamDesc (c : Core) (e : Eng)
  | streamLoop (c : Core) (e : Eng)
  | streamStride (c : Core) (e : Eng)
  | streamIdx (c : Core) (e : Eng)
  | streamFill (c : Core) (e : Eng)
  | streamCvt (c : Core) (e : Eng)
  | streamWina (c : Core) (e : Eng)
  | streamWinb (c : Core) (e : Eng)
  | streamCred (c : Core) (e : Eng)
  | streamGo (c : Core) (e : Eng) (ecc : List (W64 × Ecc))
  | streamWait (c : Core) (e : Eng)
  | streamSig (c : Core) (e : Eng)
  | streamEnd (c : Core) (e : Eng)
  | streamWaitTimeout (c : Core) (e : Eng)
  | partTimeout (c : Core) (e : Eng) (part : Fin 64)
  | strCtlWrite (c : Core) (v : W64)
  -- 12 the format governor
  | monGovrun (d : Die) (v : W64)
  | governorRun (d : Die)
  -- 13 token dispatch
  | topoXdispCount
  | xdispRows (c : Core)
  | xdCountReceive (c : Core) (g : Ctx) (rank : BitVec 16) (m : XdCount)
  | xdRowReceive (c : Core) (g : Ctx) (rank : BitVec 16) (j : Nat) (srcDev : BitVec 16) (srcCore : BitVec 6)
      (entry : BitVec 20) (row : List Byte)
  | topoXdispReturn
  | xdReturnReceive (c : Core) (entry : XdEntry) (row : List Byte)
  | coreXrxWrite (c : Core) (g : Ctx) (b : Bool) (v : W64)
  -- 14 memory tiers
  | memRequest (m : MemCtl) (r : MemReq)
  | memGrant (m : MemCtl) (ecc : Ecc)
  | memPreempt (m : MemCtl) (words : Nat)
  | hbmPeriodicCal (pc : Fin 256)
  | zeroFillDone (t : Tier)
  | hbmPriocommit (v : W64)
  | lpPriocommit (v : W64)
  | coreMpriocommit (v : W64)
  | hbmNmgreq (h : Stack) (r : BitVec 512)
  | nmgRun (h : Stack) (ecc : List (BitVec 48 × Ecc))
  | nmgDone (h : Stack)
  -- 15 the queue pool
  | packetPush (q : QueueNo) (port : Fin 40) (data : List Byte) (written : Nat)
  | packetPop (q : QueueNo) (pop : PopCmd)
  | packetBreak (q : QueueNo)
  | qpQcfgWrite (q : QueueNo) (v : W64)
  | qpFlush (q : QueueNo) (v : W64)
  -- 16 time and topo
  | tbTimeset (v : W64)
  | syncInEdge (now : W64)
  | timeLock
  | refLost (why : RefLoss)
  | holdoverExpiry
  | timeRequest (t1 : W64)
  | timeRequestReceive (l : Link) (t2 t3 : W64)
  | timeReply (t1 t2 t3 t4 : W64) (state : BitVec 3) (depth : BitVec 4)
  | syncOutPulse
  | pitchStart
  | topoStart
  | topoSwap
  | topoLinkwin
  | linkwinEnd (l : Link)
  | topoColl
  | topoCalwin
  | topoDeadline
  | topoSleep
  | topoHeart
  | topoEpoch
  -- 17 Borvik links
  | flitReceive (l : Link) (flit : BitVec 2048)
  | retryRequest (l : Link) (seq : BitVec 10)
  | ackTimeout (l : Link)
  | recordClose (e : LinkEnd)
  | sealReceive (l : Link) (flit : BitVec 2048)
  | packetForward (p : Pkt)
  | pktWrite (p : Pkt)
  | pktRead (p : Pkt)
  | pktResponse (p : Pkt)
  | linkDown (l : Link) (reason : BitVec 4)
  | linkRetrainTimer (e : LinkEnd)
  | trainingDone (e : LinkEnd) (x4 laneHi half : Bool)
  | trainingTimeout (e : LinkEnd)
  | linkKeying (l : Link) (peer : PeerOffer)
  | rekey (l : Link)
  | retrain (l : Link)
  | wakeTx (l : Link)
  | wakeDet (l : Link)
  | collFailNotice (c : Core) (coll : CollId) (ring : Fin 8) (dev : BitVec 16) (link : BitVec 5)
  | collTimeout (c : Core) (ring : Fin 8)
  | collEnd (c : Core)
  -- 18 the Nimzen link
  | rdShared (h : Half) (txid : BitVec 10) (addr : BitVec 48)
  | rdOwn (h : Half) (txid : BitVec 10) (addr : BitVec 48)
  | rdNc (h : Half) (txid : BitVec 10) (addr : BitVec 48) (lines : Nat)
  | wrNc (h : Half) (txid : BitVec 10) (addr : BitVec 48) (data : List Byte)
  | wrPart (h : Half) (txid : BitVec 10) (addr : BitVec 48) (data : List Byte) (mask : W64)
  | wbDirty (h : Half) (txid : BitVec 10) (addr : BitVec 48) (data : List Byte)
  | evict (h : Half) (txid : BitVec 10) (addr : BitVec 48)
  | snpRsp (h : Half) (tag : NzTag) (data : Option (List Byte))
  | snoopTimeout (h : Half) (addr : BitVec 48)
  | menuReq (h : Half) (txid : BitVec 10) (entry : BitVec 16) (data : List Byte)
  | doorbell (h : Half) (txid : BitVec 10) (queue : BitVec 11) (data : List Byte)
  | popWaitExpiry (h : Half)
  | cData (h : Half) (txid : BitVec 10) (reason : BitVec 4) (data : List Byte)
  | cCmp (h : Half) (txid : BitVec 10) (reason : BitVec 4)
  | cInv (h : Half) (txid : BitVec 10) (addr : BitVec 48)
  | nzFlitReceive (h : Half) (body : BitVec 1888)
  | msgSend (h : Half)
  | msgResend (h : Half)
  | halfDown (h : Half)
  | nzKeying (h : Half) (compKey compSig : List Byte)
  | nzRetrain (h : Half)
  | nzRekey (h : Half)
  -- 19 reset, boot, flash and larder
  | porNAssert
  | resetNAssert
  | resetRelease (devid : BitVec 16)
  | imageRead
  | imageReadDone
  | weightLoadDone (entry : Nat)
  | loadWaitExpiry
  | erase (paddr : BitVec 30)
  | program (paddr : BitVec 30)
  | bootRead (paddr : BitVec 30)
  | verify (paddr : BitVec 30)
  | flashCmdDone (ok : Bool)
  | bootReset
  | lardWrite (n : LardNo) (v : W64) (who : Writer)
  | lardWriteDone
  -- 20 security
  | getId (p : SecPath)
  | attest (p : SecPath)
  | challenge (p : SecPath)
  | debugOpen (p : SecPath)
  | pwTry (p : SecPath) (arg : BitVec 5)
  | pwSet (p : SecPath) (arg : BitVec 5)
  | pwClear (p : SecPath)
  | commitVersion (p : SecPath)
  | ownSet (p : SecPath)
  | ownClear (p : SecPath)
  | debugClose (p : SecPath)
  | never (p : SecPath)
  | nonceExpiry
  | trngFail
  -- 21 roped pairs
  | heartbeatReceive (l : Link) (hb : Heartbeat)
  | attachWaitExpiry
  | attachMsg (l : Link) (m : AttachMsg)
  | resyncDone
  | rejoinPitch
  | detach
  | attach
  | detachAck
  | pairDetach
  | releasePitch
  -- 22 power
  | pwrReqActive (who : Writer)
  | pwrReqIdle
  | pwrReqNap (len : W32)
  | pwrReqBivouac (save : Bool) (len : W32)
  | pwrReqWatch (save : Bool) (len : W32)
  | domainQuery
  | delayLimExpiry
  | pwrCommit
  | saveDone
  | offStep
  | avsAck
  | avsTimeout
  | wakeNLow
  | nzIdleExit (h : Half)
  | wakePitch
  | tempWake (temp : BitVec 16)
  | railWake (aon vio : BitVec 16)
  | watchSample (smp : Sample)
  | wakeStep
  | restoreDone (failed : List (Core × Nat))
  | pwrPadRelease (v : W64)
  | ungate (d : Dom)
  | opChange (op : BitVec 2)
  | thermalStep (temp : BitVec 16)
  | thermtrip (temp : BitVec 16)
  | vddAonLow
  | railUndervolt
  -- 23 self-test and monitors
  | fltBistreq (v : W64)
  | bistStart (c : Core) (a : Arr)
  | bistDone (c : Core) (a : Arr) (pass : Bool)
  | bistRefuse (c : Core) (a : Arr)
  | fltCalreq (v : W64)
  | serdesCalDone (links : BitVec 24) (halves : BitVec 2)
  | fieldRestore (f : FieldAddr) (copyOk : Bool)
  | monWindowEnd (m : MonNo)
  | monClr (m : MonNo)
  | monCfgWrite (m : MonNo) (v : W64)
  | registerWrite (who : Writer) (addr : W64) (data : List Byte)
  | secCmdDone
  | monSample (m : MonNo) (v : W32)
deriving DecidableEq, Repr

end Sys2Proof
end

