-- ==== Sys2Proof/Config.lean ====
section
/-! DEFINITION. What one device fixes, and the free values: what the spec leaves open, as constants without a body. -/
namespace Sys2Proof.Config

/-- The part (Table 0-1). -/
inductive Part | glx384 | glx288
deriving DecidableEq, Repr

/-- The 64 bytes another device or the companion holds at an address, fresh at every draw: this model holds no memory of
theirs (R20, R504). -/
opaque remoteWord : Nat → W64 → BitVec 512

/-- The order, as a code that `permBy` reads, in which values whose order the spec does not fix are summed (R196, R208,
R299). -/
opaque order : Nat → Nat

/-- Which of the results within the error bound of Table 8-2 a hardware function (0 EXP2, 1 LOG2, 2 RECIP, 3 RSQRT) gives. -/
opaque hwOffset : Nat → W32 → Int

/-- SHA3-512 (FIPS 202), which the spec takes from its standard (R523). -/
opaque sha3 : List Byte → List Byte

/-- ML-DSA-87 verification of a signature over a message under a key (FIPS 204). -/
opaque mldsaVerify : List Byte → List Byte → List Byte → Bool

/-- ML-DSA-87 key generation from a seed (public key, private key) and signature of a message by a private key, both deterministic
(FIPS 204). -/
opaque mldsaKeys : List Byte → List Byte × List Byte
opaque mldsaSign : List Byte → List Byte → List Byte

/-- KMAC256 (NIST SP 800-185): key, data, bits of output, customization string. -/
opaque kmac256 : List Byte → List Byte → Nat → List Byte → List Byte

/-- The 256-bit root that the PUF and the fuses of this device give (R545). -/
opaque root : List Byte

/-- The key pair of the manufacturer; every device holds the digest of its public key in ROM (R545). -/
opaque mfgPair : List Byte × List Byte
/-- What ML-KEM-1024 gives in a KEYING or rekey, by its draw: shared secret, and encapsulation key with ciphertext (R487, R549); and
the link number of the peer. -/
opaque secret : Nat → List Byte
opaque encap : Nat → List Byte
opaque peerLink : Nat → Nat

/-- AES-256-GCM (R465): ciphertext and tag of a plaintext under key and salt, record counter and authenticated data. -/
opaque gcmSeal : List Byte → Nat → List Byte → List Byte → List Byte × List Byte

/-- AES-256-GCM: the plaintext of a ciphertext whose tag verifies (R466). -/
opaque gcmOpen : List Byte → Nat → List Byte → List Byte → List Byte → Option (List Byte)

/-- The two AES-256-XTS key pairs, 64 B each, of HBM3E and LPDDR5X that the enclave draws at a reset (R418). -/
opaque tierKeys : Nat → List Byte × List Byte

/-- AES-256-XTS of one 64 B word under a key pair and a tweak (R418), and the check bits of SECDED over 64 B (R250, R396). -/
opaque xts : List Byte → Nat → List Byte → List Byte
opaque secded : List Byte → List Byte

/-- By how many ns, at most, a side of a queue in the Borvik receive clock (2) or the Nimzen clock (3) sees a change of the other side
late: three cycles of a clock whose frequency the spec does not give (R435). -/
opaque lagNs : Nat → Nat

/-- How many of the cells that one side of a queue has not yet seen it still does not see when it looks (R435). -/
opaque viewLag : Nat → Nat → Nat

/-- The cycles that an access to a port of an accumulator store waits, and those in which a write to one is delayed by another
on its write port (R152, R153). -/
opaque portWait : Nat → Nat

opaque portConflict : Nat → Nat

/-- Cycles that a link's flits wait for a credit, a value at each look (R468). -/
opaque creditWait : Nat → Nat

/-- Controller cycles from the last request that waited for a fill to the fill's completion (R401). -/
opaque fillLate : Nat → Nat

/-- A nonce drawn by the random source (R552). -/
opaque nonce : Nat → BitVec 256

/-- Does root reconstruction from the PUF succeed at this boot (R545, R546)? -/
opaque pufOk : Nat → Bool

/-- Whether SFDP can be read from the board's flash, at each reset (R519). -/
opaque flashOk : Nat → Bool

/-- The digest of the companion's key that an image, named by its own digest, holds (R499): the spec gives no place for it in
the image. -/
opaque compDigest : List Byte → List Byte

/-- What the signatures of a half's KEYING cover: the transcript digest, of which the spec names no parts at the companion's end (R499,
R549); and whether the device's direction is "UP". -/
opaque compTranscript : Nat → List Byte
opaque halfUpward : Bool

/-- Whether a half trained to x8 and to 32 GT/s, by its draw. -/
opaque halfWidth : Nat → Bool × Bool

/-- The factory default trims fixed in basecamp ROM, by larder word (Table 23-2). -/
opaque factoryTrim : Nat → W64

/-- Whether a larder write in progress at a reset is kept (R540). -/
opaque lardKeep : Nat → Bool

/-- Whether a read of the flash succeeds (FAIL code 6 of BOOT_STAT). -/
opaque flashRead : Nat → Bool

/-- A byte of the flash that an interrupted or failed command leaves, and what the flash gives above its density. -/
opaque flashByte : Nat → Nat → Byte

/-- FRAME of PAN_STAT: the frame cycle in which a read was served. -/
opaque frame : Nat → BitVec 4

/-- The number by which a SEC_AUTH record names a path (0 the program, 1 SMBus, 2 JTAG); Table 23-7 gives none. -/
opaque pathNo : Nat → Nat

/-- The lifetime telemetry word, counted from word 104, that counts undervoltage resets (R671). -/
opaque undervoltWord : Fin 152

end Sys2Proof.Config
end

