-- ==== Sys2Proof/Machine/Bits.lean ====
section
/-! DEFINITION. Bit fields, byte order (R7, little-endian), sorted maps with a default value, and sorted sets of numbers:
the plain helpers every other file uses. -/
namespace Sys2Proof.Machine

/-- Bits [lo+len-1:lo] of a word, as a number (R7). -/
def fld {n : Nat} (w : BitVec n) (lo len : Nat) : Nat := (w.toNat / 2 ^ lo) % 2 ^ len

/-- Bit i of a word. -/
def bitOf {n : Nat} (w : BitVec n) (i : Nat) : Bool := w.getLsbD i

/-- The word with bits [lo+len-1:lo] replaced by the low len bits of v. -/
def setFld {n : Nat} (w : BitVec n) (lo len v : Nat) : BitVec n :=
  (w &&& ~~~(BitVec.ofNat n ((2 ^ len - 1) * 2 ^ lo))) ||| BitVec.ofNat n ((v % 2 ^ len) * 2 ^ lo)

/-- The number as bits from lo upward, to be added to other fields. -/
def at' (v lo : Nat) : Nat := v * 2 ^ lo

/-- A Bool as a bit. -/
def b2n (b : Bool) : Nat := if b then 1 else 0

/-- The n bytes of v, the lowest first (R7). -/
def bytesOf : Nat → Nat → List Byte
  | 0, _ => []
  | n + 1, v => BitVec.ofNat 8 v :: bytesOf n (v / 256)

/-- The number whose bytes, lowest first, are the list (R7). -/
def natOf : List Byte → Nat
  | [] => 0
  | b :: bs => b.toNat + 256 * natOf bs

/-- The list cut or padded with zeros to n bytes. -/
def padTo : Nat → List Byte → List Byte
  | 0, _ => []
  | n + 1, [] => 0 :: padTo n []
  | n + 1, b :: bs => b :: padTo n bs

/-- Bytewise complement. -/
def complBytes (bs : List Byte) : List Byte := bs.map (fun b => ~~~b)

/-- Rounded-up division. -/
def ceilDiv (a b : Nat) : Nat := (a + b - 1) / b

/-- `n` as a signed number of `k` bits. -/
def signed (k n : Nat) : Int := if n % 2 ^ k < 2 ^ (k - 1) then (n % 2 ^ k : Nat) else (n % 2 ^ k : Nat) - (2 ^ k : Nat)

/-- The low k bits of an integer. -/
def unsign (k : Nat) (i : Int) : Nat := (i % (2 ^ k : Nat)).toNat

/-- The position of the highest set bit (0 for 0). -/
def log2 (n : Nat) : Nat := Nat.log2 n

/-- A sorted map: keys strictly rising, no entry equal to what an unlisted key reads as. -/
abbrev SMap (α : Type) := List (Nat × α)

/-- The value at key k; `d` gives the value of a key that is not listed. -/
def SMap.get {α : Type} (d : Nat → α) (k : Nat) : SMap α → α
  | [] => d k
  | (j, v) :: m => if k = j then v else if k < j then d k else SMap.get d k m

/-- The map with key k holding v, kept in canonical form. -/
def SMap.put {α : Type} [DecidableEq α] (d : Nat → α) (k : Nat) (v : α) : SMap α → SMap α
  | [] => if v = d k then [] else [(k, v)]
  | (j, w) :: m =>
    if k < j then (if v = d k then (j, w) :: m else (k, v) :: (j, w) :: m)
    else if k = j then (if v = d k then m else (k, v) :: m)
    else (j, w) :: SMap.put d k v m

/-- Every key of the map is above b. -/
def SMap.above {α : Type} (b : Nat) : SMap α → Bool
  | [] => true
  | (j, _) :: m => decide (b < j) && SMap.above b m

/-- The canonical form: keys strictly rising, no listed default. -/
def SMap.wf {α : Type} [DecidableEq α] (d : Nat → α) : SMap α → Bool
  | [] => true
  | (j, v) :: m => decide (v ≠ d j) && SMap.above j m && SMap.wf d m

/-- A sorted list of numbers without repeats. -/
abbrev NSet := List Nat

/-- Membership. -/
def NSet.has (k : Nat) : NSet → Bool
  | [] => false
  | j :: m => if k = j then true else if k < j then false else NSet.has k m

/-- Insertion. -/
def NSet.add (k : Nat) : NSet → NSet
  | [] => [k]
  | j :: m => if k < j then k :: j :: m else if k = j then j :: m else j :: NSet.add k m

/-- Removal. -/
def NSet.del (k : Nat) : NSet → NSet
  | [] => []
  | j :: m => if k = j then m else j :: NSet.del k m

/-- Removal of every member in [lo, lo+n). -/
def NSet.delRange (lo n : Nat) (m : NSet) : NSet := m.filter (fun j => !(decide (lo ≤ j) && decide (j < lo + n)))

/-- The numbers lo, lo+1, …, lo+n-1. -/
def rangeFrom (lo : Nat) : Nat → List Nat
  | 0 => []
  | n + 1 => lo :: rangeFrom (lo + 1) n

/-- Repeat a state change over the numbers 0 to n-1. -/
def forN {σ : Type} (n : Nat) (f : Nat → σ → σ) (s : σ) : σ := (List.range n).foldl (fun s i => f i s) s

/-- Repeat a state change over a list. -/
def forL {σ α : Type} (l : List α) (f : α → σ → σ) (s : σ) : σ := l.foldl (fun s a => f a s) s

/-- Bit i of a mask held as a number. -/
def tb (m i : Nat) : Bool := m.testBit i

/-- The first n elements, padded with d. -/
def takeD {α : Type} (d : α) : Nat → List α → List α
  | 0, _ => []
  | n + 1, [] => d :: takeD d n []
  | n + 1, a :: l => a :: takeD d n l

/-- Replace element i. -/
def setAt {α : Type} (i : Nat) (v : α) (l : List α) : List α := l.set i v

/-- Element i or the default. -/
def nth {α : Type} (d : α) (i : Nat) (l : List α) : α := (l[i]?).getD d

/-- The numbered bits of `v` of width w at slot i. -/
def slot (v w i : Nat) : Nat := (v / 2 ^ (w * i)) % 2 ^ w

/-- A number from the bits of a list, element i at bits [w*i+w-1:w*i]. -/
def packBits (w : Nat) : List Nat → Nat
  | [] => 0
  | x :: xs => x % 2 ^ w + 2 ^ w * packBits w xs

/-- The list in the order that a code names: every order has a code. -/
def permBy {α : Type} : Nat → Nat → List α → List α
  | 0, _, l => l
  | n + 1, code, l =>
    match l[code % l.length]? with
    | some a => a :: permBy n (code / l.length) (l.eraseIdx (code % l.length))
    | none => []

end Sys2Proof.Machine
end

