-- ==== Sys2Proof/Machine/Float.lean ====
section
/-! DEFINITION. Number formats and rounding (spec/02_number_formats.md): the element types, their value sets, exact
products and sums, the conversions of Table 2-5 and the block scales of MX. Values are exact dyadic numbers; each
operation computes exactly and rounds once at the end. -/
namespace Sys2Proof.Machine

/-- The type codes of Table 2-1 (R22). -/
inductive Code | fp32 | bf16 | fp16 | e4m3 | e5m2 | e3m2 | e2m3 | e2m1 | int8 | int4 | int32
deriving DecidableEq, Repr

/-- An element type: the type code and the SCALED bit (R22). -/
structure EType where
  code   : Code
  scaled : Bool
deriving DecidableEq, Repr

/-- The code of Table 2-1; 11 to 15 are reserved. -/
def Code.ofNat? : Nat → Option Code
  | 0 => some .fp32 | 1 => some .bf16 | 2 => some .fp16 | 3 => some .e4m3 | 4 => some .e5m2 | 5 => some .e3m2
  | 6 => some .e2m3 | 7 => some .e2m1 | 8 => some .int8 | 9 => some .int4 | 10 => some .int32 | _ => none

/-- The number of a type code. -/
def Code.toNat : Code → Nat
  | .fp32 => 0 | .bf16 => 1 | .fp16 => 2 | .e4m3 => 3 | .e5m2 => 4 | .e3m2 => 5
  | .e2m3 => 6 | .e2m1 => 7 | .int8 => 8 | .int4 => 9 | .int32 => 10

/-- Whether the type has a scaled form (Table 2-1). -/
def Code.hasScaled : Code → Bool
  | .e4m3 | .e5m2 | .e3m2 | .e2m3 | .e2m1 | .int8 => true
  | _ => false

/-- A 5-bit type field; none where R23 rejects it (BAD_TYPE). -/
def EType.ofField (v : Nat) : Option EType :=
  match Code.ofNat? (v % 16) with
  | none => none
  | some c => if (v / 16) % 2 = 1 then (if c.hasScaled then some ⟨c, true⟩ else none) else some ⟨c, false⟩

/-- The 5-bit type field of a type. -/
def EType.field (t : EType) : Nat := t.code.toNat + 16 * b2n t.scaled

/-- FP32 and INT32 as plain types. -/
def tF32 : EType := ⟨.fp32, false⟩
def tI32 : EType := ⟨.int32, false⟩

/-- Bits per element (Table 2-1). -/
def Code.width : Code → Nat
  | .fp32 | .int32 => 32
  | .bf16 | .fp16 => 16
  | .e4m3 | .e5m2 | .int8 => 8
  | .e3m2 | .e2m3 => 6
  | .e2m1 | .int4 => 4

/-- Elements per 64 B word (Table 2-3). -/
def Code.perWord : Code → Nat
  | .fp32 | .int32 => 16
  | .bf16 | .fp16 => 32
  | .e4m3 | .e5m2 | .int8 => 64
  | .e3m2 | .e2m3 => 80
  | .e2m1 | .int4 => 128

/-- The plain integer types; MXINT8 is a floating type (R24). -/
def EType.isInt (t : EType) : Bool :=
  match t.code with
  | .int4 | .int32 => true
  | .int8 => !t.scaled
  | _ => false

/-- What a pattern stands for: a NaN, an infinity, or the exact number (-1)^neg * m * 2^e. -/
inductive Fv
  | nan
  | inf (neg : Bool)
  | fin (neg : Bool) (m : Nat) (e : Int)
deriving DecidableEq, Repr

/-- A floating layout (Table 2-2): exponent and fraction widths, bias, whether it has infinities, and how it has NaNs
(0 none, 1 IEEE, 2 only the all-ones pattern). -/
structure Fmt where
  expW   : Nat
  manW   : Nat
  bias   : Nat
  hasInf : Bool
  nanK   : Nat
deriving DecidableEq, Repr

/-- The layouts of Table 2-2; the integer types have none. -/
def Code.fmt : Code → Fmt
  | .fp32 => ⟨8, 23, 127, true, 1⟩
  | .bf16 => ⟨8, 7, 127, true, 1⟩
  | .fp16 => ⟨5, 10, 15, true, 1⟩
  | .e4m3 => ⟨4, 3, 7, false, 2⟩
  | .e5m2 => ⟨5, 2, 15, true, 1⟩
  | .e3m2 => ⟨3, 2, 3, false, 0⟩
  | .e2m3 => ⟨2, 3, 1, false, 0⟩
  | .e2m1 => ⟨2, 1, 1, false, 0⟩
  | _ => ⟨8, 23, 127, true, 1⟩

/-- The exponent of one unit of the last place of a subnormal. -/
def Fmt.minQ (f : Fmt) : Int := 1 - (f.bias : Int) - (f.manW : Int)

/-- The magnitude pattern of the largest finite value. -/
def Fmt.maxMag (f : Fmt) : Nat :=
  if f.nanK = 1 then (2 ^ f.expW - 1) * 2 ^ f.manW - 1
  else if f.nanK = 2 then 2 ^ (f.expW + f.manW) - 2 else 2 ^ (f.expW + f.manW) - 1

/-- The sign bit of a layout. -/
def Fmt.signBit (f : Fmt) : Nat := 2 ^ (f.expW + f.manW)

/-- The canonical NaN (Table 2-2). -/
def Code.canonNan : Code → Nat
  | .fp32 => 0x7FC00000 | .bf16 => 0x7FC0 | .fp16 => 0x7E00 | .e4m3 => 0x7F | .e5m2 => 0x7E | _ => 0

/-- The value of a floating pattern (R25). -/
def Fmt.decode (f : Fmt) (w : Nat) : Fv :=
  let neg := (w / f.signBit) % 2 = 1
  let ex := (w / 2 ^ f.manW) % 2 ^ f.expW
  let fr := w % 2 ^ f.manW
  if f.nanK = 1 ∧ ex = 2 ^ f.expW - 1 then (if fr = 0 then .inf neg else .nan)
  else if f.nanK = 2 ∧ w % f.signBit = f.signBit - 1 then .nan
  else if ex = 0 then .fin neg fr f.minQ
  else .fin neg (2 ^ f.manW + fr) (f.minQ + ((ex : Int) - 1))

/-- The value of an element's bits; INT8 under SCALED counts in units of 2^-6 (R24, R25). -/
def EType.value (t : EType) (w : Nat) : Fv :=
  match t.code with
  | .int8 => let i := signed 8 w; .fin (decide (i < 0)) i.natAbs (if t.scaled then -6 else 0)
  | .int4 => let i := signed 4 w; .fin (decide (i < 0)) i.natAbs 0
  | .int32 => let i := signed 32 w; .fin (decide (i < 0)) i.natAbs 0
  | c => c.fmt.decode w

/-- Multiply by 2^k exactly. -/
def Fv.scaleBy (v : Fv) (k : Int) : Fv :=
  match v with
  | .fin n m e => .fin n m (e + k)
  | v => v

/-- The value under an E8M0 scale byte (R28, R33). -/
def Fv.scaled (v : Fv) (s : Nat) : Fv := if s = 255 then .nan else v.scaleBy ((s : Int) - 127)

/-- Rounding mode of one conversion: to nearest even (R41) or stochastic with its 16 random bits (R42). -/
inductive Rnd | rne | sr (r : Nat)
deriving DecidableEq, Repr

/-- The magnitude m * 2^e in units of 2^q, rounded (R41, R42). -/
def roundUnits (r : Rnd) (m : Nat) (e q : Int) : Nat :=
  if q ≤ e then m * 2 ^ (e - q).toNat
  else
    let k := (q - e).toNat
    let keep := m / 2 ^ k
    let rem := m % 2 ^ k
    match r with
    | .rne =>
      if rem * 2 > 2 ^ k ∨ (rem * 2 = 2 ^ k ∧ keep % 2 = 1) then keep + 1 else keep
    | .sr w =>
      let d := rem * 65536 / 2 ^ k
      if d + w ≥ 65536 then keep + 1 else keep

/-- floor(log2) of m * 2^e, m not 0. -/
def magLog2 (m : Nat) (e : Int) : Int := (log2 m : Int) + e

/-- The magnitude pattern that m * 2^e rounds to, without an upper bound: the value is pattern-encoded as if exponents
went on, so it overflows when it exceeds maxMag (R46). -/
def Fmt.roundMag (f : Fmt) (r : Rnd) (m : Nat) (e : Int) : Nat :=
  if m = 0 then 0
  else
    let q := max f.minQ (magLog2 m e - (f.manW : Int))
    (q - f.minQ).toNat * 2 ^ f.manW + roundUnits r m e q

/-- The sign bit set on a magnitude pattern. -/
def Fmt.withSign (f : Fmt) (neg : Bool) (mag : Nat) : Nat := if neg then f.signBit + mag else mag

/-- Round to FP32, overflow to infinity, canonical NaN (R32, R36, R51). -/
def toF32 (r : Rnd) (v : Fv) : W32 :=
  let f := Code.fp32.fmt
  match v with
  | .nan => 0x7FC00000#32
  | .inf n => BitVec.ofNat 32 (f.withSign n 0x7F800000)
  | .fin n m e =>
    let g := f.roundMag r m e
    BitVec.ofNat 32 (f.withSign n (if g > f.maxMag then 0x7F800000 else g))

/-- The value of an FP32 pattern. -/
def f32 (w : W32) : Fv := Code.fp32.fmt.decode w.toNat

/-- A signed integer as an exact value; zero is +0. -/
def Fv.ofInt (i : Int) (e : Int) : Fv := .fin (decide (i < 0)) i.natAbs e

/-- The signed significand of a finite value at exponent q ≤ e. -/
def sigAt (n : Bool) (m : Nat) (e q : Int) : Int := (if n then -1 else 1) * (m * 2 ^ (e - q).toNat : Nat)

/-- Exact product with the rules of R51; signs multiply. -/
def Fv.mul (a b : Fv) : Fv :=
  match a, b with
  | .nan, _ => .nan
  | _, .nan => .nan
  | .inf x, .inf y => .inf (x != y)
  | .inf x, .fin y m _ => if m = 0 then .nan else .inf (x != y)
  | .fin x m _, .inf y => if m = 0 then .nan else .inf (x != y)
  | .fin x m e, .fin y k g => .fin (x != y) (m * k) (e + g)

/-- Exact sum with the rules of R51 and R52: opposite infinities give a NaN, a zero sum is +0 unless both are −0. -/
def Fv.add (a b : Fv) : Fv :=
  match a, b with
  | .nan, _ => .nan
  | _, .nan => .nan
  | .inf x, .inf y => if x = y then .inf x else .nan
  | .inf x, .fin _ _ _ => .inf x
  | .fin _ _ _, .inf y => .inf y
  | .fin x m e, .fin y k g =>
    let q := min e g
    let s := sigAt x m e q + sigAt y k g q
    if s = 0 then (if m = 0 ∧ k = 0 then .fin (x && y) 0 q else .fin false 0 q) else Fv.ofInt s q

/-- Negation. -/
def Fv.neg : Fv → Fv
  | .nan => .nan
  | .inf x => .inf (!x)
  | .fin x m e => .fin (!x) m e

/-- Magnitude. -/
def Fv.abs : Fv → Fv
  | .nan => .nan
  | .inf _ => .inf false
  | .fin _ m e => .fin false m e

/-- Signed comparison of two finite values: the sign of a − b. -/
def cmpFin (x : Bool) (m : Nat) (e : Int) (y : Bool) (k : Nat) (g : Int) : Int :=
  let q := min e g
  sigAt x m e q - sigAt y k g q

/-- a < b for values that are not NaN; −0 equals +0. -/
def Fv.lt (a b : Fv) : Bool :=
  match a, b with
  | .nan, _ => false
  | _, .nan => false
  | .inf x, .inf y => x && !y
  | .inf x, .fin _ _ _ => x
  | .fin _ _ _, .inf y => !y
  | .fin x m e, .fin y k g => decide (cmpFin x m e y k g < 0)

/-- Equal as numbers; a NaN equals nothing. -/
def Fv.eq (a b : Fv) : Bool :=
  match a, b with
  | .nan, _ => false
  | _, .nan => false
  | a, b => !(a.lt b) && !(b.lt a)

/-- Whether a value is zero. -/
def Fv.isZero : Fv → Bool
  | .fin _ 0 _ => true
  | _ => false

/-- Whether a value is a NaN. -/
def Fv.isNan : Fv → Bool
  | .nan => true
  | _ => false

/-- FP32 sum rounded to nearest even (R36). -/
def f32add (a b : W32) : W32 := toF32 .rne ((f32 a).add (f32 b))

/-- FP32 product rounded to nearest even. -/
def f32mul (a b : W32) : W32 := toF32 .rne ((f32 a).mul (f32 b))

/-- FP32 fused multiply-add: one rounding. -/
def f32fma (a b c : W32) : W32 := toF32 .rne (((f32 a).mul (f32 b)).add (f32 c))

/-- The fixed pairing: level by level, node i adds inputs 2i and 2i+1 (R36); fuel is the number of levels. -/
def pairUp : List W32 → List W32
  | a :: b :: l => f32add a b :: pairUp l
  | l => l

/-- A tree of 2^levels inputs in the fixed pairing, absent inputs +0 (R36). -/
def f32tree (levels : Nat) (l : List W32) : W32 :=
  nth 0 0 (levels.repeat pairUp (takeD 0 (2 ^ levels) l))

/-- The counters a conversion or an integer add may advance (R38, R46). -/
structure NumCnt where
  sat    : Nat
  cvtSat : Nat
  nanCvt : Nat
deriving DecidableEq, Repr

def NumCnt.zero : NumCnt := ⟨0, 0, 0⟩
def NumCnt.add (a b : NumCnt) : NumCnt := ⟨a.sat + b.sat, a.cvtSat + b.cvtSat, a.nanCvt + b.nanCvt⟩

/-- CORE_NUMCTL as it stood at decode (R53). -/
structure NumCtl where
  intWrap   : Bool
  e4m3NoSat : Bool
  e5m2Sat   : Bool
deriving DecidableEq, Repr

def NumCtl.ofReg (w : W64) : NumCtl := ⟨bitOf w 0, bitOf w 1, bitOf w 2⟩

/-- The INT32 accumulator add (R38, R39): the sum and whether SAT advances. -/
def i32add (c : NumCtl) (a : W32) (x : Int) : W32 × Nat :=
  let s := a.toInt + x
  if s < -2147483648 ∨ 2147483647 < s then
    (if c.intWrap then BitVec.ofInt 32 s else if s < 0 then 0x80000000#32 else 0x7FFFFFFF#32, 1)
  else (BitVec.ofInt 32 s, 0)

/-- The bounds of an integer type. -/
def Code.intLo : Code → Int
  | .int4 => -8 | .int8 => -128 | _ => -2147483648
def Code.intHi : Code → Int
  | .int4 => 7 | .int8 => 127 | _ => 2147483647

/-- Conversion to an integer type whose unit is 2^q (Table 2-5). -/
def toIntCode (c : Code) (q : Int) (r : Rnd) (v : Fv) : Nat × NumCnt :=
  match v with
  | .nan => (0, ⟨0, 0, 1⟩)
  | .inf n => (unsign c.width (if n then c.intLo else c.intHi), ⟨0, 1, 0⟩)
  | .fin n m e =>
    let u := roundUnits r m e q
    let i : Int := if n then -(u : Int) else u
    if i < c.intLo then (unsign c.width c.intLo, ⟨0, 1, 0⟩)
    else if c.intHi < i then (unsign c.width c.intHi, ⟨0, 1, 0⟩)
    else (unsign c.width i, .zero)

/-- Conversion of one value to an element pattern (R46, Table 2-5); `clamp` is set for the elements of a scaled form,
where an overflow takes the nearer bound whatever the control bits hold (R47). -/
def convert (nc : NumCtl) (clamp : Bool) (c : Code) (r : Rnd) (v : Fv) : Nat × NumCnt :=
  match c with
  | .int8 => toIntCode .int8 (if clamp then -6 else 0) r v
  | .int4 => toIntCode .int4 0 r v
  | .int32 => toIntCode .int32 0 r v
  | c =>
    let f := c.fmt
    let tooBig (n : Bool) : Nat × NumCnt :=
      match c with
      | .fp32 | .bf16 | .fp16 => (f.withSign n ((2 ^ f.expW - 1) * 2 ^ f.manW), .zero)
      | .e4m3 => if nc.e4m3NoSat ∧ !clamp then (0x7F, .zero) else (f.withSign n f.maxMag, ⟨0, 1, 0⟩)
      | .e5m2 => if nc.e5m2Sat ∨ clamp then (f.withSign n f.maxMag, ⟨0, 1, 0⟩) else (f.withSign n 0x7C, .zero)
      | _ => (f.withSign n f.maxMag, ⟨0, 1, 0⟩)
    match v with
    | .nan => if f.nanK = 0 then (0, ⟨0, 0, 1⟩) else (c.canonNan, .zero)
    | .inf n => tooBig n
    | .fin n m e =>
      let g := f.roundMag r m e
      if g > f.maxMag then tooBig n else (f.withSign n g, .zero)

/-- The e of R47 for a scaled element type. -/
def Code.scaleE : Code → Int
  | .e4m3 => 8 | .e5m2 => 15 | .e3m2 => 4 | .e2m3 => 2 | .e2m1 => 2 | _ => 0

/-- The larger magnitude of two finite magnitudes. -/
def maxMagVal (a b : Nat × Int) : Nat × Int :=
  if cmpFin false a.1 a.2 false b.1 b.2 < 0 then b else a

/-- The largest magnitude of a block (finite values only; 0 where there is none). -/
def blockAmax : List Fv → Nat × Int
  | [] => (0, 0)
  | .fin _ m e :: l => maxMagVal (m, e) (blockAmax l)
  | _ :: l => blockAmax l

/-- Conversion of one block of at most 32 values to a scaled form (R47 to R49): the scale byte, the elements and the
counters. `rnds` gives each element's rounding. -/
def convertBlock (nc : NumCtl) (c : Code) (rnds : List Rnd) (vs : List Fv) : Nat × List Nat × NumCnt :=
  if vs.any (fun v => match v with | .fin _ _ _ => false | _ => true) then (255, vs.map (fun _ => 0), ⟨0, 0, 1⟩)
  else
    let am := blockAmax vs
    let s : Nat := if am.1 = 0 then 127 else (min 254 (max 0 (magLog2 am.1 am.2 - c.scaleE + 127))).toNat
    let res := (vs.zip rnds).map (fun p => convert nc true c p.2 (p.1.scaleBy (127 - (s : Int))))
    (s, res.map (·.1), (res.map (·.2)).foldl NumCnt.add .zero)

/-- One step of the random generator (R43). -/
def nextWord (s : W32) : W32 :=
  let a := s ^^^ (s <<< 13)
  let b := a ^^^ (a >>> 17)
  b ^^^ (b <<< 5)

/-- The next n outputs and the state after them. -/
def nextWords : Nat → W32 → List W32 × W32
  | 0, s => ([], s)
  | n + 1, s => let t := nextWord s; let r := nextWords n t; (t :: r.1, r.2)

/-- The roundings of one group of up to 64 lanes and the generator after it (R42, R43): SR takes 64 words whatever the
group holds, RNE takes none. -/
def groupRnds (sr : Bool) (s : W32) : List Rnd × W32 :=
  if sr then let r := nextWords 64 s; (r.1.map (fun w => .sr (w.toNat / 65536)), r.2)
  else (List.replicate 64 .rne, s)

/-- A list cut into groups of n; `fuel` bounds the number of groups. -/
def chunks {α : Type} (n : Nat) : Nat → List α → List (List α)
  | 0, _ => []
  | fuel + 1, l => if l.isEmpty then [] else l.take n :: chunks n fuel (l.drop n)

/-- A converted run: the element patterns, the scale bytes (one per block of 32 in a scaled form), counters and the
generator. -/
structure Conv where
  elems  : List Nat
  scales : List Nat
  cnt    : NumCnt
  gen    : W32
deriving DecidableEq, Repr

/-- Convert one group of up to 64 values (two blocks of 32 in a scaled form). -/
def convertGroup (nc : NumCtl) (t : EType) (sr : Bool) (vs : List Fv) (gen : W32) : Conv :=
  let rg := groupRnds sr gen
  if t.scaled then
    let bl := (chunks 32 3 (vs.zip rg.1)).map (fun b => convertBlock nc t.code (b.map (·.2)) (b.map (·.1)))
    ⟨bl.flatMap (fun b => b.2.1), bl.map (·.1), (bl.map (fun b => b.2.2)).foldl NumCnt.add .zero, rg.2⟩
  else
    let rs := (vs.zip rg.1).map (fun p => convert nc false t.code p.2 p.1)
    ⟨rs.map (·.1), [], (rs.map (·.2)).foldl NumCnt.add .zero, rg.2⟩

/-- Convert a run, 64 elements a group in order (R43). -/
def convertRun (nc : NumCtl) (t : EType) (sr : Bool) (gen : W32) (vs : List Fv) : Conv :=
  (chunks 64 vs.length vs).foldl (fun acc g =>
    let r := convertGroup nc t sr g acc.gen
    ⟨acc.elems ++ r.elems, acc.scales ++ r.scales, acc.cnt.add r.cnt, r.gen⟩) ⟨[], [], .zero, gen⟩

/-- BF16 rounding of a value as a value (R35), with the largest finite BF16 value where rounding would overflow. -/
def toBf16Val (v : Fv) : Fv :=
  match v with
  | .fin n m e =>
    let f := Code.bf16.fmt
    let g := f.roundMag .rne m e
    f.decode (f.withSign n (if g > f.maxMag then f.maxMag else g))
  | v => v

/-- The split of an FP32 operand (R35): hi and lo. -/
def splitF32 (v : Fv) : Fv × Fv :=
  match v with
  | .fin _ _ _ => let hi := toBf16Val v; (hi, toBf16Val (v.add hi.neg))
  | v => (v, .fin false 0 0)

end Sys2Proof.Machine
end

