-- ==== Sys2Proof/Machine/RegAddr.lean ====
section
/-! DEFINITION. The names of the registers: each register of Table 25-7 by its local address (R639, R643), its reset
value, and the bits that a write may change (R8, R11). A register is stored under its address; status fields that a
unit's own state decides are not stored but read from that state (Machine/RegMap.lean). -/
namespace Sys2Proof.Machine

/-- The base of a device block page (Table 25-3). -/
def pageBase (i : Nat) : Nat := 0x78000000 + i * 0x10000

/-- A register of core c's control block. -/
def coreBlk (c : Core) (off : Nat) : Nat := 0x70000000 + c.val * 0x10000 + off
/-- A register of core c in a page of 0x100 bytes a core. -/
def perCore (page : Nat) (c : Core) (off : Nat) : Nat := pageBase page + c.val * 0x100 + off

def rEn (c : Core) := coreBlk c 0x10
def rNumctl (c : Core) := coreBlk c 0x40
def rNumcnt0 (c : Core) := coreBlk c 0x48
def rNumcnt1 (c : Core) := coreBlk c 0x50
def rSrstate (c : Core) := coreBlk c 0x58
def rTilectl (c : Core) := coreBlk c 0x60
def rTilecnt0 (c : Core) := coreBlk c 0x68
def rTilecnt1 (c : Core) := coreBlk c 0x70
def rFeedcnt (c : Core) := coreBlk c 0x78
def rFgcnt0 (c : Core) := coreBlk c 0x80
def rFgcnt1 (c : Core) := coreBlk c 0x88
def rFgctx (c : Core) (g : Nat) := coreBlk c (0x100 + 8 * g)
def rXrxa (c : Core) (g : Nat) := coreBlk c (0x200 + 8 * g)
def rXrxb (c : Core) (g : Nat) := coreBlk c (0x280 + 8 * g)
def rXrxs (c : Core) (g : Nat) := coreBlk c (0x300 + 8 * g)
def rXcnt0 (c : Core) := coreBlk c 0x380
def rXcnt1 (c : Core) := coreBlk c 0x388
def rPepoch (c : Core) := coreBlk c 0x400

def rMapcnt0 := pageBase 0 + 0x10
def rMapcnt1 := pageBase 0 + 0x18
def rMprio := pageBase 0 + 0x20

def arrReg (c : Core) (a : Arr) (off : Nat) := pageBase 1 + c.val * 0x400 + a.val * 0x80 + off
def rArrCnt0 (c : Core) (a : Arr) := arrReg c a 0x08
def rArrCnt1 (c : Core) (a : Arr) := arrReg c a 0x10
def rAccCnt0 (c : Core) := perCore 2 c 0x00
def rAccCnt1 (c : Core) := perCore 2 c 0x08
def rSieveCnt (c : Core) (k : Nat) := perCore 3 c (0x08 + 8 * k)
def rVecCnt0 (c : Core) := perCore 4 c 0x08
def rVecAmax (c : Core) (n : Nat) := perCore 4 c (0x10 + 8 * n)
def rPanStat (c : Core) := perCore 5 c 0x00
def rPanCnt (c : Core) (k : Nat) := perCore 5 c (0x08 + 8 * k)
def rPanInval (c : Core) := perCore 5 c 0x20
def rStrCtl (c : Core) := perCore 6 c 0x00
def rStrCnt (c : Core) (k : Nat) := perCore 6 c (0x30 + 8 * k)
def rSeqCtl (c : Core) := perCore 7 c 0x00
def rSeqCnt (c : Core) (k : Nat) := perCore 7 c (0x10 + 8 * k)
def belayReg (c : Core) (off : Nat) := pageBase 8 + c.val * 0x400 + off
def rBelayA (c : Core) (n : Nat) := belayReg c (n * 0x20)
def rBelayB (c : Core) (n : Nat) := belayReg c (n * 0x20 + 8)
def rBelayCnt (c : Core) := belayReg c 0x100

def rHbmCfg := pageBase 9
def rHbmPrio (n : Nat) := pageBase 9 + 0x10 + 8 * n
def hbmReg (h : Nat) (off : Nat) := pageBase 9 + 0x100 + 0x40 * h + off
def rHbmCnt0 (h : Nat) := hbmReg h 0x08
def rHbmCnt1 (h : Nat) := hbmReg h 0x10
def rNmgCnt (h k : Nat) := hbmReg h (0x18 + 8 * k)
def rLpCfg := pageBase 10
def rLpPrio (n : Nat) := pageBase 10 + 0x10 + 8 * n
def rLpCnt0 (c : Nat) := pageBase 10 + 0x100 + 0x10 * c
def rLpCnt1 (c : Nat) := pageBase 10 + 0x108 + 0x10 * c
def rQcfg (q : Nat) := pageBase 11 + 8 * q
def rQpCnt (d k : Nat) := pageBase 11 + 0x8000 + 0x20 * d + 8 + 8 * k
def rTbCfg := pageBase 12
def rTbOrigin := pageBase 12 + 0x08
def rTbRun := pageBase 12 + 0x10
def rTbEpoch := pageBase 12 + 0x30
def rTbCnt (k : Nat) := pageBase 12 + 0x40 + 8 * k
def rBvCfg := pageBase 13
def rBvCnt (k : Nat) := pageBase 13 + 0x08 + 8 * k
def rBvRtq := pageBase 13 + 0x18
def bvReg (l : Nat) (off : Nat) := pageBase 13 + 0x1000 + 0x40 * l + off
def rLcfg (l : Nat) := bvReg l 0
def rLcnt (l k : Nat) := bvReg l (0x18 + 8 * k)
def rNzCfg := pageBase 14
def rNzWinA (n : Nat) := pageBase 14 + 0x100 + 0x10 * n
def rNzWinB (n : Nat) := pageBase 14 + 0x108 + 0x10 * n
def rNzCnt (h k : Nat) := pageBase 14 + 0x1000 + 0x100 * h + 0x10 + 8 * k
def rBootCtl := pageBase 15 + 0x08
def rBootPaddr := pageBase 15 + 0x18
def rBootPdata (k : Nat) := pageBase 15 + 0x40 + 8 * k
def rBootCnt := pageBase 15 + 0x80
def rLardCnt := pageBase 16 + 0x2008
def rSecCnt (k : Nat) := pageBase 17 + 0x10 + 8 * k
def rPairCfg := pageBase 18
def rPairFailcores := pageBase 18 + 0x08
def rPairFailstep := pageBase 18 + 0x10
def rPairMbase := pageBase 18 + 0x18
def rPairShbase (n : Nat) := pageBase 18 + 0x40 + 0x10 * n
def rPairShlen (n : Nat) := pageBase 18 + 0x48 + 0x10 * n
def rPairGen := pageBase 18 + 0x108
def rPairCnt (k : Nat) := pageBase 18 + 0x118 + 8 * k
def rPwrReqdom (k : Nat) := pageBase 19 + 0x08 + 8 * k
def rPwrRefuse := pageBase 19 + 0x30
def rPwrWake := pageBase 19 + 0x38
def rPwrRetcfg := pageBase 19 + 0x48
def rPwrCfg := pageBase 19 + 0x50
def rPwrCnt (k : Nat) := pageBase 19 + 0x58 + 8 * k
def monReg (m : Nat) (off : Nat) := pageBase 20 + 0x100 * m + off
def rMonCfg (m : Nat) := monReg m 0
def govReg (d : Nat) (off : Nat) := pageBase 20 + 0xE000 + 0x800 * d + off
def rGovCnt (d k : Nat) := govReg d (0x10 + 8 * k)
def rFltCtl := pageBase 21
def rFltCnt (k : Nat) := pageBase 21 + 0x10 + 8 * k
def rBistStat (c : Core) := pageBase 21 + 0x100 + 8 * c.val

/-- The value a stored register takes at reset (the reset lines of every register table); 0 where nothing is listed. -/
def regReset (a : Nat) : W64 :=
  if 0x70000000 ≤ a ∧ a < 0x70300000 then
    (match a % 0x10000 with
     | 0x10 => 0x1FFF
     | 0x58 => 0x9E3779B9
     | 0x60 => 0x200
     | _ => 0)
  else if pageBase 6 ≤ a ∧ a < pageBase 8 then (if a % 0x100 = 0 ∧ a % 0x10000 < 0x3000 then 0x3E8 else 0)
  else if a = rQcfg 0 then 0x0800200000020400
  else if a = rTbCfg then 0x000007D004E20000
  else if a = rNzCfg then 0x0A
  else if a = rBootCtl then 0x2710
  else if a = rPairGen then 0xFFFFFFFF00000000
  else if a = rPwrRetcfg then 0x1000
  else if a = rPwrCfg then 0x191F4190
  else if a = rFltCtl then 0xC8
  else 0

end Sys2Proof.Machine
end

