-- ==== Sys2Proof/Machine/StateCore.lean ====
section
/-! DEFINITION. The state of one core beside its registers: sequencer, arrays, feeders, belay contexts, sieve engine,
vector unit, stream engines, trickle path, dispatch and collective progress (chapters 04 to 13). -/
namespace Sys2Proof.Machine

/-- One cell of a stationary plane: up to two stationary values and their positions (R84, R86). -/
structure Cell where
  a  : Fv
  b  : Fv
  pa : Nat
  pb : Nat
deriving DecidableEq, Repr

/-- A cell with nothing loaded. -/
def Cell.zero : Cell := ⟨.fin false 0 0, .fin false 0 0, 0, 1⟩

/-- A stationary plane: its layout code of Table 4-1, the type of its content, whether it mixes integer and floating content, and
the cells, cell (r, c) at 64 r + c. -/
structure Plane where
  layout : Nat
  ty     : Option EType
  mixed  : Bool
  cells  : SMap Cell
deriving DecidableEq, Repr

def Plane.none : Plane := ⟨0, Option.none, false, []⟩

/-- A tile header as a consumer reads it (Table 3-1). -/
structure Hdr where
  format  : Nat
  ty      : Option EType
  gaxis   : Bool
  idxPol  : Bool
  rows    : Nat
  cols    : Nat
  nnz     : Nat
  uflags  : Nat
  payload : Nat
  words   : Nat
deriving DecidableEq, Repr

/-- An EMPTY tile. -/
def Hdr.empty : Hdr := ⟨0, none, false, false, 64, 64, 0, 0, 0, 0⟩

/-- A guard field of a step (Table 11-4, G). -/
structure Guard where
  rf   : Nat
  rge  : Bool
  rrel : Bool
  wf   : Nat
  wge  : Bool
deriving DecidableEq, Repr

def Guard.none : Guard := ⟨0, false, false, 0, false⟩

/-- One source tile of a load: its header, or the untiled operand and the tile's place in it, and the tensor exponent
(R342). -/
structure LoadSrc where
  hdr  : Hdr
  flat : Option (Desc × Nat × Nat)
  texp : Int
deriving DecidableEq, Repr

/-- An entry of an array's load queue (R101). `seq` is its place in program order. -/
structure LoadJob where
  seq      : Nat
  layout   : Nat
  srcs     : List LoadSrc
  guard    : Guard
  consumed : Bool
  busy     : Bool
  built    : Option (Plane × Plane)
deriving DecidableEq, Repr

/-- An entry of an array's step queue (Table 11-2). -/
inductive ArrKind
  | pass (mode : Nat) (next : Bool) (accm : Bool) (base v : Nat) (rowEn colEn : BitVec 64) (colDesc : Desc) (colRow : Nat)
      (texp : Int)
  | exportTile (tile : Nat) (add : Bool)
  | clear (row n : Nat)
  | save (tile n : Nat) (d : Desc)
  | restore (tile n : Nat) (d : Desc) (texp : Int)
deriving DecidableEq, Repr

/-- A queued array step with its place in program order, the settings at its decode (R53), its guard and, for a pass,
whether the array has accepted it (R94) and which load it consumes (R102). -/
structure ArrOp where
  seq      : Nat
  kind     : ArrKind
  nc       : NumCtl
  guard    : Guard
  accepted : Bool
  load     : Option Nat
deriving DecidableEq, Repr

/-- One MAC array (R84, R101 to R105). `loaded` is the completed load in the shadow plane that no NEXT pass has started
on, by its place in program order; `taken` says that an accepted NEXT pass has consumed it; `swap` a swap still to take
place (R103); `rejected` the passes refused before their feed ran (R126); `accInt` that the cell accumulators hold
INT32. -/
structure ArrSt where
  p0      : Plane
  p1      : Plane
  active  : Bool
  loaded  : Option Nat
  taken   : Bool
  fp32    : Bool
  swap    : Bool
  loadq   : List LoadJob
  opq     : List ArrOp
  rejected : List Nat
  acc     : SMap W32
  accInt  : Bool
  bistPending : Bool
  bistRunning : Bool
  bistSince   : Nat
deriving DecidableEq, Repr

def ArrSt.reset : ArrSt :=
  { p0 := .none, p1 := .none, active := false, loaded := none, taken := false, fp32 := false, swap := false, loadq := [],
    opq := [], rejected := [], acc := [], accInt := false, bistPending := false, bistRunning := false, bistSince := 0 }

/-- The vector source of a feed (Table 11-6, FEED). -/
inductive FeedSrc
  | desc (d : Desc) (row : Nat) (first : Nat) (texp : Int)
  | window (rec : BitVec 512) (first : Nat) (tap : Nat)
  | gather (g : Nat)
deriving DecidableEq, Repr

/-- A feed waiting at its feeder (R123, R128). -/
structure FeedJob where
  seq     : Nat
  members : Nat
  src     : FeedSrc
  v       : Nat
  guard   : Guard
deriving DecidableEq, Repr

/-- The states of a fill (R133). -/
inductive FillState | free | open | closed | issued
deriving DecidableEq, Repr

def FillState.code : FillState → Nat
  | .free => 0 | .open => 1 | .closed => 2 | .issued => 3

/-- One fill of a gathering context. -/
structure Fill where
  st       : FillState
  reserved : NSet
  present  : NSet
  due      : Nat
  closedAt : Nat
deriving DecidableEq, Repr

def Fill.free : Fill := ⟨.free, [], [], 0, 0⟩

/-- One gathering context: two fills and the order in which fills became ISSUED (R137). -/
structure FgCtx where
  f0    : Fill
  f1    : Fill
  order : List Nat
deriving DecidableEq, Repr

def FgCtx.reset : FgCtx := ⟨.free, .free, []⟩

/-- One belay context (R159 to R172): BELAY_STATn and the rows and credits it holds; `given` counts the credits a stage of another
device holds of it (R167). -/
structure BelayCtx where
  state    : Nat
  reason   : Nat
  rows     : Nat
  hops     : Nat
  failLink : Nat
  ctlA     : W64
  ctlB     : W64
  flag     : Option Nat
  wrap     : Bool
  seq      : Nat
  credits  : Nat
  bufs     : List BelayRow
  recvd    : Nat
  since    : Nat
  given    : Nat
deriving DecidableEq, Repr

def BelayCtx.reset : BelayCtx := ⟨0, 0, 0, 0, 0, 0, 0, none, false, 0, 0, [], 0, 0, 0⟩

/-- A row that a stage has sent and that its next stage has not yet received (R173): the sending stage as its receiver
names it, the core, array (kind 0) and device it goes to, and the row. -/
structure BelayMsg where
  src    : BelaySrc
  kind   : Nat
  toId   : Nat
  toCore : Nat
  toDev  : Nat
  row    : BelayRow
deriving DecidableEq, Repr

/-- A job of the sieve job queue (R184, R199). A dispatched tile comes with its header as the dispatcher read it; a SOP
step's tile is named by the address of its header pair. -/
inductive SieveKind
  | disp (w : StepWord) (ta tb : Desc) (xa xb xc xd : Nat) (ea eb : Int)
  | spmm (hdr : Option Hdr) (addr : Nat) (ea : Int) (panel : Desc) (eb : Int) (k0 m res : Nat) (transposed along turn : Bool)
  | sddmm (w : StepWord) (mask a b out : Desc) (em ea eb : Int) (xa xb : Nat)
  | spgemm (w : StepWord) (ta tb tc : Desc) (ea eb : Int) (xa xb : Nat)
  | intersect (ta tb : Desc) (ea eb : Int) (xa xb res : Nat)
  | sort (w : StepWord) (ta tc : Desc) (ea : Int) (xa xb len : Nat)
  | drain (res : Nat) (d : Desc) (row : Nat)
  | clear (res n : Nat)
deriving DecidableEq, Repr

/-- A queued sieve step. -/
structure SieveJob where
  seq   : Nat
  kind  : SieveKind
  nc    : NumCtl
  cut   : Nat
  guard : Guard
  fromDisp : Bool
deriving DecidableEq, Repr

/-- A dispatch step in progress (R180 to R184): the K tile and N block it reads next, the blocks that have had an array
pass, the members of the current round with their blocks and SET or ADD, how many array steps it has issued, and the next
block to look at once all tiles are routed. -/
structure DispSt where
  job    : SieveJob
  kb     : Nat
  b      : Nat
  had    : NSet
  round  : List (Nat × Nat × Bool)
  n      : Nat
  cb     : Nat
deriving DecidableEq, Repr

/-- A value waiting to be added into a result tile element: the order of these adds is not fixed (R196). -/
structure Addend where
  v     : Fv
  isInt : Bool
  wrap  : Bool
deriving DecidableEq, Repr

/-- A triple of the merge tree (R207). -/
structure Triple where
  line : Nat
  pos  : Nat
  val  : Fv
deriving DecidableEq, Repr

/-- A merge buffer: the output tile it belongs to, its triples, and how the compressor writes it (R207, R209). -/
structure MergeTile where
  i       : Nat
  j       : Nat
  triples : List Triple
  td      : Desc
  ety     : EType
  isInt   : Bool
  sr      : Bool
  target  : Bool
  pol     : Bool
  nc      : NumCtl
  cut     : Nat
deriving DecidableEq, Repr

/-- The sieve engine (R184, R195, R207). Result tile t element (r, c) is at 4096 t + 64 r + c: its value and the adds made
since. `routed` are dispatch steps whose tiles are all routed; `merge` are the tiles in the two merge buffers, `stalled` those whose
triples wait for one (R209); `merging` is the guard of the job whose output tiles these are. -/
structure SieveSt where
  jobs    : List SieveJob
  disp    : Option DispSt
  routed  : List SieveJob
  res     : SMap W32
  adds    : SMap (List Addend)
  merge   : List MergeTile
  stalled : List MergeTile
  merging : Option Guard
deriving DecidableEq, Repr

def SieveSt.reset : SieveSt := ⟨[], none, [], [], [], [], [], none⟩

/-- A queued vector step: its word, the operands it read at issue (R320) and the tensor exponents of ta, tb, tc, ta1, ta2,
tc1, tc2 (R342). -/
structure VecJob where
  seq   : Nat
  w     : StepWord
  ta    : Desc
  tb    : Desc
  tc    : Desc
  ta1   : Desc
  ta2   : Desc
  tc1   : Desc
  tc2   : Desc
  xa    : W64
  xb    : W64
  nc    : NumCtl
  cut   : Nat
  guard : Guard
  exps  : List Int
deriving DecidableEq, Repr

/-- An encoded tile in a tile buffer (R245): payload words, header, where they go and the flag the step names. -/
structure TileBuf where
  payload : List Byte
  payAddr : Nat
  hdr     : BitVec 256
  hdrAddr : Nat
  flag    : Option Nat
deriving DecidableEq, Repr

/-- The vector unit (R219, R245). Element j of Wn is at 64 n + j; `bufs` are the two tile buffers, `stalled` the tiles for which the
lanes wait. -/
structure VecSt where
  jobs : List VecJob
  w    : SMap W32
  bufs : List TileBuf
  stalled : List TileBuf
deriving DecidableEq, Repr

def VecSt.reset : VecSt := ⟨[], [], [], []⟩

/-- An address operand of a stream or a copy in force (R283). -/
structure StrOp where
  addr   : W64
  ety    : Nat
  layout : Nat
  tiled  : Bool
  xin    : Bool
  pitch  : Nat
  rw     : Nat
  strides : List Int
  hdr    : W64
  rowsN  : Nat
  colsN  : Nat
deriving DecidableEq, Repr

def StrOp.zero : StrOp := ⟨0, 0, 0, false, false, 0, 1, [0, 0, 0, 0, 0, 0], 0, 0, 0⟩

/-- Every field set by the words of a stream program (R283). -/
structure StrFields where
  src    : StrOp
  dst    : StrOp
  idx    : W64
  record : W64
  counts : List Nat
  idxOn  : Bool
  w64    : Bool
  mode   : Nat
  idxLev : Nat
  extent : Nat
  fill   : W32
  sr     : Bool
  target : Bool
  pol    : Bool
  gaxis  : Bool
  idxPol : Bool
  uflags : Nat
  extM1  : Nat
  wina   : Option W64
  winb   : Option W64
deriving DecidableEq, Repr

def StrFields.zero : StrFields :=
  ⟨.zero, .zero, 0, 0, [1, 1, 1, 1, 1, 1], false, false, 0, 0, 0, 0, false, false, false, false, false, 0, 0, none, none⟩

/-- A COPY step's own description (R281, R334). -/
structure CopyJob where
  src   : Desc
  dst   : Desc
  kind  : Nat
  perm  : Nat
  exts  : W64
  recEn : Bool
  record : W64
deriving DecidableEq, Repr

/-- A started stream (R279): the program address or the copy, tag, part mask, X registers and settings at decode. -/
structure StrJob where
  seq   : Nat
  prog  : W64
  copy  : Option CopyJob
  tag   : Nat
  mask  : W64
  xs    : Vector W64 32
  nc    : NumCtl
  cut   : Nat
  guard : Guard
  addr  : Nat
deriving DecidableEq, Repr

/-- The phases of a stream (Table 10-1). -/
inductive StrPhase | head | queued | run
deriving DecidableEq, Repr

/-- A word of another device or of the companion that a transfer has asked for: waiting, delivered, or failed with a
reason of Table 10-5; `bytes` is what a longer read has delivered. -/
inductive Got | waiting (since : Nat) (txid : Nat) | data (v : BitVec 512) | bytes (bs : List Byte) | failed (reason link : Nat)
deriving DecidableEq, Repr

/-- A write of a stream to another device or the companion: its number, its part, the device and the bytes it writes. -/
structure StrPend where
  key   : Nat
  part  : Nat
  dev   : Nat
  bytes : Nat
deriving DecidableEq, Repr

/-- The stream an engine runs. `held` counts the cycles it waited for admission (R302); `units` are the units of its
parts in part order (R305); `cache` and `reads` the words of
other devices or the companion that its GO has asked for and the part of each (64 for an index word), a pop of another device's queue
under a number of its own above 2^64; `sends` writes there
still to leave, `acks` those that have left with what became of them, and `pend` what each is for, each write under a number of its
own, the next of which is `nextKey`. -/
structure StrRun where
  job     : StrJob
  words   : List W64
  pc      : Nat
  phase   : StrPhase
  credits : Nat
  held    : Nat
  f       : StrFields
  units   : List Nat
  ok      : W64
  fail    : W64
  folded  : Bool
  bytes   : Nat
  drops   : Nat
  resume  : Option Nat
  reason  : Nat
  first   : Option Nat
  failDev : Nat
  failLink : Nat
  timedOut : Bool
  idxFail : Bool
  waitSince : Option Nat
  cache   : List (Nat × Got)
  reads   : List (Nat × Nat)
  acks    : List (Nat × Got)
  pend    : List StrPend
  sends   : List (Nat × Nat × List Byte)
  nextKey : Nat
deriving DecidableEq, Repr

/-- A stream that has been loaded. -/
def StrRun.new (job : StrJob) (words : List W64) (credits : Nat) : StrRun :=
  { job := job, words := words, pc := 0, phase := .head, credits := credits, held := 0, f := .zero, units := [], ok := 0, fail := 0,
    folded := false, bytes := 0, drops := 0, resume := none, reason := 0, first := none, failDev := 0, failLink := 0,
    timedOut := false, idxFail := false, waitSince := none, cache := [], reads := [], acks := [], pend := [], sends := [],
    nextKey := 0 }

/-- One stream engine (R279). -/
structure EngSt where
  q          : List StrJob
  cur        : Option StrRun
  tag        : Nat
  lastStatus : Nat
deriving DecidableEq, Repr

def EngSt.reset : EngSt := ⟨[], none, 0, 0⟩

/-- What a trickle transfer does when its bytes have moved. A PTEST makes one transfer for each header pair (R344): its predicate and
word, whether this is its last pair, the headers of the pairs before it and whether they all matched. -/
inductive TrkKind
  | plain
  | store (bytes : List Byte)
  | ptest (pd : Nat) (w : StepWord) (last : Bool) (hdrs : List Hdr) (ok : Bool)
deriving DecidableEq, Repr

/-- A transfer of the trickle path (R312). -/
structure TrkJob where
  seq   : Nat
  kind  : TrkKind
  src   : W64
  dst   : W64
  len   : Nat
  flag  : Option Nat
  guard : Guard
  got   : List (Nat × Got)
deriving DecidableEq, Repr

/-- Where a start request comes from (Table 23-7). -/
structure StartReq where
  addr : Nat
  arg  : W64
  seed : Option W32
deriving DecidableEq, Repr

/-- The states of the sequencer (SEQ_STAT). -/
inductive SeqState | idle | running | stalled | faulted
deriving DecidableEq, Repr

/-- A step stalled at issue: the word, why (SEQ_STAT.STALL), the flag it waits for and the pitch it stalled in. -/
structure Stall where
  w     : StepWord
  why   : Nat
  flag  : Nat
  since : Nat
deriving DecidableEq, Repr

/-- The sequencer: its state, registers and flags, the start requests that wait, the step that is stalled, the END that waits for the
recipe's steps (R337), the steps issued, whether the recipe was started by the topo, and the words of other devices or the companion
that a stalled step has asked for. -/
structure SeqSt where
  st     : SeqState
  x      : Vector W64 32
  t      : Vector Desc 16
  p      : BitVec 8
  l      : Vector W32 8
  f      : BitVec 64
  pc     : BitVec 20
  starts : List StartReq
  stall  : Option Stall
  ending : Option (Option Nat)
  issued : Nat
  topo   : Bool
  got    : List (Nat × Got)
deriving DecidableEq, Repr

def SeqSt.reset : SeqSt :=
  ⟨.idle, Vector.replicate 32 0, Vector.replicate 16 0, 0, Vector.replicate 8 0, 0, 0, [], none, none, 0, false, []⟩

/-- The state of a unit under CORE_EN (R353 to R356). -/
inductive UnitSt | enabled | draining | disabled
deriving DecidableEq, Repr

def UnitSt.code : UnitSt → Nat
  | .enabled => 0 | .draining => 1 | .disabled => 2

/-- A token dispatch of a source core (R375 to R380, R386): the pantry word of its record, its record, the pitch of COUNT, the
entries sent as entry number, packed expert map entry and j, the entries dropped, whether ROWS has run, the entries whose return
rows have come, and the pitch in which RETURN fired. -/
structure XdSrc where
  word    : Nat
  record  : BitVec 512
  pitch   : Nat
  rows    : List (Nat × Nat × Nat)
  dropped : List Nat
  sent    : Bool
  got     : List Nat
  ret     : Option Nat
deriving DecidableEq, Repr

/-- A receive slot (R379 to R385): the pitch of its COUNT phase, NSRC, the counts by source rank, their sum once it is final,
rows that have landed or been counted, the first offset not written, the places by offset, whether a dispatch uses the slot
(R387), and the source ranks whose failed hop has been reported. -/
structure XdRecv where
  pitch    : Nat
  nsrc     : Nat
  counts   : List (Nat × Nat)
  total    : Option Nat
  landed   : Nat
  dropFrom : Option Nat
  places   : List (Nat × Nat)
  busy     : Bool
  late     : List Nat
deriving DecidableEq, Repr

def XdRecv.none : XdRecv := ⟨0, 0, [], Option.none, 0, Option.none, [], false, []⟩

/-- One ring of a collective (R478 to R485): bytes received of the ring's steps, whether and why it failed with the device
and link to name, whether a notice for it has been sent or forwarded, and the time of its last flit. -/
structure CollRing where
  recvd   : Nat
  failed  : Bool
  reason  : Nat
  dev     : Nat
  link    : Nat
  noticed : Bool
  since   : Nat
deriving DecidableEq, Repr

/-- A write of OUT that is not acknowledged: its ring, address and bytes, and what has become of it once it has left. -/
structure CollPut where
  ring : Nat
  addr : Nat
  data : List Byte
  got  : Option Got
deriving DecidableEq, Repr

/-- A collective on a core (R478 to R486): its descriptor, the INT_WRAP setting and the flag of its entry, its rings, the input as it
stood at the start (R483), the bytes written to OUT, the pitch of its entry, whether IN is still being read, the words of other devices
or the companion that have been asked for, and its open writes of OUT. -/
structure CollSt where
  desc  : BitVec 1024
  wrap  : Bool
  flag  : Option Nat
  rings : List CollRing
  input : List Byte
  bytes : Nat
  pitch : Nat
  reading : Bool
  reads : List (Nat × Got)
  puts  : List CollPut
deriving DecidableEq, Repr

/-- A failed hop of a collective that has not begun here: a COLL_FAIL notice (R485), or for `own` a discard under R471 at this rank; its
TAG and pitch, the ring, the reason, and the device and link to name. -/
structure CollNotice where
  tag  : Nat
  pitch : Nat
  ring : Nat
  own  : Bool
  reason : Nat
  dev  : Nat
  link : Nat
deriving DecidableEq, Repr

/-- One core. Of token dispatch: the dispatches it is a source of, the pitch of its last RETURN phase, and its
receive slots. Of collectives: those in progress, those that have ended, and notices of those to come. -/
structure CoreSt where
  seq     : SeqSt
  unit    : Vector UnitSt 13
  arr     : Vector ArrSt 6
  feed    : Vector (List FeedJob) 6
  fg      : Vector FgCtx 16
  belay   : Vector BelayCtx 8
  sieve   : SieveSt
  vec     : VecSt
  valid   : NSet
  eng     : Vector EngSt 4
  admitq  : List Eng
  trk     : List TrkJob
  xsrc    : List XdSrc
  xret    : Option Nat
  xrecv   : Vector XdRecv 16
  coll    : List CollSt
  collDone : List CollSt
  notices : List CollNotice
deriving DecidableEq, Repr

def CoreSt.reset : CoreSt :=
  { seq := .reset, unit := Vector.replicate 13 .enabled, arr := Vector.replicate 6 .reset,
    feed := Vector.replicate 6 [], fg := Vector.replicate 16 .reset, belay := Vector.replicate 8 .reset,
    sieve := .reset, vec := .reset, valid := [], eng := Vector.replicate 4 .reset, admitq := [], trk := [],
    xsrc := [], xret := none, xrecv := Vector.replicate 16 .none, coll := [], collDone := [], notices := [] }

end Sys2Proof.Machine
end

