-- ==== Sys2Proof/Machine/StateDev.lean ====
section
/-! DEFINITION. The device-wide state beside the registers, block by block (chapters 14 to 23). -/
namespace Sys2Proof.Machine

/-- A cell of a queue's linked list (R419): its index in the die's pool, its link word and the complement stored with that. The
link word holds the index of the next cell in bits [15:0] and, in the first cell of a packet, the packet's length in bits
[28:16] (R421). -/
structure QCell where
  idx  : Nat
  link : BitVec 32
  comp : BitVec 32
deriving DecidableEq, Repr

/-- A packet of a queue (R419, R421, R423): its bytes, its cells, how many of them are written, its broken bit, the pool port its
producer has on its own die (64 times the die and the port), when its last cell so far was written, and whether a consumer has
begun to take it (R433). -/
structure QPkt where
  data    : List Byte
  cells   : List QCell
  written : Nat
  broken  : Bool
  prod    : Nat
  since   : W64
  begun   : Bool
deriving DecidableEq, Repr

/-- The count of cells that one side of a queue has written or released, the Gray-coded copy of it on the other side (R435), and
the changes that the other side has not seen yet: when each was made and what the count then was. -/
structure CellCount where
  own  : BitVec 17
  copy : BitVec 17
  hist : List (W64 × BitVec 17)
deriving DecidableEq, Repr

/-- One queue (QP_QSTATq). `lost` are the cells cut off by a bad link word until the next FLUSH (Table 23-1, class 3); `wr` counts
the cells written and `rl` those released; `looks` numbers the looks at a copy that lagged; `flush` says that a FLUSH waits for the
pop in progress (R428). -/
structure QueueSt where
  pkts    : List QPkt
  overrun : Bool
  lvlHit  : Bool
  lost    : List Nat
  wr      : CellCount
  rl      : CellCount
  looks   : Nat
  flush   : Bool
deriving DecidableEq, Repr

def CellCount.zero : CellCount := ⟨0, 0, []⟩
def QueueSt.empty : QueueSt := ⟨[], false, false, [], .zero, .zero, 0, false⟩

/-- Fault state: SEQ, HALT, FLT_HELD, the records held while domain 76 is off (R597), and the links and halves whose
recalibration is pending (FLT_CALSTAT, R621). -/
structure FltSt where
  seq   : W32
  halt  : Bool
  held  : List Byte
  wait  : List (List Byte)
  cal   : BitVec 26
deriving DecidableEq, Repr

def FltSt.reset : FltSt := ⟨0, false, [], [], 0⟩

/-- A window that a topo entry opened on a link (0 to 23) or half (24, 25), in ns from the start of the current pitch (R458, R469,
R621). For a calibration window `excl` says that it lasts at least 40 µs. `entry` and `born` name the entry and the pitch start that
opened it, by its number: the pieces that R458 leaves of one window share them. -/
structure TopoWin where
  on    : Nat
  cal   : Bool
  excl  : Bool
  lo    : Nat
  hi    : Nat
  entry : Nat
  born  : Nat
deriving DecidableEq, Repr

/-- The time base and the topo scanner (chapter 16). `starts` counts the pitch starts (R450), that of pitch 0 included, 0 before
ORIGIN; `st` is the state of Table 16-2; `value` a TB_TIMESET value that waits for a SYNC_IN edge; `applied` that it has been applied;
`offs` the offsets of successive exchanges, newest first; `bad` the exchanges since the last usable reply; `due` the due list of the
current pitch; `missed` that this pitch has reported a TOPO_MISS; `pulse` the second of the last SYNC_OUT pulse; `held` when HOLDOVER
was entered; `edge` how far the last SYNC_IN edge since then lay from a whole second. -/
structure TbSt where
  time    : W64
  pitch   : Nat
  starts  : Nat
  st      : Nat
  running : Bool
  depth   : Nat
  onAlt   : Bool
  offset  : W32
  value   : Option W64
  applied : Bool
  offs    : List Int
  bad     : Nat
  topoN   : Nat
  due     : List Nat
  missed  : Bool
  epochNext : Option W32
  wins    : List TopoWin
  pulse   : Option Nat
  asked   : Option W64
  held    : W64
  edge    : Option Nat
deriving DecidableEq, Repr

def TbSt.reset : TbSt :=
  { time := 0, pitch := 0, starts := 1, st := 0, running := false, depth := 0, onAlt := false, offset := 0, value := none,
    applied := false, offs := [], bad := 0, topoN := 0, due := [], missed := false, epochNext := none, wins := [], pulse := none,
    asked := none, held := 0, edge := none }

/-- A flit that waits to be sent: KIND, VC, SOP, EOP and the 244 bytes of its body (Table 17-2). -/
structure TxFlit where
  kind : Nat
  vc   : Nat
  sop  : Bool
  eop  : Bool
  body : List Byte
  pkt  : Option Pkt
deriving DecidableEq, Repr

/-- A flit that has been sent and not acknowledged (R463): its SEQ, the number of its record among all the link has closed, and the
flit. -/
structure SentFlit where
  seq  : Nat
  recNo : Nat
  flit : BitVec 2048
  pkt  : Option Pkt
deriving DecidableEq, Repr

/-- A Borvik link (chapter 17). `st` is the state of Table 17-7, entered at `since`; `tries` trainings in a row that ended in DOWN;
`recs` numbers the records closed; `again` counts the resends of this pitch; `resends` how often each record still in the replay
buffer has been resent, by its number (R464); `txKey` and `rxKey` key and salt of a session, `sig` the device's signature of its
KEYING (R487), `ends` the part of its transcript that names the two ends and `upward` that the device's own direction is "UP" (R549);
`rx` the flits of the record being received, `cut` the SEQs of those discarded under R471; `rxAck` the SEQ of the last flit whose
record verified; `ackAt` when the last ACK came, or the replay buffer last began to fill (R463); `lost` that flits are discarded until
a resend; `parts` the packet bytes collected on each VC; `back` the flits received on each credited VC whose credit has not been
returned (R468); `pairBad` that the check of R565 failed. -/
structure LinkSt where
  st      : Nat
  since   : W64
  x4      : Bool
  laneHi  : Bool
  half    : Bool
  peer    : BitVec 16
  reason  : Nat
  wakeDet : Bool
  tries   : Nat
  txq     : List TxFlit
  txSeq   : Nat
  txRec   : Nat
  recs    : Nat
  again   : Nat
  replay  : List SentFlit
  resends : SMap Nat
  credits : List Nat
  txKey   : List Byte
  rxKey   : List Byte
  sig     : List Byte
  ends    : List Byte
  upward  : Bool
  session : Nat
  rxSeq   : Nat
  rxAck   : Nat
  ackAt   : W64
  rxRec   : Nat
  rx      : List (BitVec 2048)
  cut     : List Nat
  lost    : Bool
  fails   : Nat
  parts   : SMap (List Byte)
  back    : List Nat
  pairBad : Bool
deriving DecidableEq, Repr

def LinkSt.reset : LinkSt :=
  { st := 0, since := 0, x4 := false, laneHi := false, half := false, peer := 0, reason := 0, wakeDet := false, tries := 0, txq := [], txSeq := 0,
    txRec := 0, recs := 0, again := 0, replay := [], resends := [], credits := [192, 192, 192, 192], txKey := [], rxKey := [], sig := [],
    ends := [], upward := false, session := 0, rxSeq := 0, rxAck := 1023, ackAt := 0, rxRec := 0, rx := [], cut := [], lost := false, fails := 0, parts := [],
    back := [0, 0, 0, 0], pairBad := false }

/-- Who waits for the answer to a packet: a stream's read or write, a trickle transfer's, a step's of the sequencer, a ring's of a
collective, or a weight load's. -/
inductive TxnWho
  | stream (c : Core) (e : Eng) (addr : Nat) (write : Bool)
  | trickle (c : Core) (addr : Nat) (write : Bool)
  | seq (c : Core) (addr : Nat) (write : Bool)
  | coll (c : Core) (tag : Nat) (addr : Nat) (write : Bool)
  | load (addr : Nat)
deriving DecidableEq, Repr

/-- An outstanding transaction (R472, R476). -/
structure Txn where
  txid : Nat
  dest : BitVec 16
  who  : TxnWho
deriving DecidableEq, Repr

/-- The links as a whole: packets that wait to be routed, packets that have arrived and are not yet acted on, collective packets that
came before their collective, the links on which the packets came that wait so (R468, R471), and outstanding transactions. -/
structure BvSt where
  links   : Vector LinkSt 24
  out     : List Pkt
  arrived : List Pkt
  early   : List Pkt
  via     : List (Nat × Pkt)
  txns    : List Txn
  routeRec : NSet
deriving DecidableEq, Repr

def BvSt.reset : BvSt := ⟨Vector.replicate 24 .reset, [], [], [], [], [], []⟩

/-- A Nimzen message (R495): OPCODE, NSLOT, TXID, ARG and the bytes of its data slots. -/
structure NzMsg where
  op   : Nat
  slots : Nat
  txid : Nat
  arg  : Nat
  data : List Byte
deriving DecidableEq, Repr

/-- Who accesses a line: RD_SHARED or RD_OWN of a half, another request of a half, a unit of a core by its number as a requester, a
packet of another device, a gather engine, basecamp in a resync (0 its reads, 1 writes that come), or a requester of a memory arbiter. -/
inductive NzWho
  | coherent (h : Half) (txid : BitVec 10) (own : Bool)
  | nc (h : Half) (txid : Nat)
  | unit (c : Core) (who : Nat)
  | pkt (src : BitVec 16) (txid : BitVec 10)
  | gather (h : Nat)
  | camp (n : Nat)
  | arbiter (m who : Nat)
deriving DecidableEq, Repr

/-- An access that keeps its place at the line it waits for (R401, R503, R506). -/
structure NzWait where
  who  : NzWho
  line : Nat
deriving DecidableEq, Repr

/-- An outstanding SNP_INV (R506, R509): its line, its half, its TXID, none while every number of the half is in use (R495), and when
it was sent. -/
structure NzSnoop where
  line  : Nat
  half  : Nat
  txid  : Option Nat
  since : Nat
deriving DecidableEq, Repr

/-- A request of the device that waits for the companion (R504, R505): a D_RD of the line at `line`, or a D_WR, of an access from
`addr`; `inv` that a C_INV has come meanwhile. A write of part of a line first reads the lines it fills in part: `data` are the bytes
to write, `need` the lines still to be read after this one, `have'` those read. -/
structure NzReq where
  txid : Nat
  addr : Nat
  line : Nat
  write : Bool
  who  : TxnWho
  inv  : Bool
  data : Option (List Byte)
  need : List Nat
  have' : List (Nat × BitVec 512)
deriving DecidableEq, Repr

/-- A read of a pop range that waits for a packet (R515): TXID, queue, bytes and when it began. -/
structure NzPop where
  txid  : Nat
  queue : Nat
  n     : Nat
  since : Nat
deriving DecidableEq, Repr

/-- A packet sent as an MSG and not answered (R517): its queue, bytes, LEVEL, and whether it waits to be sent again. -/
structure NzOut where
  txid  : Nat
  queue : Nat
  data  : List Byte
  level : Bool
  again : Bool
  since : Nat
deriving DecidableEq, Repr

/-- A half of the Nimzen link (chapter 18). `st` is the state of Table 17-7, entered at `since`; `out` are messages handed to the half
for sending, `slots` the data slots of messages whose headers have been sent, `ctl` CTRL bodies to be sent, `txRec` the record
counter, `last` the flits of the last record closed and `asks` how often it has been asked for again (R498); `sig` the device's
signature of its KEYING (R499); `rx` the flit bodies of the record being received and `lost` that the record is discarded to its end;
`open_` messages whose data slots have not all come; `pops` pop reads that wait for a packet; `cache` the copies of companion lines,
the most recently used first; the last three the pitch of the half's last NZ_BAD, NZ_DENY and class 8 record. -/
structure HalfSt where
  st     : Nat
  since  : W64
  x8     : Bool
  nrz    : Bool
  rxKey  : List Byte
  txKey  : List Byte
  sig    : List Byte
  rxRec  : Nat
  txRec  : Nat
  fails  : Nat
  rx     : List (BitVec 1888)
  lost   : Bool
  open_  : List NzMsg
  arrived : List NzMsg
  out    : List NzMsg
  slots  : List (List Byte)
  ctl    : List (List Byte)
  last   : List (BitVec 1888)
  asks   : Nat
  msgs   : List NzOut
  reqs   : List NzReq
  pops   : List NzPop
  cache  : List (Nat × BitVec 512)
  badRec : Option Nat
  denyRec : Option Nat
  cmpRec : Option Nat
deriving DecidableEq, Repr

def HalfSt.reset : HalfSt :=
  { st := 0, since := 0, x8 := false, nrz := false, rxKey := [], txKey := [], sig := [], rxRec := 0, txRec := 0, fails := 0, rx := [], lost := false, open_ := [],
    arrived := [], out := [], slots := [], ctl := [], last := [], asks := 0, msgs := [], reqs := [], pops := [], cache := [],
    badRec := none, denyRec := none, cmpRec := none }

/-- The Nimzen link (chapter 18): level crossings to be sent to the companion (R516), the halves, the directory (0 I; 1 to 3
S with the set of halves; 4 and 5 O by N0 and N1) by line number, outstanding snoops, the halves and TXIDs of those whose answer
is to be discarded (R508, R509), and the accesses that wait, in the order in which they came. -/
structure NzSt where
  levels : List Nat
  half   : Vector HalfSt 2
  dir    : SMap Nat
  snoops : List NzSnoop
  stale  : List (Nat × Nat)
  waits  : List NzWait
deriving DecidableEq, Repr

def NzSt.reset : NzSt := ⟨[], Vector.replicate 2 .reset, [], [], [], []⟩

/-- A flash command that runs (R534): its code, its address and the bytes that PROGRAM writes. -/
structure FlashRun where
  code : Nat
  addr : Nat
  data : List Byte
deriving DecidableEq, Repr

/-- Boot, flash and larder (chapter 19). `st` is STATE of BOOT_STAT; `phase` how far boot has come (0 held in reset, 1 waiting for the
HBM fill, 2 the image is being read, 3 weights are being loaded, 4 past it); `left` the slots still to try after the one in `slot`;
`failA`, `failB` their reasons; `cmd` a flash command that runs; `wantReset` that a reset waits for it (R536); `weights` the load
entries still to be made with their numbers; `got` the words of a COMPANION or PEER load that have been asked for (R526) and `since`
when the load began; `digests` the DIGEST fields of COMPANION and PEER entries that loaded; `image` the digest of the image read into
staging, `owner` that of its key and `next` its VERSION, as step 5 found them (R527); `len` the bytes of the image in staging; `lard`,
`lardC` the larder words with their complements, `wear` their wear, `lardq` writes waiting, the first in progress, those beyond eight
held at their writers (R538); `ownWas` words 1 to 8 as they stay in force after OWN_CLEAR until the next boot (R551). -/
structure BootSt where
  st       : Nat
  slot     : Nat
  failA    : Nat
  failB    : Nat
  wfail    : Bool
  version  : W32
  phase    : Nat
  left     : List Nat
  flash    : SMap Byte
  size     : Nat
  cmd      : Option FlashRun
  perr     : Bool
  vresult  : Nat
  wantReset : Bool
  weights  : List (Nat × List Byte)
  got      : List (Nat × Got)
  since    : W64
  digests  : List Byte
  next     : W32
  image    : List Byte
  owner    : List Byte
  len      : Nat
  menu     : List W64
  lard     : SMap W64
  lardC    : SMap W64
  wear     : SMap W32
  lardq    : List (Nat × W64)
  ownWas   : List W64
deriving DecidableEq, Repr

/-- Held in reset, with an erased flash of 64 MiB and an unwritten larder (DESIGN CHOICE: the board's and the owner's). -/
def BootSt.reset : BootSt :=
  { st := 0, slot := 0, failA := 0, failB := 0, wfail := false, version := 0, phase := 0, left := [], flash := [],
    size := 0x4000000, cmd := none, perr := false, vresult := 0, wantReset := false, weights := [], got := [], since := 0,
    digests := [], next := 0, image := [], owner := [], len := 0, menu := [], lard := [], lardC := [], wear := [], lardq := [],
    ownWas := [] }

/-- A security command that runs (R543, R544): its code, the path it came by, its ARG, the nonce it consumes and when it started. -/
structure SecRun where
  code  : Nat
  path  : SecPath
  arg   : Nat
  nonce : Option (BitVec 256)
  since : W64
deriving DecidableEq, Repr

/-- The enclave and what basecamp holds for it (chapter 20). `dead` is the state of a health test that failed at boot
step 2 (R548); `owned` OWNED; `debug` that debug is open; `nonce` the nonce held and `drawn` when it was drawn; `busy` the command that
runs. -/
structure SecSt where
  ident    : Bool
  pufFail  : Bool
  trngFail : Bool
  dead     : Bool
  owned    : Bool
  debug    : Bool
  pwFails  : Nat
  pwLock   : Bool
  nonce    : Option (BitVec 256)
  drawn    : W64
  busy     : Option SecRun
  lastCmd  : Nat
  result   : Nat
  buf      : SMap Byte
deriving DecidableEq, Repr

def SecSt.reset : SecSt :=
  { ident := false, pufFail := false, trngFail := false, dead := false, owned := false, debug := false, pwFails := 0,
    pwLock := false, nonce := none, drawn := 0, busy := none, lastCmd := 0, result := 0, buf := [] }

/-- Roped pairs (chapter 21). `st` is the state of Table 21-2; `heard` the heartbeat since the last HEART firing; `twinGen` the
SHARD_GEN of the twin's last heartbeat, `srcGen` that which it last sent in any message; `peerOk` that a peer passed R565; `twinSt`
its STATE; `ran` the pitch starts counted at RUN, or at enrolment; `asked` those at a detach request; `resync` 1 FULL as source, 2
FULL as receiver, 3 MIRROR; `todo` the transfers of a resync still to be sent, as source, destination and length; `twinEpoch` the
epoch of the source. -/
structure PairSt where
  st      : Nat
  misses  : Nat
  heard   : Bool
  twinGen : Option W32
  srcGen  : Option W32
  twinSt  : Option Nat
  peerOk  : Bool
  ran     : Nat
  resync  : Nat
  rejoin  : Option Nat
  release : Option Nat
  asked   : Option Nat
  twinEpoch : W64
  todo    : List (Nat × Nat × Nat)
deriving DecidableEq, Repr

def PairSt.reset : PairSt := ⟨0, 0, false, none, none, none, false, 0, 0, none, none, none, 0, []⟩

/-- A power-state request that is being entered (R579 to R585): where to, the domains it turns off or gates, SAVE, the wake
pitch, the phase (0 query, 1 save, 2 off steps, 3 regulators), the off steps still to make, and when it was taken. -/
structure PwrReq where
  goal  : Nat
  doms  : NSet
  save  : Bool
  wake  : Option Nat
  phase : Nat
  steps : List Nat
  since : W64
deriving DecidableEq, Repr

/-- A voltage request that waits for its regulator (R598, R599): the rail, the voltage in mV, whether it raises, and when it was made. -/
structure AvsReq where
  rail  : Nat
  mv    : Nat
  up    : Bool
  since : W64
deriving DecidableEq, Repr

/-- A wake in progress (R589): its step, the domains that take part and whether RESTORE is due. -/
structure PwrWake where
  step : Nat
  doms : NSet
  src  : W64
  restore : Bool
deriving DecidableEq, Repr

/-- Power control (chapter 22): state, domains off and gated, the request and the wake in progress, the latched wake as
source, link and half, the pitch of a timed wake, voltage requests waiting for a regulator,
the rails' voltages in mV, the operating point in force and one to come, PWR_EPOCH, domains left off under R600, domains
whose pads are held, whether a saved image of the pantries waits in HBM with the valid words of each core, THERMTRIP_N,
the domains that NAP turned off, those that BIVOUAC or WATCH turned off, the wake configuration read at commit, and when WATCH began
or last sampled (R578). -/
structure PwrSt where
  st      : Nat
  off     : NSet
  gated   : NSet
  req     : Option PwrReq
  wake    : Option PwrWake
  latched : Option (Nat × Nat × Nat)
  wakeAt  : Option Nat
  avs     : List AvsReq
  rails   : List Nat
  opNow   : Nat
  opNext  : Option Nat
  therm   : Bool
  epoch   : W32
  left    : NSet
  pads    : NSet
  saved   : Bool
  valid   : List (Nat × NSet)
  trip    : Bool
  slept   : NSet
  deep    : NSet
  wcfg    : List W64
  sampled : W64
deriving DecidableEq, Repr

def PwrSt.reset : PwrSt :=
  { st := 0, off := [], gated := [], req := none, wake := none, latched := none, wakeAt := none, avs := [],
    rails := [780, 780, 750, 750, 750, 750], opNow := 0, opNext := none, therm := false, epoch := 0, left := [], pads := [],
    saved := false, valid := [], trip := false, slept := [], deep := [], wcfg := [], sampled := 0 }

/-- A request of a gather engine that runs (R410 to R417): the request and what its run has found, to be reported at the
end. -/
structure NmgRun where
  req    : BitVec 512
  status : Nat
  reason : Nat
  first  : Nat
  failed : Nat
  drops  : Nat
deriving DecidableEq, Repr

/-- A word that a granted read returned: the requester, the address and the word or the reason of its failure (R398, R405). -/
structure MemAnswer where
  who  : BitVec 6
  addr : BitVec 48
  got  : Except Nat (BitVec 512)
deriving DecidableEq, Repr

/-- The memory tiers (chapter 14): fills complete, pending requests of each arbiter (HBM s at s, LPDDR channel c at 8 + c, mesh egress
of core c at 40 + c), the transfer that emergency work stopped in each pseudo-channel p (at p), channel c (at 256 + c) and mesh port of
core c (at 288 + c), the words that the last granted read of each arbiter returned, the gather engines, and the key pairs of the two
tiers, which basecamp holds (R418). -/
structure MemSt where
  hbmFilled : Bool
  lpFilled  : Bool
  trained   : Bool
  selfRef   : NSet
  reqs      : SMap (List MemReq)
  stopped   : SMap (Option MemReq)
  answers   : SMap (List MemAnswer)
  nmgq      : SMap (List (BitVec 512))
  nmgrun    : SMap (Option NmgRun)
  hbmKey    : List Byte
  lpKey     : List Byte
deriving DecidableEq, Repr

def MemSt.reset : MemSt := ⟨false, false, false, [], [], [], [], [], [], [], []⟩

/-- One capture of a monitor (R624): extremes, sample count and 32 bins. -/
structure Capture where
  mn    : W32
  mx    : W32
  count : W32
  bins  : List W32
deriving DecidableEq, Repr

/-- A cleared capture (R626). -/
def Capture.clear : Capture := ⟨0x7FFFFFFF, 0x80000000, 0, List.replicate 32 0⟩

/-- One monitor (R624, R625): the live capture, the capture of the last window, the number of windows and the pitch start from which
the current window counts. -/
structure MonSt where
  live    : Capture
  shown   : Capture
  windows : W32
  since   : Nat
deriving DecidableEq, Repr

def MonSt.reset : MonSt := ⟨.clear, .clear, 0, 0⟩

end Sys2Proof.Machine
end

