-- ==== Sys2Proof/Machine/State.lean ====
section
/-! DEFINITION. State: everything the spec gives the GLX48, as plain data, and the state after reset. -/
namespace Sys2Proof.Machine

structure State where
  pending : List Instr
  part    : Config.Part
  devId   : BitVec 16
  regs    : SMap W64
  inForce : SMap W64
  mem     : List Host.Cell
  ecc     : SMap Ecc
  cores   : Vector CoreSt 48
  queues  : SMap QueueSt
  wire    : List BelayMsg
  flt     : FltSt
  tb      : TbSt
  topo    : SMap (BitVec 1024)
  route   : SMap W32
  bv      : BvSt
  nz      : NzSt
  boot    : BootSt
  sec     : SecSt
  pair    : PairSt
  pwr     : PwrSt
  memc    : MemSt
  mons    : SMap MonSt
  govq    : SMap (List W64)
  free    : Nat
deriving DecidableEq, Repr

/-- The GLX48 in reset: every register at its reset value, nothing queued, no memory byte written, the image not read. The
part and the board's flash are DESIGN CHOICES; DEVID is sampled when reset is released (R21). -/
def State.reset : State :=
  { pending := [], part := .glx384, devId := 0, regs := [], inForce := [], mem := [], ecc := [], cores := Vector.replicate 48 .reset,
    queues := [], wire := [], flt := .reset, tb := .reset, topo := [], route := [], bv := .reset, nz := .reset,
    boot := .reset, sec := .reset, pair := .reset, pwr := .reset, memc := .reset, mons := [], govq := [], free := 0 }

/-- Why the block would stop: no rule of the spec stops the GLX48 as a whole (it reports faults as records and goes on), so
no meaning raises one. -/
inductive Fault
  /-- Raised by nothing: the type has a constructor so that it is a closed inductive. Safe. -/
  | none
deriving DecidableEq, Repr

/-- Why a command has no meaning. -/
inductive Refusal
  /-- A command whose meaning has not been written. Safe: nothing is claimed of it. -/
  | notModelled (mnemonic : String)
  /-- A step command whose word holds the opcode of another step: such a command is no command of its row. Raised by every
  step command. Safe: the same word is a command of the other row. -/
  | illFormed
deriving DecidableEq, Repr

end Sys2Proof.Machine
end

