-- ==== Sys2Proof/Machine/Ops.lean ====
section
/-! DEFINITION. The named operations over State: registers and counters, cores and units, memory, queues, slot flags and
fault records. Every meaning is written over these. -/
namespace Sys2Proof.Machine

/-! ### Registers and counters -/

/-- The stored value of a register. -/
def State.reg (s : State) (a : Nat) : W64 := s.regs.get regReset a

/-- The state with a register stored. -/
def State.setReg (s : State) (a : Nat) (v : W64) : State := { s with regs := s.regs.put regReset a v }

/-- A field of a stored register. -/
def State.rf (s : State) (a lo len : Nat) : Nat := fld (s.reg a) lo len

/-- Store one field of a register. -/
def State.setRf (s : State) (a lo len v : Nat) : State := s.setReg a (setFld (s.reg a) lo len v)

/-- A counter field after n more: it stays at 0xFFFF_FFFF once there (R54). -/
def satAdd32 (old n : Nat) : Nat := min 0xFFFFFFFF (old + n)

/-- Advance the low (hi = false) or high counter of a counter register (R54). -/
def State.bump (s : State) (a : Nat) (hi : Bool) (n : Nat) : State :=
  if n = 0 then s else
  let lo := if hi then 32 else 0
  s.setRf a lo 32 (satAdd32 (s.rf a lo 32) n)

/-- Advance a low counter. -/
def State.bumpLo (s : State) (a n : Nat) : State := s.bump a false n
/-- Advance a high counter. -/
def State.bumpHi (s : State) (a n : Nat) : State := s.bump a true n

/-- Draw a fresh index for a free value. -/
def State.tick (s : State) : State := { s with free := s.free + 1 }

/-! ### Cores and their units -/

/-- The state of core c. -/
def State.core (s : State) (c : Core) : CoreSt := s.cores.get c

/-- The state with core c replaced. -/
def State.setCore (s : State) (c : Core) (k : CoreSt) : State := { s with cores := s.cores.set c.val k c.isLt }

/-- The state with core c changed by f. -/
def State.onCore (s : State) (c : Core) (f : CoreSt → CoreSt) : State := s.setCore c (f (s.core c))

def CoreSt.getArr (k : CoreSt) (a : Arr) : ArrSt := k.arr.get a
def CoreSt.setArr (k : CoreSt) (a : Arr) (x : ArrSt) : CoreSt := { k with arr := k.arr.set a.val x a.isLt }
def CoreSt.getEng (k : CoreSt) (e : Eng) : EngSt := k.eng.get e
def CoreSt.setEng (k : CoreSt) (e : Eng) (x : EngSt) : CoreSt := { k with eng := k.eng.set e.val x e.isLt }
def CoreSt.getFeed (k : CoreSt) (f : Arr) : List FeedJob := k.feed.get f
def CoreSt.setFeed (k : CoreSt) (f : Arr) (x : List FeedJob) : CoreSt := { k with feed := k.feed.set f.val x f.isLt }
def CoreSt.getFg (k : CoreSt) (g : Ctx) : FgCtx := k.fg.get g
def CoreSt.setFg (k : CoreSt) (g : Ctx) (x : FgCtx) : CoreSt := { k with fg := k.fg.set g.val x g.isLt }
def CoreSt.getBelay (k : CoreSt) (n : Fin 8) : BelayCtx := k.belay.get n
def CoreSt.setBelay (k : CoreSt) (n : Fin 8) (x : BelayCtx) : CoreSt := { k with belay := k.belay.set n.val x n.isLt }
def CoreSt.getUnit (k : CoreSt) (u : Fin 13) : UnitSt := k.unit.get u
def CoreSt.setUnit (k : CoreSt) (u : Fin 13) (x : UnitSt) : CoreSt := { k with unit := k.unit.set u.val x u.isLt }
def CoreSt.getXr (k : CoreSt) (g : Ctx) : XdRecv := k.xrecv.get g
def CoreSt.setXr (k : CoreSt) (g : Ctx) (x : XdRecv) : CoreSt := { k with xrecv := k.xrecv.set g.val x g.isLt }

def State.arr (s : State) (c : Core) (a : Arr) : ArrSt := (s.core c).getArr a
def State.setArr (s : State) (c : Core) (a : Arr) (x : ArrSt) : State := s.onCore c (fun k => k.setArr a x)
def State.seq (s : State) (c : Core) : SeqSt := (s.core c).seq
def State.setSeq (s : State) (c : Core) (q : SeqSt) : State := s.onCore c (fun k => { k with seq := q })
def State.onSeq (s : State) (c : Core) (f : SeqSt → SeqSt) : State := s.setSeq c (f (s.seq c))
def State.eng (s : State) (c : Core) (e : Eng) : EngSt := (s.core c).getEng e
def State.setEng (s : State) (c : Core) (e : Eng) (x : EngSt) : State := s.onCore c (fun k => k.setEng e x)
def State.sieve (s : State) (c : Core) : SieveSt := (s.core c).sieve
def State.setSieve (s : State) (c : Core) (x : SieveSt) : State := s.onCore c (fun k => { k with sieve := x })
def State.vec (s : State) (c : Core) : VecSt := (s.core c).vec
def State.setVec (s : State) (c : Core) (x : VecSt) : State := s.onCore c (fun k => { k with vec := x })
def State.belay (s : State) (c : Core) (n : Fin 8) : BelayCtx := (s.core c).getBelay n
def State.setBelay (s : State) (c : Core) (n : Fin 8) (x : BelayCtx) : State := s.onCore c (fun k => k.setBelay n x)
def State.fg (s : State) (c : Core) (g : Ctx) : FgCtx := (s.core c).getFg g
def State.setFg (s : State) (c : Core) (g : Ctx) (x : FgCtx) : State := s.onCore c (fun k => k.setFg g x)

/-- The solo cores (Table 5-1). -/
def isSolo (c : Core) : Bool := c.val == 0 || c.val == 23 || c.val == 24 || c.val == 47

/-- A core number from a field, where it names a core. -/
def coreOf? (n : Nat) : Option Core := if h : n < 48 then some ⟨n, h⟩ else none
/-- An array number from a field, where it names an array. -/
def arrOf? (n : Nat) : Option Arr := if h : n < 6 then some ⟨n, h⟩ else none

/-- Scalar register read and write. -/
def SeqSt.getX (q : SeqSt) (i : Nat) : W64 := nth 0 i q.x.toList
def SeqSt.setX (q : SeqSt) (i : Nat) (v : W64) : SeqSt := { q with x := q.x.setIfInBounds i v }
def SeqSt.getT (q : SeqSt) (i : Nat) : Desc := nth 0 (i % 16) q.t.toList
def SeqSt.setT (q : SeqSt) (i : Nat) (v : Desc) : SeqSt := { q with t := q.t.setIfInBounds (i % 16) v }
def SeqSt.getP (q : SeqSt) (i : Nat) : Bool := q.p.getLsbD i
def SeqSt.setP (q : SeqSt) (i : Nat) (b : Bool) : SeqSt := { q with p := setFld q.p i 1 (b2n b) }
def SeqSt.getL (q : SeqSt) (i : Nat) : W32 := nth 0 i q.l.toList
def SeqSt.setL (q : SeqSt) (i : Nat) (v : W32) : SeqSt := { q with l := q.l.setIfInBounds i v }

/-- Slot flag i FULL? -/
def State.flag (s : State) (c : Core) (i : Nat) : Bool := (s.seq c).f.getLsbD i
/-- Set slot flag i (R346 to R349). -/
def State.setFlag (s : State) (c : Core) (i : Nat) (full : Bool) : State :=
  s.onSeq c (fun q => { q with f := setFld q.f i 1 (b2n full) })

/-- CORE_NUMCTL as it stands (R53). -/
def State.numctl (s : State) (c : Core) : NumCtl := .ofReg (s.reg (rNumctl c))
/-- DENSE_CUT as it stands (R83). -/
def State.denseCut (s : State) (c : Core) : Nat := s.rf (rTilectl c) 0 13
/-- Advance the number counters of a core (R38, R46). -/
def State.countNum (s : State) (c : Core) (n : NumCnt) : State :=
  ((s.bumpLo (rNumcnt0 c) n.sat).bumpHi (rNumcnt0 c) n.cvtSat).bumpLo (rNumcnt1 c) n.nanCvt
/-- The random generator of a core (R43). -/
def State.gen (s : State) (c : Core) : W32 := BitVec.ofNat 32 (s.rf (rSrstate c) 0 32)
def State.setGen (s : State) (c : Core) (g : W32) : State := s.setRf (rSrstate c) 0 32 g.toNat

/-! ### Memory: one byte store under the local address (R639), bytes that nothing wrote read 0 -/

/-- What an unlisted byte reads as: memory is zero filled (R401), an invalid pantry word reads zero (R277). -/
def memDefault (_ : Nat) : Byte := 0
/-- One byte. -/
def Memory.get (m : List Host.Cell) (a : Nat) : Byte := SMap.get memDefault a m
/-- Store one byte, in canonical form. -/
def Memory.put (m : List Host.Cell) (a : Nat) (v : Byte) : List Host.Cell := SMap.put memDefault a v m
/-- The canonical form. -/
def Memory.wf (m : List Host.Cell) : Bool := SMap.wf memDefault m
/-- n bytes from a upward. -/
def Memory.read (m : List Host.Cell) (a : Nat) : Nat → List Byte
  | 0 => []
  | n + 1 => Memory.get m a :: Memory.read m (a + 1) n
/-- Store bytes from a upward. -/
def Memory.write (m : List Host.Cell) (a : Nat) : List Byte → List Host.Cell
  | [] => m
  | b :: bs => Memory.write (Memory.put m a b) (a + 1) bs

/-- Make n bytes from a what an unlisted byte reads as. -/
def Memory.clear (m : List Host.Cell) (a n : Nat) : List Host.Cell := m.filter (fun e => !(decide (a ≤ e.1) && decide (e.1 < a + n)))
/-- Copy n bytes from a to b; the two do not overlap. -/
def Memory.copy (m : List Host.Cell) (a b n : Nat) : List Host.Cell :=
  (m.filter (fun e => decide (a ≤ e.1) && decide (e.1 < a + n))).foldl (fun m e => Memory.put m (b + (e.1 - a)) e.2) (Memory.clear m b n)

/-- Bytes of local memory. -/
def State.rdBytes (s : State) (a n : Nat) : List Byte := Memory.read s.mem a n
/-- Store bytes of local memory. -/
def State.wrBytes (s : State) (a : Nat) (bs : List Byte) : State := { s with mem := Memory.write s.mem a bs }

/-- The pantry core and word number of a local address (R249). -/
def pantryOf (a : Nat) : Option (Core × Nat) :=
  if h : a / 0x1000000 < 48 then some (⟨a / 0x1000000, h⟩, (a % 0x1000000) / 64) else none

/-- The base of core c's pantry window. -/
def pantryBase (c : Core) : Nat := c.val * 0x1000000
/-- The address of element j of row r of the accumulator store of array a of core c (R156). -/
def accAddr (c : Core) (a : Nat) (r j : Nat) : Nat := 0x40000000 + c.val * 0x200000 + a * 0x40000 + r * 256 + 4 * j

/-- Is a local address in register space (Table 25-1)? -/
def inRegs (a : Nat) : Bool := (decide (0x70000000 ≤ a) && decide (a < 0x70300000)) || (decide (0x78000000 ≤ a) && decide (a < 0x78160000))
/-- The core of an accumulator window address, and the offset in its window (R156). -/
def accWindow (a : Nat) : Option (Core × Nat) :=
  if a < 0x40000000 then none else
  match coreOf? ((a - 0x40000000) / 0x200000) with
  | some c => some (c, (a - 0x40000000) % 0x200000)
  | none => none

/-- An accumulator element. -/
def State.acc (s : State) (c : Core) (a : Arr) (r j : Nat) : W32 := BitVec.ofNat 32 (natOf (s.rdBytes (accAddr c a.val r j) 4))
/-- Write an accumulator element. -/
def State.setAcc (s : State) (c : Core) (a : Arr) (r j : Nat) (v : W32) : State :=
  let s := s.wrBytes (accAddr c a.val r j) (bytesOf 4 v.toNat)
  { s with ecc := s.ecc.filter (fun e => e.1 != accAddr c a.val r j) }

/-- Is pantry word w of core c valid (R276)? -/
def State.wordValid (s : State) (c : Core) (w : Nat) : Bool := NSet.has w (s.core c).valid

/-- Mark the words that n bytes from local address a touch as valid (R276). -/
def State.markValid (s : State) (a n : Nat) : State :=
  match pantryOf a with
  | none => s
  | some (c, w) =>
    if n = 0 then s else
    let k := ((a % 64) + n - 1) / 64 + 1
    s.onCore c (fun x => { x with valid := (rangeFrom w k).foldl (fun v i => NSet.add (i % 262144) v) x.valid })

/-- Bytes of an invalid word are zero: make them so before a partial write merges into it (R258, R277). -/
def State.mergeBase (s : State) (a n : Nat) : State :=
  match pantryOf a with
  | none => s
  | some (c, w) =>
    if n = 0 then s else
    let k := ((a % 64) + n - 1) / 64 + 1
    (rangeFrom w k).foldl (fun s i =>
      if s.wordValid c i then s else s.wrBytes (pantryBase c + 64 * i) (padTo 64 [])) s

/-- What the SECDED check of a read of the protected unit at a local address finds: a 64 B word, or an element of an accumulator
store (R250, R611). An error stands until its unit is written (R397, R612). -/
def State.eccOf (s : State) (a : Nat) : Ecc := s.ecc.get (fun _ => .ok) a
/-- The protected unit that holds a local address (Table 23-3). -/
def eccUnit (a : Nat) : Nat := if (accWindow a).isSome then a / 4 * 4 else a / 64 * 64
/-- An error strikes the protected unit that holds a local address: one bit is corrected, a second is not (R612, R613). -/
def State.strike (s : State) (a : Nat) (e : Ecc) : State :=
  if e = .ok ∨ s.eccOf (eccUnit a) = .uncorrectable then s else { s with ecc := s.ecc.put (fun _ => .ok) (eccUnit a) e }
/-- A write of n bytes from a stores its units with fresh check bits. -/
def State.freshEcc (s : State) (a n : Nat) : State :=
  { s with ecc := s.ecc.filter (fun e => !(decide (a / 64 ≤ e.1 / 64) && decide (64 * (e.1 / 64) < a + n))) }

/-- Write bytes to local memory as a unit or the mesh does: a word of a pantry is made valid, its other bytes kept
(R258, R276). -/
def State.wrLocal (s : State) (a : Nat) (bs : List Byte) : State :=
  (((s.mergeBase a bs.length).wrBytes a bs).markValid a bs.length).freshEcc a bs.length

/-- The 64 bytes of the word at local byte address a: an invalid pantry word reads zero (R277). -/
def State.wordAt (s : State) (a : Nat) : Nat :=
  let a := a / 64 * 64
  match pantryOf a with
  | none => natOf (s.rdBytes a 64)
  | some (c, w) => if s.wordValid c w then natOf (s.rdBytes a 64) else 0

/-- Is the address on this device (R20, R638)? -/
def State.isLocal (s : State) (a : W64) : Bool := fld a 48 16 == s.devId.toNat
/-- The local part of an address (R637). -/
def localOf (a : Nat) : Nat := a % 2 ^ 48
/-- Does the whole address lie in core c's own pantry (R638)? -/
def State.inOwnPantry (s : State) (c : Core) (a n : Nat) : Bool :=
  a / 2 ^ 48 == s.devId.toNat && decide (pantryBase c ≤ localOf a) && decide (localOf a + n ≤ pantryBase c + 0x1000000)
/-- Does the whole address lie in core c's own accumulator window? -/
def State.inOwnAcc (s : State) (c : Core) (a : Nat) : Bool :=
  a / 2 ^ 48 == s.devId.toNat && decide (localOf a / 0x200000 = 0x200 + c.val)
/-- Full address of a local address of this device. -/
def State.full (s : State) (a : Nat) : W64 := BitVec.ofNat 64 (s.devId.toNat * 2 ^ 48 + a)

/-- The word a unit reads at a full address: local memory, or a free value where the word belongs to another device or
to the companion, whose memory this model does not hold. -/
def State.unitWord (s : State) (a : Nat) : Nat :=
  if a / 2 ^ 48 % 65536 == s.devId.toNat && decide (localOf a < 2 ^ 47) then s.wordAt (localOf a)
  else (Config.remoteWord s.free (BitVec.ofNat 64 (a / 64 * 64))).toNat

/-- Count a word that was read where it was invalid, in the pantry that holds it (R277). -/
def State.noteStale (s : State) (a : Nat) : State :=
  if a / 2 ^ 48 % 65536 == s.devId.toNat then
    match pantryOf (localOf a) with
    | some (c, w) => if s.wordValid c w then s else s.bumpLo (rPanCnt c 0) 1
    | none => s
  else s

/-- Count the words of a read that were invalid (R277). -/
def State.countStale (s : State) (addrs : List Nat) : State := addrs.foldl State.noteStale s

/-- The 64 B words that n bytes from a touch, as address and length; `k` is at least their number. -/
def wordPieces : Nat → Nat → Nat → List (Nat × Nat)
  | 0, _, _ => []
  | k + 1, a, n =>
    if n = 0 then [] else
    let m := min n (64 - a % 64)
    (a, m) :: wordPieces k (a + m) (n - m)
def piecesOf (a n : Nat) : List (Nat × Nat) := wordPieces (n / 64 + 2) a n

/-- Elements of a packed run at a word address function: element j of a run of type t (R26). -/
def elemAt (rd : Nat → Nat) (t : Code) (base j : Nat) : Nat :=
  slot (rd (base + 64 * (j / t.perWord))) t.width (j % t.perWord)

/-- What a command answers while the device runs: after a thermal trip every clock but the basecamp oscillator has stopped and
nothing happens (R673). -/
def State.live (s : State) (o : Host.Outcome State Fault Refusal) : Host.Outcome State Fault Refusal :=
  if s.pwr.trip then .next s else o

/-! ### Power domains of units (Table 25-3) -/

/-- Has domain d power? Basecamp (no number) always has. -/
def State.powered (s : State) (d : Nat) : Bool := !(NSet.has d s.pwr.off)
/-- Is domain d entering a sleep: committed to turning off (R582)? -/
def State.entering (s : State) (d : Nat) : Bool := match s.pwr.req with
  | some r => decide (1 ≤ r.phase) && decide (2 ≤ r.goal) && NSet.has d r.doms
  | none => false
/-- Is domain d returning, its state of Table 22-8 not yet applied (R584)? -/
def State.returning (s : State) (d : Nat) : Bool := match s.pwr.wake with
  | some w => NSet.has d w.doms && decide (d < 48)
  | none => false
/-- May domain d take new work? -/
def State.domOn (s : State) (d : Nat) : Bool := s.powered d && !(s.entering d) && !(s.returning d)
/-- Is core c's domain on? -/
def State.coreOn (s : State) (c : Core) : Bool := s.domOn c.val

/-- A register access of domain d: not performed, and counted, while the domain is off (R646). -/
def State.ifOn (s : State) (d : Nat) (f : State → State) : State := if s.powered d then f s else s.bumpLo rMapcnt1 1

/-! ### The queue pool (chapter 15) -/

/-- A queue. -/
def State.queue (s : State) (q : Nat) : QueueSt := s.queues.get (fun _ => .empty) q
def State.setQueue (s : State) (q : Nat) (x : QueueSt) : State := { s with queues := s.queues.put (fun _ => .empty) q x }
/-- The die of a queue (R419). -/
def dieOf (q : Nat) : Nat := q / 1024
/-- Cells of a packet of n bytes (R421). -/
def cellsOf (n : Nat) : Nat := ceilDiv n 64
/-- Cells a queue holds. -/
def QueueSt.cells (x : QueueSt) : Nat := x.lost.length + (x.pkts.map (fun p => p.cells.length)).foldl (· + ·) 0
/-- A cell with its link word and the complement of that (R419, R421). -/
def mkCell (idx next len : Nat) : QCell :=
  let w := BitVec.ofNat 32 (next % 65536 + 65536 * len)
  ⟨idx, w, ~~~w⟩
/-- Does a link word match its complement? -/
def QCell.ok (c : QCell) : Bool := c.comp == ~~~c.link
/-- The cells of a packet of len bytes: each names the next, and the first the length. The last names itself until a packet follows
(DESIGN CHOICE: the spec gives the end of the list no form). -/
def linkCells (len : Nat) (l : List Nat) : List QCell :=
  ((l.zip (l.drop 1 ++ l.getLast?.toList)).zipIdx).map (fun p => mkCell p.1.1 p.1.2 (if p.2 = 0 then len else 0))
/-- The last cell of a list names the cell that now follows. -/
def relink (next : Nat) : List QCell → List QCell
  | [] => []
  | [c] => [mkCell c.idx next (c.link.toNat / 65536)]
  | c :: cs => c :: relink next cs
/-- The last packet of a queue names the first cell of the one that follows. -/
def relinkLast (next : Nat) : List QPkt → List QPkt
  | [] => []
  | [p] => [{ p with cells := relink next p.cells }]
  | p :: ps => p :: relinkLast next ps
/-- The Gray code of a count, and the count of a Gray code (R435). -/
def gray (n : BitVec 17) : BitVec 17 := n ^^^ (n >>> 1)
def ungray (g : BitVec 17) : BitVec 17 :=
  let g := g ^^^ (g >>> 1)
  let g := g ^^^ (g >>> 2)
  let g := g ^^^ (g >>> 4)
  let g := g ^^^ (g >>> 8)
  g ^^^ (g >>> 16)
/-- By how many cells the other side's view lags (R435). -/
def CellCount.lag (x : CellCount) : Nat := (x.own - ungray x.copy).toNat
/-- A side counts n cells. -/
def CellCount.add (x : CellCount) (n : Nat) (now : W64) : CellCount :=
  if n = 0 then x else { x with own := x.own + BitVec.ofNat 17 n, hist := x.hist ++ [(now, x.own + BitVec.ofNat 17 n)] }
/-- The ns of GLOBAL_TIME after which a side in the clock of a code of Table 15-1 has seen a change: 3 cycles at 1.6 or 2.5 GHz end
before the third ns after the one in which it was made. -/
def lagBound (code : Nat) : Nat := if code < 2 then 3 else Config.lagNs code
/-- The most that can still be unseen: what was counted less than three cycles of the looking side's clock ago (R435). -/
def CellCount.fresh (x : CellCount) (now : W64) (w : Nat) : Nat :=
  match (x.hist.filter (fun p => decide (p.1.toNat + w ≤ now.toNat))).getLast? with
  | some p => min x.lag (x.own - p.2).toNat
  | none => x.lag
/-- The other side looks: of what it may not have seen yet any part may remain unseen. -/
def CellCount.look (x : CellCount) (now : W64) (w left : Nat) : CellCount :=
  let l := min (x.fresh now w) left
  { x with copy := gray (x.own - BitVec.ofNat 17 l), hist := x.hist.filter (fun p => decide ((x.own - p.2).toNat < l)) }
/-- The producer side of a queue, in the clock of PDOM, looks at the cells released. -/
def State.lookFreed (s : State) (q : Nat) : State :=
  let x := s.queue q
  if x.rl.lag = 0 then s
  else s.setQueue q { x with rl := x.rl.look s.tb.time (lagBound (s.rf (rQcfg q) 41 2)) (Config.viewLag q x.looks), looks := x.looks + 1 }
/-- The consumer side of a queue, in the clock of CDOM, looks at the cells written. -/
def State.lookWritten (s : State) (q : Nat) : State :=
  let x := s.queue q
  if x.wr.lag = 0 then s
  else s.setQueue q { x with wr := x.wr.look s.tb.time (lagBound (s.rf (rQcfg q) 43 2)) (Config.viewLag q x.looks), looks := x.looks + 1 }
/-- Cells on a die's free list (R419). -/
def State.freeCells (s : State) (d : Nat) : Nat :=
  65536 - (s.queues.map (fun p => if dieOf p.1 = d then p.2.cells else 0)).foldl (· + ·) 0

/-- The cells of a die's pool that queues hold. -/
def State.usedCells (s : State) (d : Nat) : List Nat :=
  s.queues.flatMap (fun p => if dieOf p.1 = d then p.2.lost ++ p.2.pkts.flatMap (fun k => k.cells.map (·.idx)) else [])
/-- n cells off a die's free list: those of the lowest index (DESIGN CHOICE: the spec gives the free list no order). -/
def State.takeFree (s : State) (d n : Nat) : List Nat :=
  let used := s.usedCells d
  ((List.range (used.length + n)).filter (fun i => !(used.contains i))).take n

/-- What a level crossing does (R437): occupancy was `was` and is now what the queue holds. -/
def State.levelCheck (s : State) (q was : Nat) : State :=
  let lev := s.rf (rQcfg q) 17 17
  let now := (s.queue q).cells
  if lev ≠ 0 ∧ was < lev ∧ lev ≤ now then
    let s := s.setQueue q { s.queue q with lvlHit := true }
    match s.rf (rQcfg q) 45 2 with
    | 1 => { s with nz := { s.nz with levels := s.nz.levels ++ [q] } }
    | 2 => (match coreOf? (s.rf (rQcfg q) 47 6) with
            | some c => s.setFlag c (s.rf (rQcfg q) 53 6) true
            | none => s)
    | _ => s
  else s

/-- Is a packet of n bytes admitted to queue q (R425, R428)? The producer side may still count cells that have been released
(R436). -/
def State.admits (s : State) (q n : Nat) : Bool :=
  bitOf (s.reg (rQcfg q)) 59 && decide ((s.queue q).cells + (s.queue q).rl.lag + cellsOf n ≤ s.rf (rQcfg q) 0 17)
    && decide (cellsOf n ≤ s.freeCells (dieOf q))

/-- Ignore a packet (R426). -/
def State.ignorePkt (s : State) (q : Nat) : State :=
  (s.setQueue q { s.queue q with overrun := true }).bumpLo (rQpCnt (dieOf q) 0) 1

/-- Have all cells of a packet been written? -/
def QPkt.whole (p : QPkt) : Bool := p.written == p.cells.length
/-- Has a packet become visible to consumers under threshold CUT (R429, R433)? -/
def QPkt.visible (p : QPkt) (cut : Nat) : Bool :=
  p.whole || (cut != 0 && decide (cut < p.cells.length) && decide (cut ≤ p.written))
/-- Do all its link words match their complements? -/
def QPkt.linked (p : QPkt) : Bool := p.cells.all (·.ok)
/-- CUT of a queue. -/
def State.qCut (s : State) (q : Nat) : Nat := s.rf (rQcfg q) 34 7

/-- Cells of the oldest packet that the consumer side sees written: cells are counted in the order of the packets (DEDUCED), and
the last `wr.lag` of them are not seen yet (R435, R436). -/
def QueueSt.headSeen (x : QueueSt) : Nat := ((x.pkts.map (·.written)).sum) - x.wr.lag
/-- The oldest packet of a queue, where the consumer side sees it visible or has begun it. -/
def State.qHead (s : State) (q : Nat) : Option QPkt :=
  match (s.queue q).pkts with
  | p :: _ => if p.begun || ({ p with written := min p.written (s.queue q).headSeen } : QPkt).visible (s.qCut q) then some p else none
  | [] => none

/-- The oldest packet leaves its queue (R429, R430): its cells are released, those of the whole queue where a FLUSH waited for this
pop (R428); a limit below its length counts. -/
def State.dropHead (s : State) (q limit : Nat) (p : QPkt) : State :=
  let x := s.queue q
  let n := if x.flush then x.cells else p.cells.length
  let s := s.setQueue q { x with pkts := if x.flush then [] else x.pkts.drop 1, lost := if x.flush then [] else x.lost, flush := false
                                 rl := x.rl.add n s.tb.time }
  if limit < p.data.length then s.bumpHi (rQpCnt (dieOf q) 0) 1 else s

/-- The oldest companion read that waits for a packet of a queue, with its half (R515). -/
def State.firstPop (s : State) (q : Nat) : Option (Half × NzPop) :=
  ((List.finRange 2).flatMap (fun h => ((s.nz.half.get h).pops.filter (fun p => p.queue == q)).map (fun p => (h, p)))).foldl
    (fun b x => match b with
      | some y => if x.2.since < y.2.since then some x else some y
      | none => some x) none
/-- A companion read takes the packet that has become visible: DATA_NC answers it. -/
def State.servePop (s : State) (q : Nat) (h : Half) (r : NzPop) (p : QPkt) : State :=
  let s := s.dropHead q r.n p
  let x := s.nz.half.get h
  { s with nz := { s.nz with half := s.nz.half.set h.val { x with pops := x.pops.erase r
                                                                  out := x.out ++ [⟨0x11, ceilDiv r.n 64, r.txid, 2, padTo r.n (p.data.take r.n)⟩] } h.isLt } }
/-- Reads that wait are served as long as packets are visible. -/
def State.servePops (s : State) (q : Nat) : Nat → State
  | 0 => s
  | n + 1 =>
    match s.firstPop q with
    | none => s
    | some (h, r) =>
      let s := s.lookWritten q
      match s.qHead q with
      | some p => if p.whole && p.linked then (s.servePop q h r p).servePops q n else s
      | none => s

/-- The pool port that a producer's packets reach a queue on (R425): its own, or the die bridge. -/
def portOf (prod q : Nat) : Nat := if prod / 64 = dieOf q then prod % 64 else 39

/-- A packet reaches a queue: admitted with `written` of its cells written, or ignored (R425, R426). A producer is named by 64 times
its die and its port there. -/
def State.pushPkt (s : State) (q prod : Nat) (data : List Byte) (written : Nat) : State :=
  let s := s.lookFreed q
  if s.admits q data.length then
    let x := s.queue q
    let n := min written (cellsOf data.length)
    let cells := s.takeFree (dieOf q) (cellsOf data.length)
    ((s.setQueue q { x with pkts := relinkLast (cells.headD 0) x.pkts ++ [⟨data, linkCells data.length cells, n, false, prod, s.tb.time, false⟩]
                            wr := x.wr.add n s.tb.time }).levelCheck q x.cells).servePops q 1024
  else s.ignorePkt q

/-! ### Fault records (R614, R615) -/

/-- The bytes of a fault record (Table 23-4). -/
def faultRecord (code block index : Nat) (seq : W32) (time : W64) (pitch : Nat) (dev : BitVec 16) (det : List Nat) : List Byte :=
  let head := bytesOf 8 (code + (index % 64 + (block % 32) * 64) * 2 ^ 16 + seq.toNat * 2 ^ 32)
  head ++ bytesOf 8 time.toNat ++ bytesOf 6 (pitch % 2 ^ 48) ++ bytesOf 2 dev.toNat
    ++ (takeD 0 4 det).flatMap (bytesOf 8) ++ complBytes head

/-- A record that queue 0 does not take goes to FLT_HELD (R610). -/
def State.holdRecord (s : State) (r : List Byte) : State :=
  { s.bumpHi (rFltCnt 0) 1 with flt := { s.flt with held := r } }

/-- Offer a record to queue 0 on the fault logic's port; while its die's fabric domain is off basecamp holds up to 16
(R597, R610, R615). -/
def State.offerRecord (s : State) (r : List Byte) : State :=
  if s.domOn 76 then
    let s := s.lookFreed 0
    if s.admits 0 64 then s.pushPkt 0 0 r 1 else (s.ignorePkt 0).holdRecord r
  else if s.flt.wait.length < 16 then { s with flt := { s.flt with wait := s.flt.wait ++ [r] } }
  else s.bumpLo (rPwrCnt 2) 1

/-- Raise a fault record (R614, R615): it takes the next SEQ, RAISED advances, and it is offered to queue 0. -/
def State.raise (s : State) (code block index : Nat) (det : List Nat) : State :=
  let r := faultRecord code block index s.flt.seq s.tb.time s.tb.pitch s.devId det
  ({ s with flt := { s.flt with seq := s.flt.seq + 1 } }.bumpLo (rFltCnt 0) 1).offerRecord r

/-- The fault codes of Table 23-5. -/
def fBadType := 0x01
def fTileBad := 0x02
def fArrMode := 0x03
def fFeedBad := 0x04
def fAccAddr := 0x05
def fBelayBad := 0x06
def fBelayTimeout := 0x07
def fDispBad := 0x08
def fIdxRange := 0x09
def fVecBad := 0x0A
def fPanBad := 0x0B
def fCopyOverlap := 0x0C
def fStrPart := 0x0D
def fStrBad := 0x0E
def fStrTrk := 0x0F
def fStartLost := 0x10
def fSeqBad := 0x11
def fSlotTimeout := 0x12
def fUnitOff := 0x13
def fXdBad := 0x14
def fXdRoute := 0x15
def fXdLate := 0x16
def fGovLost := 0x17
def fGovBad := 0x18
def fMemUe := 0x20
def fMemNopop := 0x21
def fNmgBad := 0x22
def fNmgFail := 0x23
def fQpBad := 0x24
def fQpBroken := 0x25
def fTimeHold := 0x30
def fTimeLost := 0x31
def fTbBad := 0x32
def fTopoBad := 0x33
def fTopoOver := 0x34
def fTopoMiss := 0x35
def fLinkTtl := 0x40
def fLinkColl := 0x41
def fLinkPeer := 0x42
def fLinkFail := 0x43
def fNzBad := 0x48
def fNzPeer := 0x49
def fNzDeny := 0x4A
def fNzSnoop := 0x4B
def fNzDown := 0x4C
def fBootWload := 0x50
def fBootFail := 0x51
def fBootBad := 0x52
def fLardDeny := 0x53
def fSecPuf := 0x58
def fSecTrng := 0x59
def fSecAuth := 0x5A
def fSecLock := 0x5B
def fPairLost := 0x60
def fPairId := 0x61
def fPairResync := 0x62
def fPairDetach := 0x63
def fPwrRefused := 0x68
def fPwrRestore := 0x69
def fPwrAvs := 0x6A
def fComplement := 0x70
def fSramUe := 0x71
def fBistFail := 0x72
def fBusy := 0x73

/-- A complement mismatch of a class that reports (R606): CMP_MISS and one COMPLEMENT record. -/
def State.cmpMiss (s : State) (cls addr who block index : Nat) : State :=
  (s.bumpLo (rFltCnt 1) 1).raise fComplement block index [cls, addr, who]

/-- TILE_POL is STOP (R607). -/
def State.tileStop (s : State) : Bool := bitOf (s.reg rFltCtl) 0

/-- The sequencer of core c enters FAULTED (R327, R350, R607, R613). -/
def State.seqFault (s : State) (c : Core) : State :=
  s.onSeq c (fun q => { q with st := .faulted, stall := none, ending := none })

/-! ### GLOBAL_TIME and pitches (R449, R450) -/

def State.onTb (s : State) (f : TbSt → TbSt) : State := { s with tb := f s.tb }
def State.pitchLen (s : State) : Nat := max 1 (s.rf rTbCfg 13 20)
def State.origin (s : State) : Nat := (s.reg rTbOrigin).toNat
/-- The pitch number at a time. -/
def State.pitchOf (s : State) (t : Nat) : Nat := if t < s.origin then 0 else (t - s.origin) / s.pitchLen % 2 ^ 48
/-- The ns since the current pitch began; there is none before ORIGIN. -/
def State.inPitch (s : State) : Nat := if s.tb.time.toNat < s.origin then 0 else (s.tb.time.toNat - s.origin) % s.pitchLen
/-- The time at which the next pitch begins. -/
def State.nextPitchTime (s : State) : Nat :=
  let t := s.tb.time.toNat
  if t < s.origin then s.origin else s.origin + ((t - s.origin) / s.pitchLen + 1) * s.pitchLen
/-- May an event fall at time t: not before now, and not at or after the next pitch start, which PITCH_START makes? -/
def State.mayBe (s : State) (t : W64) : Bool := decide (s.tb.time.toNat ≤ t.toNat) && decide (t.toNat < s.nextPitchTime)
/-- GLOBAL_TIME reaches t. -/
def State.reach (s : State) (t : W64) : State := s.onTb (fun x => { x with time := t })
/-- An event that falls when GLOBAL_TIME is t, or as soon after it as it is reported: GLOBAL_TIME reaches t where it lies in this pitch;
none where it still lies in a later one. -/
def State.reachBy (s : State) (t : Nat) : Option State :=
  if t ≤ s.tb.time.toNat then some s
  else if t < min s.nextPitchTime (2 ^ 64) then some (s.reach (BitVec.ofNat 64 t)) else none
/-- How long, in ns, a link or half stays in a state that time ends: 1 ms DOWN, 500 ms TRAINING, 20 ms KEYING (Table 17-7). -/
def linkLimit (st : Nat) : Nat := nth 0 st [0, 1000000, 500000000, 20000000]
/-- The state in which that time has passed since it was entered at `since`. -/
def State.linkOver (s : State) (st : Nat) (since : W64) : Option State := s.reachBy (since.toNat + linkLimit st)
/-- The pitch number and the count of pitch starts follow GLOBAL_TIME and ORIGIN: a pitch exists from ORIGIN on. -/
def State.placePitch (s : State) : State :=
  s.onTb (fun x => { x with pitch := s.pitchOf x.time.toNat, starts := if x.time.toNat < s.origin then 0 else max 1 x.starts })

/-- The count of pitch starts from which a wait that begins now counts: one that begins before pitch 0 counts from its start
(R450). -/
def State.pitchMark (s : State) : Nat := max 1 s.tb.starts
/-- Have n pitches started since a wait began? -/
def State.pitchesPast (s : State) (since n : Nat) : Bool := decide (since + n ≤ s.tb.starts)
/-- A wait that began at pitch start n has passed its watchdog (R350); 0 disables. -/
def watchdogPast (limit since starts : Nat) : Bool := limit != 0 && decide (since + limit + 1 ≤ starts)
/-- SLOT_WATCHDOG of a core. -/
def State.slotWd (s : State) (c : Core) : Nat := s.rf (rSeqCtl c) 0 16

/-! ### Start requests (R317, R318) -/

/-- A start request reaches core c (R318): queued, or refused with START_LOST. -/
def State.requestStart (s : State) (c : Core) (src : Nat) (r : StartReq) : State :=
  let k := s.core c
  let refused := decide (4 ≤ k.seq.starts.length) || k.seq.st == .faulted || k.getUnit 12 != .enabled || !s.coreOn c
  if refused then
    (s.bumpHi (rSeqCnt c 2) 1).raise fStartLost 7 c.val [c.val, src, r.addr]
  else s.onSeq c (fun q => { q with starts := q.starts ++ [r] })

/-- Every read of a step has delivered its words: its read guard is released (R346). -/
def State.readsDone (s : State) (c : Core) (g : Guard) : State := if g.rge && g.rrel then s.setFlag c g.rf false else s
/-- A guard whose read side has been released. -/
def Guard.released (g : Guard) : Guard := { g with rrel := false }
/-- Set the guard flags of a step that its unit has executed (R346, R347). -/
def State.guardDone (s : State) (c : Core) (g : Guard) : State :=
  let s := s.readsDone c g
  if g.wge then s.setFlag c g.wf true else s

end Sys2Proof.Machine
end

