-- ==== Sys2Proof/Machine/Monitor.lean ====
section
/-! DEFINITION. Monitors (spec/23_integrity_selftest_monitors.md R624 to R627): samples, captures and windows. -/
namespace Sys2Proof.Machine

/-- Fields of MON_CFGm. -/
def State.monSrc (s : State) (m : Nat) : Nat := s.rf (rMonCfg m) 0 6
def State.monSel (s : State) (m : Nat) : Nat := s.rf (rMonCfg m) 6 11
def State.monLinear (s : State) (m : Nat) : Bool := bitOf (s.reg (rMonCfg m)) 17
def State.monBase (s : State) (m : Nat) : Int := signed 16 (s.rf (rMonCfg m) 18 16)
def State.monShift (s : State) (m : Nat) : Nat := s.rf (rMonCfg m) 34 5
def State.monWindow (s : State) (m : Nat) : Nat := s.rf (rMonCfg m) 39 16
def State.monEnabled (s : State) (m : Nat) : Bool := bitOf (s.reg (rMonCfg m)) 55

/-- Monitor m. -/
def State.mon (s : State) (m : Nat) : MonSt := s.mons.get (fun _ => .reset) m
def State.setMon (s : State) (m : Nat) (x : MonSt) : State := { s with mons := s.mons.put (fun _ => .reset) m x }

/-- A count that stays at 0xFFFF_FFFF (R624). -/
def sat32 (v : W32) : W32 := if v = 0xFFFFFFFF then v else v + 1

/-- The larger and smaller of two signed samples. -/
def maxS (a b : W32) : W32 := if a.toInt < b.toInt then b else a
def minS (a b : W32) : W32 := if b.toInt < a.toInt then b else a

/-- Clamp a bin number to 0..31. -/
def clampBin (i : Int) : Nat := (min 31 (max 0 i)).toNat

/-- The bin of a sample (R624); `vexp` is set where the sample is an exponent itself. -/
def binOf (linear vexp : Bool) (base : Int) (shift : Nat) (v : Int) : Nat :=
  if linear then clampBin ((v - base) / (2 ^ shift : Nat))
  else if vexp then clampBin (v - base)
  else if v ≤ 0 then 0 else clampBin ((log2 v.toNat : Int) - base)

/-- A capture after one sample. -/
def Capture.sample (x : Capture) (bin : Nat) (v : W32) : Capture :=
  ⟨minS x.mn v, maxS x.mx v, sat32 x.count, setAt bin (sat32 (nth 0 bin x.bins)) x.bins⟩

/-- An enabled monitor takes a sample of its source (R624). -/
def State.monTake (s : State) (m : Nat) (v : Int) : State :=
  if s.monEnabled m then
    let x := s.mon m
    let b := binOf (s.monLinear m) (s.monSrc m == 1) (s.monBase m) (s.monShift m) v
    s.setMon m { x with live := x.live.sample b (BitVec.ofInt 32 v) }
  else s

/-- The monitor whose MON_CFG register stands at an address. -/
def monNoOf (a : Nat) : Option Nat :=
  if rMonCfg 0 ≤ a ∧ a < rMonCfg 192 ∧ (a - rMonCfg 0) % 0x100 = 0 then some ((a - rMonCfg 0) / 0x100) else none

/-- The monitors lo to lo + n - 1 of source `src` with selector `sel` take a sample (Table 23-6). -/
def State.monFeed (s : State) (src sel lo n : Nat) (v : Int) : State :=
  ((s.regs.filterMap (fun e => monNoOf e.1)).filter (fun m =>
    decide (lo ≤ m) && decide (m < lo + n) && s.monSrc m == src && s.monSel m == sel)).foldl (fun s m => s.monTake m v) s

/-- The monitors of a core's compute die take a sample of the core: 4 admission waits, 5 extra slots of a pantry access, 6 stalls of
guarded steps. -/
def State.monCore (s : State) (c : Core) (src : Nat) (v : Int) : State := s.monFeed src c.val (c.val / 24 * 64) 64 v

/-- What the registers show (R625). -/
def State.monShown (s : State) (m : Nat) : Capture := if s.monWindow m = 0 then (s.mon m).live else (s.mon m).shown

/-- CLR (R626). -/
def State.monClear (s : State) (m : Nat) : State := s.setMon m { s.mon m with live := .clear, shown := .clear }

/-- The monitor that number n names within the compute die of core c (chapter 23, Monitors). -/
def monOfCore (c : Core) (n : Nat) : Nat := c.val / 24 * 64 + n

end Sys2Proof.Machine
end

