-- ==== Sys2Proof/Machine/MemTiers.lean ====
section
/-! DEFINITION. The memory tiers (spec/14_memory_tiers.md): address decode, populated addresses, arbitration, and the
checks and sums of the gather engines. -/
namespace Sys2Proof.Machine

/-! ### Decode (R389 to R395) -/

def inHbm (a : Nat) : Bool := decide (0x1000000000 ≤ a) && decide (a < 0x7000000000)
def inLp (a : Nat) : Bool := decide (0x10000000000 ≤ a) && decide (a < 0x1F800000000)

/-- Stack of an HBM address. -/
def hbmStack (a : Nat) : Nat := (a - 0x1000000000) / 4096 / 32 % 8
/-- Global pseudo-channel of an HBM address. -/
def State.hbmPc (s : State) (a : Nat) : Nat :=
  let g := (a - 0x1000000000) / 4096
  let p := if bitOf (s.reg rHbmCfg) 2 then (g % 32) ^^^ (g / 256 % 32) else g % 32
  32 * hbmStack a + p

/-- The populated channels, ascending. -/
def State.lpChans (s : State) : List Nat := (List.range 32).filter (fun c => bitOf (s.reg rLpCfg) (3 + c / 8))
/-- Usable 4 KiB granules of a channel (R394). -/
def State.lpGranules (s : State) : Nat := s.rf rLpCfg 7 6 * 253952
/-- Channel of an LPDDR address, and its granule (R395): none where no channel is populated. -/
def State.lpPlace (s : State) (a : Nat) : Option (Nat × Nat) :=
  let g := (a - 0x10000000000) / 4096
  let cs := s.lpChans
  if cs.isEmpty then none else (cs[g % cs.length]?).map (fun c => (c, g / cs.length))
/-- Channel of an LPDDR address. -/
def State.lpChan (s : State) (a : Nat) : Nat := ((s.lpPlace a).map (·.1)).getD 0

/-- Is a memory address populated (R392, R395)? -/
def State.populated (s : State) (a : Nat) : Bool :=
  if inHbm a then (match s.part with
    | .glx384 => true
    | .glx288 => decide (a < 0x5800000000))
  else if inLp a then (match s.lpPlace a with
    | some p => decide (p.2 < s.lpGranules)
    | none => false)
  else false

/-- Has the zero fill of an address's tier completed (R401)? -/
def State.filled (s : State) (a : Nat) : Bool := if inHbm a then s.memc.hbmFilled else s.memc.lpFilled

/-- Capacity of a stack in bytes. -/
def State.stackBytes (s : State) : Nat := match s.part with
  | .glx384 => 48 * 2 ^ 30
  | .glx288 => 36 * 2 ^ 30

/-- Physical address of stack-local offset l of stack h (R391). -/
def stackAddr (h l : Nat) : Nat := 0x1000000000 + l / 2 ^ 17 * 2 ^ 20 + h * 2 ^ 17 + l % 2 ^ 17

/-! ### Outcomes (R397, R398, R400) -/

/-- An access to an address that is not populated (R400). -/
def State.noPop (s : State) (a : Nat) : State :=
  let s := if inHbm a then s.bumpLo (rHbmCnt1 (hbmStack a)) 1 else s.bumpLo (rLpCnt1 0) 1
  if inHbm a then s.raise fMemNopop 9 (hbmStack a) [(s.full a).toNat] else s.raise fMemNopop 10 0 [(s.full a).toNat]

/-- An access to an address of no region (R640). -/
def State.unmapped (s : State) (a : Nat) : State := (s.bumpLo rMapcnt0 1).raise fMemNopop 0 0 [(s.full a).toNat, 3]

/-- A corrected read (R397). -/
def State.memCe (s : State) (a : Nat) : State :=
  if inHbm a then s.bumpLo (rHbmCnt0 (hbmStack a)) 1 else s.bumpLo (rLpCnt0 (s.lpChan a)) 1

/-- An uncorrectable word (R398, R676). -/
def State.memUe (s : State) (a : Nat) : State :=
  if inHbm a then (s.bumpHi (rHbmCnt0 (hbmStack a)) 1).raise fMemUe 9 (hbmStack a) [(s.full a).toNat, 0, hbmStack a]
  else (s.bumpHi (rLpCnt0 (s.lpChan a)) 1).raise fMemUe 10 (s.lpChan a) [(s.full a).toNat, 1, s.lpChan a]

/-- The SECDED check of a memory read (R396 to R398): whether the word is delivered. -/
def State.memEcc (s : State) (a : Nat) : Bool × State :=
  match s.eccOf (eccUnit a) with
  | .ok => (true, s)
  | .corrected => (true, s.memCe a)
  | .uncorrectable => (false, s.memUe a)

/-- The SECDED check of an SRAM read (R612, R613): `struct` and `who` are numbers of Table 23-7. -/
def State.sramEcc (s : State) (block index struct a who : Nat) : Bool × State :=
  match s.eccOf (eccUnit a) with
  | .ok => (true, s)
  | .corrected => (true, s.bumpLo (rFltCnt 2) 1)
  | .uncorrectable => (false, (s.bumpHi (rFltCnt 2) 1).raise fSramUe block index [struct, (s.full a).toNat, who])

/-- The errors that a command brings strike their words. -/
def State.strikes (s : State) (l : List (Nat × Ecc)) : State := l.foldl (fun s p => s.strike p.1 p.2) s

/-- The domain of a memory address. -/
def State.memDom (s : State) (a : Nat) : Nat := if inHbm a then 48 + hbmStack a else 70 + s.lpChan a / 8

/-- A unit reads the pantry word, accumulator element or memory word at a full address: 0 where it is delivered, 1 where it is not
(R277, R398, R613), 3 where its domain is off (R635), 4 where memory is not populated (R400). Words of other devices are not checked
here. -/
def State.readCheck (s : State) (who a : Nat) : Nat × State :=
  if a / 2 ^ 48 % 65536 == s.devId.toNat then
    match pantryOf (localOf a), accWindow (localOf a) with
    | some (c, w), _ =>
      if !(s.coreOn c) then (3, s)
      else if s.wordValid c w then
        let e := s.sramEcc 5 c.val 1 (localOf a) who
        (b2n !e.1, e.2)
      else (0, s.bumpLo (rPanCnt c 0) 1)
    | none, some (c, _) =>
      if !(s.coreOn c) then (3, s)
      else
        let e := s.sramEcc 2 c.val 2 (localOf a) who
        (b2n !e.1, e.2)
    | none, none =>
      if inHbm (localOf a) || inLp (localOf a) then
        if s.populated (localOf a) then
          if !(s.domOn (s.memDom (localOf a))) then (3, s)
          else
            let e := s.memEcc (localOf a)
            (b2n !e.1, e.2)
        else (4, s.noPop (localOf a))
      else (0, s)
  else (0, s)

/-- A unit reads words: the first reason why one is not delivered, 0 where all are. -/
def State.readWords (s : State) (who : Nat) (addrs : List Nat) : Nat × State :=
  addrs.foldl (fun r a =>
    let x := r.2.readCheck who a
    (if r.1 = 0 then x.1 else r.1, x.2)) (0, s)

/-! ### Accesses to words of pantries, accumulator stores and memory -/

/-- ACC_BADADDR and an ACC_ADDR record naming the address (R157, R158). -/
def State.accBad (s : State) (c : Core) (a : Nat) : State := (s.bumpLo (rAccCnt1 c) 1).raise fAccAddr 2 c.val [(s.full a).toNat]

/-- The cycles that an access waits for the side port or the read port of a store, and for the row that the tree port addresses: free
values, since ports' cycles are not modelled (R152, R153). -/
def State.portWaits (s : State) (c : Core) : State := (s.bumpHi (rAccCnt0 c) (Config.portWait s.free)).tick
def State.portConflicts (s : State) (c : Core) : State :=
  ((s.bumpLo (rAccCnt0 c) (Config.portConflict s.free)).tick).portWaits c

/-- The runs of an access that lie in one core's store or in its reserved part (Table 6-2): both begin and end at multiples of
0x80000. -/
def accRuns : Nat → Nat → Nat → List (Nat × Nat)
  | 0, _, _ => []
  | k + 1, a, n =>
    if n = 0 then [] else
    let m := min n (0x80000 - a % 0x80000)
    (a, m) :: accRuns k (a + m) (n - m)
/-- Does a window address lie in the reserved part? -/
def accReserved (a : Nat) : Bool := decide (0x180000 ≤ a % 0x200000)

/-- The SECDED checks of the elements that a read names (Table 23-3). -/
def State.accCheck (s : State) (c : Core) (who a n : Nat) : Bool × State :=
  (List.range (n / 4)).foldl (fun r k =>
    let x := r.2.sramEcc 2 c.val 2 (a + 4 * k) who
    (r.1 && x.1, x.2)) (true, s)

/-- One run of a window read: the bytes, or a failure. -/
def State.accRunRead (s : State) (who a n : Nat) : Except Nat (List Byte) × State :=
  match accWindow a with
  | none => (.ok (padTo n []), s.unmapped a)
  | some (c, _) =>
    if !(s.coreOn c) then (.error 3, s)
    else if accReserved a then (.ok (padTo n []), s.accBad c a)
    else
      let r := s.accCheck c who a n
      (if r.1 then .ok (s.rdBytes a n) else .error 1, r.2)

/-- One run of a window write: 0, or the reason of a failure. -/
def State.accRunWrite (s : State) (a : Nat) (bs : List Byte) : Nat × State :=
  match accWindow a with
  | none => (0, s.unmapped a)
  | some (c, _) =>
    if !(s.coreOn c) then (3, s)
    else if accReserved a then (0, s.accBad c a)
    else
      let s := s.wrBytes a bs
      (0, { s with ecc := s.ecc.filter (fun e => !(decide (a ≤ e.1) && decide (e.1 < a + bs.length))) })

/-- A window read of n bytes at a local address of core c's window, run by run in ascending address order (R157, R158, R613). -/
def State.accRead (s : State) (c : Core) (who a n : Nat) : Except Nat (List Byte) × State :=
  if a % 4 ≠ 0 ∨ n % 4 ≠ 0 then (.ok (padTo n []), s.accBad c a)
  else (accRuns (n / 0x80000 + 2) a n).foldl (fun x p =>
    let y := x.2.accRunRead who p.1 p.2
    (match x.1, y.1 with
     | .ok bs, .ok cs => .ok (bs ++ cs)
     | .error e, _ => .error e
     | _, .error e => .error e, y.2)) (.ok [], s)

/-- A window write (R157, R158). -/
def State.accWrite (s : State) (c : Core) (a : Nat) (bs : List Byte) : Nat × State :=
  if a % 4 ≠ 0 ∨ bs.length % 4 ≠ 0 then (0, s.accBad c a)
  else (accRuns (bs.length / 0x80000 + 2) a bs.length).foldl (fun x p =>
    let y := x.2.accRunWrite p.1 ((bs.drop (p.1 - a)).take p.2)
    (if x.1 = 0 then y.1 else x.1, y.2)) (0, s)

/-- Read n bytes that lie in one 64 B word; `who` is the requester as SRAM_UE names it. -/
def State.wordRead (s : State) (who a n : Nat) : Except Nat (List Byte) × State :=
  match pantryOf a, accWindow a with
  | some (c, w), _ =>
    if !(s.coreOn c) then (.error 3, s)
    else if !(s.wordValid c w) then (.ok (padTo n []), s.bumpLo (rPanCnt c 0) 1)
    else
      let e := s.sramEcc 5 c.val 1 a who
      if e.1 then (.ok (s.rdBytes a n), e.2) else (.error 1, e.2)
  | none, some (c, _) =>
    if !(s.coreOn c) then (.error 3, s)
    else (s.portWaits c).accRead c who a n
  | none, none =>
    if inHbm a || inLp a then
      if !(s.populated a) then (.error 4, s.noPop a)
      else if !(s.domOn (s.memDom a)) then (.error 3, s)
      else
        let e := s.memEcc a
        if e.1 then (.ok (s.rdBytes a n), e.2) else (.error 1, e.2)
    else (.error 4, s.unmapped a)

/-- Write bytes that lie in one 64 B word: 0, or the reason of a failure. A partial write reads the word first (R258, R399). -/
def State.wordWrite (s : State) (who a : Nat) (bs : List Byte) : Nat × State :=
  match pantryOf a, accWindow a with
  | some (c, w), _ =>
    if !(s.coreOn c) then (3, s)
    else if bs.length = 64 then (0, s.wrLocal a bs)
    else
      let e := if s.wordValid c w then s.sramEcc 5 c.val 1 a who else (true, s.bumpLo (rPanCnt c 0) 1)
      if e.1 then (0, e.2.wrLocal a bs) else (1, e.2)
  | none, some (c, _) => if !(s.coreOn c) then (3, s) else (s.portConflicts c).accWrite c a bs
  | none, none =>
    if inHbm a || inLp a then
      if !(s.populated a) then (4, s.noPop a)
      else if !(s.domOn (s.memDom a)) then (3, s)
      else if bs.length = 64 then (0, s.wrLocal a bs)
      else
        let e := s.memEcc a
        if e.1 then (0, e.2.wrLocal a bs) else (1, e.2)
    else (4, s.unmapped a)

/-- Read words in ascending order: their bytes, or the first reason. -/
def State.wordsRead (s : State) (who : Nat) (l : List (Nat × Nat)) : Except Nat (List Byte) × State :=
  match l with
  | [] => (.ok [], s)
  | p :: l =>
    let r := s.wordRead who p.1 p.2
    let t := r.2.wordsRead who l
    (match r.1, t.1 with
     | .ok bs, .ok cs => .ok (bs ++ cs)
     | .error e, _ => .error e
     | _, .error e => .error e, t.2)

/-- Write words in ascending order: 0, or the first reason. -/
def State.wordsWrite (s : State) (who : Nat) (l : List (Nat × Nat)) (bs : List Byte) : Nat × State :=
  match l with
  | [] => (0, s)
  | p :: l =>
    let r := s.wordWrite who p.1 (bs.take p.2)
    let t := r.2.wordsWrite who l (bs.drop p.2)
    (if r.1 = 0 then t.1 else r.1, t.2)

/-- What happens where a requester other than a stream engine, the trickle path, the mesh, a device or the companion meets an
uncorrectable word (R613): its step ends, which the caller does, and the sequencer enters FAULTED. -/
def State.readFault (s : State) (c : Core) : State := s.seqFault c

/-! ### Encryption (R396, R418): memory here is what the controller delivers; what stands in the tier follows from it -/

/-- The key pair of an address's tier. -/
def State.tierKey (s : State) (a : Nat) : List Byte := if inHbm a then s.memc.hbmKey else s.memc.lpKey
/-- The word of ciphertext that stands in a tier: AES-256-XTS under the tier's key pair, the tweak the address bits [47:6]. -/
def State.cipherAt (s : State) (a : Nat) : List Byte := Config.xts (s.tierKey a) (a / 64) (s.rdBytes (a / 64 * 64) 64)
/-- The check bits that stand with it: SECDED over the ciphertext. -/
def State.checkAt (s : State) (a : Nat) : List Byte := Config.secded (s.cipherAt a)
/-- The enclave draws both key pairs at a reset. -/
def State.drawKeys (s : State) : State :=
  let k := Config.tierKeys s.free
  { s.tick with memc := { s.memc with hbmKey := k.1, lpKey := k.2 } }

/-! ### Arbitration (R402 to R408, R653) -/

/-- The index of an arbiter. -/
def ctlIdx : MemCtl → Nat
  | .hbm h => h.val
  | .lp c => 8 + c.val
  | .mesh c => 40 + c.val

/-- Shadowed registers in force (R650): what their last commit took. -/
def State.force (s : State) (a : Nat) : W64 := s.inForce.get (fun _ => 0) a

/-- OFFSET of a requester at an arbiter. -/
def State.prio (s : State) (m : MemCtl) (who : Nat) : Nat :=
  match m with
  | .hbm _ => fld (s.force (rHbmPrio (who / 8))) (8 * (who % 8)) 8
  | .lp _ => fld (s.force (rLpPrio (who / 8))) (8 * (who % 8)) 8
  | .mesh _ => fld (s.force rMprio) (8 * (who % 8)) 8

/-- The score of R402 up to the current cycle, which is common to all requests. -/
def State.score (s : State) (m : MemCtl) (r : MemReq) : Int := 16 * (s.prio m r.who.toNat : Int) - r.stamp

/-- Is request a granted before b, where a arrived first? -/
def State.beats (s : State) (m : MemCtl) (a b : MemReq) : Bool :=
  decide (s.score m b < s.score m a) || (s.score m a == s.score m b && decide (a.who.toNat ≤ b.who.toNat))

/-- The request to be granted: of requests with equal scores the lower requester, of one requester the first. -/
def State.pick (s : State) (m : MemCtl) : List MemReq → Option MemReq
  | [] => none
  | r :: rs => match s.pick m rs with
    | none => some r
    | some b => if s.beats m r b then some r else some b

/-- Words of one transfer (R403): up to four of one granule at HBM, one elsewhere. -/
def transferWords (m : MemCtl) (r : MemReq) : Nat :=
  match m with
  | .hbm _ => min r.words (min 4 (64 - r.addr.toNat / 64 % 64))
  | _ => min r.words 1

/-- A request's first n words as a transfer, and what is left of it. -/
def reqRest (r : MemReq) (n : Nat) : MemReq :=
  { r with addr := r.addr + BitVec.ofNat 48 (64 * n), words := r.words - n, data := r.data.map (fun d => d.drop (64 * n)) }

/-- Pending requests of an arbiter. -/
def State.memReqs (s : State) (m : MemCtl) : List MemReq := s.memc.reqs.get (fun _ => []) (ctlIdx m)
def State.setMemReqs (s : State) (m : MemCtl) (l : List MemReq) : State :=
  { s with memc := { s.memc with reqs := s.memc.reqs.put (fun _ => []) (ctlIdx m) l } }
/-- What takes one transfer at a time: the pseudo-channel of an address, the channel or the mesh port (R403, R406). -/
def State.lane (s : State) (m : MemCtl) (a : Nat) : Nat :=
  match m with
  | .hbm _ => s.hbmPc a
  | .lp c => 256 + c.val
  | .mesh c => 288 + c.val
/-- The transfer that emergency work has stopped there. -/
def State.memStopped (s : State) (lane : Nat) : Option MemReq := s.memc.stopped.get (fun _ => none) lane
def State.setMemStopped (s : State) (lane : Nat) (r : Option MemReq) : State :=
  { s with memc := { s.memc with stopped := s.memc.stopped.put (fun _ => none) lane r } }
/-- The lanes of an arbiter. -/
def lanesOf (m : MemCtl) : List Nat :=
  match m with
  | .hbm h => rangeFrom (32 * h.val) 32
  | .lp c => [256 + c.val]
  | .mesh c => [288 + c.val]
/-- The words that the last granted read of an arbiter returned. -/
def State.memAnswers (s : State) (m : MemCtl) : List MemAnswer := s.memc.answers.get (fun _ => []) (ctlIdx m)
def State.setMemAnswers (s : State) (m : MemCtl) (l : List MemAnswer) : State :=
  { s with memc := { s.memc with answers := s.memc.answers.put (fun _ => []) (ctlIdx m) l } }

/-- Replace the first occurrence of a request. -/
def replaceReq (r : MemReq) (new : Option MemReq) : List MemReq → List MemReq
  | [] => []
  | x :: xs => if x = r then new.toList ++ xs else x :: replaceReq r new xs

/-- The address of word k of a request. -/
def reqWord (r : MemReq) (k : Nat) : Nat := (r.addr.toNat / 64 + k) * 64
/-- Word k of a request: it is written, or read and returned, with the checks and outcomes of its target (R250, R277, R398 to R400,
R405). Registers and queue pages are reached by the commands of their own. -/
def State.moveWord (s : State) (r : MemReq) (k : Nat) : List MemAnswer × State :=
  let a := reqWord r k
  if inRegs a || (decide (0x60000000 ≤ a) && decide (a < 0x68000000)) then ([], s)
  else match r.data with
    | some d =>
      let w := (d.drop (64 * k)).take 64
      ([], if w.isEmpty then s else (s.wordWrite 15 a w).2)
    | none =>
      let x := s.wordRead 15 a 64
      ([⟨r.who, BitVec.ofNat 48 a, match x.1 with
        | .ok bs => .ok (BitVec.ofNat 512 (natOf bs))
        | .error e => .error e⟩], x.2)
/-- Make the transfer of n words of a request, each whole; a read's words are what it returns. -/
def State.transfer (s : State) (m : MemCtl) (r : MemReq) (n : Nat) : State :=
  let x := (List.range n).foldl (fun (x : List MemAnswer × State) k =>
    let y := x.2.moveWord r k
    (x.1 ++ y.1, y.2)) ([], s)
  if r.data.isSome then x.2 else x.2.setMemAnswers m x.1

/-- PREEMPT of an arbiter (R406). -/
def State.countPreempt (s : State) (m : MemCtl) : State :=
  match m with
  | .hbm h => s.bumpHi (rHbmCnt1 h.val) 1
  | .lp c => s.bumpHi (rLpCnt1 c.val) 1
  | .mesh _ => s

/-- Commit shadowed registers (R10, R650): a write with COMMIT 1 makes them take effect together. -/
def State.commitRegs (s : State) (v : W64) (rs : List Nat) : State :=
  if bitOf v 0 then
    rs.foldl (fun s a => { s with inForce := s.inForce.put (fun _ => 0) a (s.reg a) }) s
  else s

/-! ### Gather engines (R409 to R417) -/

def State.nmgQueue (s : State) (h : Nat) : List (BitVec 512) := s.memc.nmgq.get (fun _ => []) h
def State.setNmgQueue (s : State) (h : Nat) (l : List (BitVec 512)) : State :=
  { s with memc := { s.memc with nmgq := s.memc.nmgq.put (fun _ => []) h l } }
def State.nmgRun (s : State) (h : Nat) : Option NmgRun := s.memc.nmgrun.get (fun _ => none) h
def State.setNmgRun (s : State) (h : Nat) (r : Option NmgRun) : State :=
  { s with memc := { s.memc with nmgrun := s.memc.nmgrun.put (fun _ => none) h r } }

/-- A request reaches a gather engine (R409): whether it was taken. -/
def State.nmgPush (s : State) (h : Nat) (r : BitVec 512) : Bool × State :=
  let q := s.nmgQueue h
  if 16 ≤ q.length then (false, s.bumpLo (rNmgCnt h 1) 1) else (true, s.setNmgQueue h (q ++ [r]))

end Sys2Proof.Machine
end

