-- ==== Sys2Proof/Machine/Tiles.lean ====
section
/-! DEFINITION. Tiles (spec/03_tiles_and_sparse_encodings.md): headers and their checks, the reading of DENSE, CSR and
S24 payloads with the range and pointer rules R211 to R217, packing, and the compressor R75 to R81. -/
namespace Sys2Proof.Machine

/-! ### Packed runs and courses -/

/-- The data words of a run of n elements of a type. -/
def dataWords (t : Code) (n : Nat) : Nat := ceilDiv n t.perWord

/-- All words of a run of n elements: data words, and one scale word for each course of a scaled form (R29, R30). -/
def runWords (t : EType) (n : Nat) : Nat :=
  let d := dataWords t.code n
  if t.scaled then d + ceilDiv d 16 else d

/-- The place of data word d of a run within its storage words (R262). -/
def storageWord (scaled : Bool) (d : Nat) : Nat := if scaled then 17 * (d / 16) + d % 16 else d

/-- The place of the scale word of course c of a run of n elements (R29, R30). -/
def scaleWord (t : Code) (n c : Nat) : Nat := 17 * c + min 16 (dataWords t n - 16 * c)

/-- Element j of a run of n elements: its bits and its scale byte (127 where the type is not scaled). `rd w` gives
storage word w of the run. -/
def runElem (rd : Nat → Nat) (t : EType) (n j : Nat) : Nat × Nat :=
  let d := j / t.code.perWord
  let bits := slot (rd (storageWord t.scaled d)) t.code.width (j % t.code.perWord)
  if t.scaled then
    let c := d / 16
    (bits, slot (rd (scaleWord t.code n c)) 8 ((j - c * 16 * t.code.perWord) / 32))
  else (bits, 127)

/-- The value of an element under its scale byte and a tensor exponent (R28, R33, R342). -/
def elemVal (t : EType) (texp : Int) (e : Nat × Nat) : Fv :=
  let v := t.value e.1
  (if t.scaled then v.scaled e.2 else v).scaleBy (-texp)

/-- Words of a packed list of elements (R26, R27). -/
def packWords (t : Code) (es : List Nat) : List Nat :=
  (chunks t.perWord es.length es).map (packBits t.width)

/-- Words of a run with its scale bytes: courses of up to 16 data words and one scale word (R29, R30). -/
def packRun (t : EType) (es scales : List Nat) : List Nat :=
  let ws := packWords t.code es
  if t.scaled then
    let cs := chunks 16 (ws.length + 1) ws
    let sb := chunks (t.code.perWord / 2) (scales.length + 1) scales
    (cs.zip (sb ++ List.replicate cs.length [])).flatMap (fun p => p.1 ++ [packBits 8 p.2])
  else ws

/-- The bytes of words. -/
def wordBytes (ws : List Nat) : List Byte := ws.flatMap (bytesOf 64)

/-! ### Headers -/

/-- DENSE size in words (Table 3-4). -/
def denseWords (t : EType) : Nat := runWords t 4096

/-- Words of the block-scale array of a CSR or S24 payload. -/
def scaleArr (t : EType) : Nat := if t.scaled then 2 else 0

/-- CSR size in words (Table 3-4). -/
def csrWords (t : EType) (n : Nat) : Nat := 4 + 2 * ceilDiv n 32 + dataWords t.code n + scaleArr t
/-- S24 size in words (Table 3-4). -/
def s24Words (t : EType) : Nat := 8 + dataWords t.code 2048 + scaleArr t

/-- The 32 header bytes and their complement agree (R61). -/
def pairOk (w : Nat) : Bool := (w % 2 ^ 256) + (w / 2 ^ 256) % 2 ^ 256 == 2 ^ 256 - 1

/-- The fields of a header (Table 3-1); the type is none where R23 refuses it. -/
def parseHdr (w : Nat) : Hdr :=
  let f (lo len : Nat) := (w / 2 ^ lo) % 2 ^ len
  ⟨f 0 2, EType.ofField (f 2 5), f 7 1 == 1, f 9 1 == 1, f 16 6 + 1, f 22 6 + 1, f 32 13, f 48 8, f 64 64, f 128 16⟩

/-- The conditions of Table 3-5. -/
def Hdr.malformed (h : Hdr) (t : EType) : Bool :=
  match h.format with
  | 1 => h.payload % 64 != 0 || h.words != denseWords t || decide (4096 < h.nnz)
  | 2 => h.payload % 64 != 0 || h.words != csrWords t h.nnz || h.nnz == 0 || decide (4096 < h.nnz)
  | 3 => h.payload % 64 != 0 || h.words != s24Words t || decide (2048 < h.nnz) || t.code == .int32
  | _ => false

/-- What a consumer makes of a header pair (R61, R23, R73). -/
inductive HdrUse | ok (h : Hdr) | mismatch | badType | malformed
deriving DecidableEq, Repr

def judgeHdr (w : Nat) : HdrUse :=
  if !pairOk w then .mismatch
  else
    let h := parseHdr w
    match h.ty with
    | none => .badType
    | some t => if h.malformed t then .malformed else .ok h

/-- What a consumer of core c, of block `block`, makes of the header pair it read at an address: the header it acts on
(EMPTY where the pair is refused), whether the pair matched, and the state with what R23, R73 and R606 count and report. -/
def State.noteHdr (s : State) (c : Core) (block addr : Nat) (u : HdrUse) : Hdr × Bool × State :=
  match u with
  | .ok h => (h, true, s)
  | .mismatch => (.empty, false, s.cmpMiss 1 addr c.val block c.val)
  | .badType => (.empty, true, s.raise fBadType block c.val [])
  | .malformed => (.empty, true, (s.bumpHi (rTilecnt0 c) 1).raise fTileBad block c.val [])

/-- A consumer reads the header pair at a full address (R277, R613): the header it acts on, whether it stops (TILE_POL on a
mismatch, or a word that is not delivered), and the state. `who` is its requester number of Table 23-7. -/
def State.useHdr (s : State) (c : Core) (block who addr : Nat) : Hdr × Bool × State :=
  let r := s.readCheck who addr
  if r.1 = 0 then
    let n := r.2.noteHdr c block addr (judgeHdr (s.unitWord addr))
    (n.1, !n.2.1 && s.tileStop, n.2.2)
  else (.empty, true, r.2)

/-! ### Reading payloads -/

/-- A stored element of a tile: its position in its line, its bits and its scale byte; `slotNo` is its slot in an S24
group. -/
structure Ent where
  pos    : Nat
  bits   : Nat
  scale  : Nat
  slotNo : Nat
deriving DecidableEq, Repr

/-- What reading a tile gives: the entries of its 64 lines in entry order, the counts of R69, R212, R214 to R216, the
first entry dropped, and the word whose complement did not match (R607). -/
structure TileRead where
  lines : List (List Ent)
  drop  : Nat
  ptr   : Nat
  dup   : Nat
  first : Option Nat
  miss  : Option Nat
deriving DecidableEq, Repr

def TileRead.none : TileRead := ⟨List.replicate 64 [], 0, 0, 0, Option.none, Option.none⟩

/-- Extent of the line axis and of the position axis (R58, R211). -/
def Hdr.lineExt (h : Hdr) : Nat := if h.gaxis then h.cols else h.rows
def Hdr.posExt (h : Hdr) : Nat := if h.gaxis then h.rows else h.cols

/-- Does a pattern encode +0 or −0 (R75)? -/
def isZeroBits (t : EType) (b : Nat) : Bool :=
  match t.code with
  | .int8 | .int4 | .int32 => b == 0
  | c => b % c.fmt.signBit == 0

/-- Is an element a nonzero in the sense of R75? -/
def isNonzero (t : EType) (b scale : Nat) : Bool := !(isZeroBits t b) || (t.scaled && scale == 255)

/-- The effective ends of the lines and the number of bad pointers (R214 to R216). -/
def effEnds (nnz : Nat) (ends : List Nat) : List Nat × Nat :=
  let r := ends.foldl (fun (acc : List Nat × Nat × Nat) e =>
    let prev := acc.2.1
    if e < prev then (acc.1 ++ [prev], prev, acc.2.2 + 1)
    else if nnz < e then (acc.1 ++ [nnz], nnz, acc.2.2 + 1)
    else (acc.1 ++ [e], e, acc.2.2)) ([], 0, 0)
  (r.1, r.2.2 + (if r.2.1 < nnz then 1 else 0))

/-- Read a CSR payload; `rd k` gives word k of the payload. -/
def readCsr (rd : Nat → Nat) (h : Hdr) (t : EType) : TileRead :=
  let compl (a b : Nat) : Bool := rd a + rd b == 2 ^ 512 - 1
  if !(compl 0 1) then { TileRead.none with miss := some 0 }
  else if !(compl 2 3) then { TileRead.none with miss := some 2 }
  else
    let ends := (List.range 64).map (fun l => slot (rd (2 * (l / 32))) 16 (l % 32))
    let ee := effEnds h.nnz ends
    let last := nth 0 63 ee.1
    let badW := (List.range (ceilDiv last 32)).find? (fun k => !(compl (4 + 2 * k) (5 + 2 * k)))
    let limit := match badW with
      | some k => 32 * k
      | none => h.nnz
    let vbase := 4 + 2 * ceilDiv h.nnz 32
    let sbase := vbase + dataWords t.code h.nnz
    let ent (l k : Nat) : Option Ent × Nat :=
      let ix := slot (rd (4 + 2 * (k / 32))) 16 (k % 32)
      let p := ix % 64
      if ix ≥ 64 ∨ h.posExt ≤ p ∨ h.lineExt ≤ l then (none, k)
      else
        let b := slot (rd (vbase + k / t.code.perWord)) t.code.width (k % t.code.perWord)
        let sc := if t.scaled then slot (rd (sbase + (2 * l + p / 32) / 64)) 8 ((2 * l + p / 32) % 64) else 127
        (some ⟨p, b, sc, 0⟩, k)
    let lines := (List.range 64).map (fun l =>
      let lo := if l = 0 then 0 else nth 0 (l - 1) ee.1
      let hi := min limit (nth 0 l ee.1)
      (rangeFrom lo (hi - lo)).map (ent l))
    let dropped := lines.flatMap (fun es => es.filterMap (fun e => if e.1.isNone then some e.2 else none))
    ⟨lines.map (fun es => es.filterMap (·.1)), dropped.length, ee.2, 0, dropped.head?, badW.map (fun k => 4 + 2 * k)⟩

/-- Read an S24 payload; slots hold what R69 gives them. A slot outside the extents whose value is not zero is dropped; one whose
value is zero is not counted (R213) and reads as +0 (R59). -/
def readS24 (rd : Nat → Nat) (h : Hdr) (t : EType) : TileRead :=
  let sbase := 8 + dataWords t.code 2048
  let posOf (l g k : Nat) := slot (rd (l / 8)) 2 (32 * (l % 8) + 2 * g + k)
  let ent (l g k : Nat) : Ent :=
    let p := 4 * g + posOf l g k
    let dup := k = 1 ∧ posOf l g 0 = posOf l g 1
    let j := 32 * l + 2 * g + k
    let b := slot (rd (8 + j / t.code.perWord)) t.code.width (j % t.code.perWord)
    let sc := if t.scaled then slot (rd (sbase + (2 * l + p / 32) / 64)) 8 ((2 * l + p / 32) % 64) else 127
    if dup ∨ ((h.posExt ≤ p ∨ h.lineExt ≤ l) ∧ !(isNonzero t b sc)) then ⟨p, 0, 127, 2 * g + k⟩ else ⟨p, b, sc, 2 * g + k⟩
  let all := (List.range 64).map (fun l => (List.range 16).flatMap (fun g => [ent l g 0, ent l g 1]))
  let out (l : Nat) (e : Ent) : Bool :=
    (decide (h.posExt ≤ e.pos) || decide (h.lineExt ≤ l)) && isNonzero t e.bits e.scale
  let dups := (List.range 64).map (fun l => ((List.range 16).filter (fun g => posOf l g 0 == posOf l g 1)).length)
  let dropped := (List.range 64).flatMap (fun l => ((nth [] l all).filter (out l)).map (fun e => 32 * l + e.slotNo))
  ⟨(List.range 64).map (fun l => (nth [] l all).filter (fun e => !(out l e))), dropped.length, 0,
    dups.foldl (· + ·) 0, dropped.head?, none⟩

/-- Read a DENSE payload: the elements inside the declared extents (R59, R65). -/
def readDense (rd : Nat → Nat) (h : Hdr) (t : EType) : TileRead :=
  ⟨(List.range 64).map (fun l =>
    if l < h.lineExt then
      (List.range h.posExt).map (fun p => let e := runElem rd t 4096 (64 * l + p); ⟨p, e.1, e.2, 0⟩)
    else []), 0, 0, 0, none, none⟩

/-- Read a tile by its header; `rd k` gives word k of the payload. -/
def readTile (rd : Nat → Nat) (h : Hdr) : TileRead :=
  match h.ty, h.format with
  | some t, 1 => readDense rd h t
  | some t, 2 => readCsr rd h t
  | some t, 3 => readS24 rd h t
  | _, _ => .none

/-- What reading a tile's payload counts and reports (R69, R212, R217, R606); the first part tells whether TILE_POL stops
the unit (R607). -/
def State.noteTile (s : State) (c : Core) (block : Nat) (h : Hdr) (r : TileRead) : Bool × State :=
  let s := ((s.bumpLo (rSieveCnt c 0) r.drop).bumpHi (rSieveCnt c 0) r.ptr).bumpLo (rTilecnt1 c) r.dup
  let s := match r.first with
    | some e => if h.idxPol then s.raise fIdxRange block c.val [e] else s
    | none => s
  match r.miss with
  | some k => (s.tileStop, s.cmpMiss 2 (h.payload + 64 * k) c.val block c.val)
  | none => (false, s)

/-- The words of a tile's payload. -/
def Hdr.payWords (h : Hdr) : List Nat := if h.format = 0 then [] else (List.range h.words).map (fun k => h.payload + 64 * k)

/-- A consumer of core c reads a tile: its entries, whether the unit stops (TILE_POL, or a word that is not delivered), and the state
with what the read counts and reports (R277, R613). -/
def State.useTile (s : State) (c : Core) (block who : Nat) (h : Hdr) : TileRead × Bool × State :=
  let r := readTile (fun k => s.unitWord (h.payload + 64 * k)) h
  let w := s.readWords who h.payWords
  if w.1 = 0 then (r, w.2.noteTile c block h r) else (.none, true, w.2)

/-- Keep, of entries of one line naming one position, the one of highest number (R70): the line as the loader sees it and
the number of entries discarded. -/
def lastWins (es : List Ent) : List Ent × Nat :=
  let kept := (List.range 64).filterMap (fun p => (es.filter (fun e => e.pos == p)).getLast?)
  (kept, es.length - kept.length)

/-- The value at position p of a line: the entry there (of the two slots of an S24 group that name one position, slot 0,
R69), +0 where none is. -/
def lineVal (t : EType) (texp : Int) (es : List Ent) (p : Nat) : Fv :=
  match es.find? (fun e => e.pos == p) with
  | some e => elemVal t texp (e.bits, e.scale)
  | none => .fin false 0 0

/-- A tile expanded to dense rows (R100): values by (row, column). -/
structure DenseTile where
  ty    : EType
  lines : List (List Fv)
  gaxis : Bool
deriving DecidableEq, Repr

/-- Element (r, c) of an expanded tile. -/
def DenseTile.at (d : DenseTile) (r c : Nat) : Fv :=
  let l := if d.gaxis then c else r
  let p := if d.gaxis then r else c
  nth (.fin false 0 0) p (nth [] l d.lines)

/-- Expand what a read gave (R100, R70): the dense tile and the number of CSR entries discarded. -/
def expandTile (h : Hdr) (r : TileRead) (texp : Int) : DenseTile × Nat :=
  let t := h.ty.getD tF32
  let ls := r.lines.map (fun es => if h.format = 2 then lastWins es else (es, 0))
  (⟨t, ls.map (fun l => (List.range 64).map (lineVal t texp l.1)), h.gaxis⟩,
    if h.format = 2 then (ls.map (·.2)).foldl (· + ·) 0 else 0)

/-- Read and expand a tile as the stationary loader and the stream engines do (R100, R217, R292). -/
def State.expand (s : State) (c : Core) (block who : Nat) (h : Hdr) (texp : Int) : DenseTile × Bool × State :=
  let u := s.useTile c block who h
  let e := expandTile h u.1 texp
  (e.1, u.2.1, u.2.2.bumpHi (rTilecnt1 c) e.2)

/-! ### The compressor (R75 to R81) -/

/-- A tile in its destination type: element bits by line and position, one scale byte per half line in a scaled type. -/
structure OutTile where
  ty     : EType
  gaxis  : Bool
  rows   : Nat
  cols   : Nat
  idxPol : Bool
  uflags : Nat
  elems  : List (List Nat)
  scales : List Nat
deriving DecidableEq, Repr

def OutTile.lineExt (o : OutTile) : Nat := if o.gaxis then o.cols else o.rows
def OutTile.posExt (o : OutTile) : Nat := if o.gaxis then o.rows else o.cols

/-- Bits of line l, position p, +0 outside the declared extents (R75). -/
def OutTile.bits (o : OutTile) (l p : Nat) : Nat :=
  if l < o.lineExt ∧ p < o.posExt then nth 0 p (nth [] l o.elems) else 0
/-- Scale byte of the block of line l, position p. -/
def OutTile.scale (o : OutTile) (l p : Nat) : Nat := if o.ty.scaled then nth 127 (2 * l + p / 32) o.scales else 127
/-- Nonzero under R75. -/
def OutTile.nz (o : OutTile) (l p : Nat) : Bool :=
  decide (l < o.lineExt) && decide (p < o.posExt) && isNonzero o.ty (o.bits l p) (o.scale l p)

/-- Positions of the nonzeros of a line. -/
def OutTile.linePos (o : OutTile) (l : Nat) : List Nat := (List.range 64).filter (o.nz l)
/-- Number of nonzeros. -/
def OutTile.count (o : OutTile) : Nat := ((List.range 64).map (fun l => (o.linePos l).length)).foldl (· + ·) 0
/-- Nonzero positions of a group. -/
def OutTile.group (o : OutTile) (l g : Nat) : List Nat := (rangeFrom (4 * g) 4).filter (o.nz l)
/-- Most nonzeros in any group. -/
def OutTile.maxGroup (o : OutTile) : Nat :=
  ((List.range 64).flatMap (fun l => (List.range 16).map (fun g => (o.group l g).length))).foldl max 0

/-- Does the element at p outrank the one at q (R80)? A NaN ranks above all; equal magnitudes rank by lower position. -/
def OutTile.outranks (o : OutTile) (l p q : Nat) : Bool :=
  let v (i : Nat) := (elemVal o.ty 0 (o.bits l i, o.scale l i)).abs
  match v p, v q with
  | .nan, .nan => decide (p < q)
  | .nan, _ => true
  | _, .nan => false
  | a, b => b.lt a || (!(a.lt b) && decide (p < q))

/-- The positions PRUNE keeps in a group (R80). -/
def OutTile.kept (o : OutTile) (l g : Nat) : List Nat :=
  let ps := o.group l g
  ps.filter (fun p => decide ((ps.filter (fun q => o.outranks l q p)).length < 2))

/-- Which nonzeros an S24 slot pair of a group holds: the two positions and bits (R79). -/
def OutTile.slots (o : OutTile) (keep : Nat → Nat → List Nat) (l g : Nat) : List (Nat × Nat) :=
  let ps := keep l g
  let spare := ((rangeFrom (4 * g) 4).filter (fun p => !(ps.contains p))).take (2 - ps.length)
  let both := (rangeFrom (4 * g) 4).filter (fun p => ps.contains p || spare.contains p)
  both.map (fun p => (p % 4, if ps.contains p then o.bits l p else 0))

/-- The block-scale words of a CSR or S24 payload (Table 3-2). -/
def OutTile.scaleWords (o : OutTile) : List Nat :=
  if o.ty.scaled then
    let b := takeD 127 128 o.scales
    [packBits 8 (b.take 64), packBits 8 (b.drop 64)]
  else []

/-- The complement word of a data word. -/
def complWord (w : Nat) : Nat := 2 ^ 512 - 1 - w % 2 ^ 512

/-- Each word followed by its complement. -/
def withCompl (ws : List Nat) : List Nat := ws.flatMap (fun w => [w, complWord w])

/-- A DENSE payload (R65). A block without elements has the scale byte of a block of zeros (R48; DESIGN CHOICE: the spec names none
for blocks outside the declared extents). -/
def OutTile.dense (o : OutTile) : List Nat :=
  packRun o.ty ((List.range 64).flatMap (fun l => (List.range 64).map (o.bits l))) (takeD 127 128 o.scales)

/-- A CSR payload (R66, R67). -/
def OutTile.csr (o : OutTile) : List Nat :=
  let ps := (List.range 64).map o.linePos
  let ends := (ps.foldl (fun (a : List Nat × Nat) l => (a.1 ++ [a.2 + l.length], a.2 + l.length)) ([], 0)).1
  let vals := (List.range 64).flatMap (fun l => (o.linePos l).map (o.bits l))
  withCompl ((chunks 32 2 ends).map (packBits 16)) ++ withCompl ((chunks 32 4096 (ps.flatMap id)).map (packBits 16))
    ++ packWords o.ty.code vals ++ o.scaleWords

/-- An S24 payload (R68, R79). -/
def OutTile.s24 (o : OutTile) (keep : Nat → Nat → List Nat) : List Nat :=
  let sl := (List.range 64).flatMap (fun l => (List.range 16).flatMap (o.slots keep l))
  (chunks 256 8 (sl.map (·.1))).map (packBits 2) ++ packWords o.ty.code (sl.map (·.2)) ++ o.scaleWords

/-- What the compressor writes: format, payload words, NNZ and the number of values PRUNE dropped. -/
structure Compressed where
  format  : Nat
  payload : List Nat
  nnz     : Nat
  pruned : Nat
deriving DecidableEq, Repr

/-- The choice of encoding (R77). `s24` is the target, `prune` the policy. -/
def OutTile.compress (o : OutTile) (s24 prune : Bool) (cut : Nat) : Compressed :=
  let n := o.count
  let bySize : Compressed :=
    if n ≥ cut ∨ csrWords o.ty n ≥ denseWords o.ty then ⟨1, o.dense, n, 0⟩ else ⟨2, o.csr, n, 0⟩
  if n = 0 then ⟨0, [], 0, 0⟩
  else if s24 ∧ o.ty.code ≠ .int32 then
    if o.maxGroup ≤ 2 then ⟨3, o.s24 o.group, n, 0⟩
    else if prune then
      let kept := ((List.range 64).flatMap (fun l => (List.range 16).map (fun g => (o.kept l g).length))).foldl (· + ·) 0
      ⟨3, o.s24 o.kept, kept, n - kept⟩
    else bySize
  else bySize

/-- The header the compressor writes (R62, R78) for a payload at a full address; `prune` is the operation's policy. -/
def OutTile.header (o : OutTile) (z : Compressed) (prune : Bool) (payAddr : Nat) : BitVec 256 :=
  BitVec.ofNat 256 (z.format + at' o.ty.field 2 + at' (b2n o.gaxis) 7 + at' (b2n prune) 8 + at' (b2n o.idxPol) 9
    + at' (o.rows - 1) 16 + at' (o.cols - 1) 22 + at' z.nnz 32 + at' o.uflags 48
    + (if z.format = 0 then 0 else at' (payAddr % 2 ^ 64) 64 + at' z.payload.length 128))

/-- The 64 bytes of a header pair (R60). -/
def pairBytes (h : BitVec 256) : List Byte := let b := bytesOf 32 h.toNat; b ++ complBytes b

end Sys2Proof.Machine
end

