-- ==== Sys2Proof/Machine/Operands.lean ====
section
/-! DEFINITION. Operand forms: the fields of the step formats (Table 11-4), tile descriptors (Table 11-14), the layouts of
Table 9-4 with the checks of R264, and the reading and writing of rows through a descriptor. -/
namespace Sys2Proof.Machine

/-! ### Step words (R325, Tables 11-3 and 11-4) -/

abbrev W := StepWord
def W.opcode (w : StepWord) : Nat := fld w 120 8
def W.psel (w : StepWord) : Nat := fld w 116 4
def W.psense (w : StepWord) : Bool := bitOf w 115
def W.cls (w : StepWord) : Nat := fld w 112 3

/-- Format A. -/
def W.aXD (w : StepWord) : Nat := fld w 107 5
def W.aXA (w : StepWord) : Nat := fld w 102 5
def W.aXB (w : StepWord) : Nat := fld w 97 5
def W.aPD (w : StepWord) : Nat := fld w 94 3
def W.aSUB (w : StepWord) : Nat := fld w 90 4
def W.aIMMB (w : StepWord) : Bool := bitOf w 89
def W.imm (w : StepWord) : Nat := fld w 0 64

/-- Formats B and C. -/
def W.guard (w : StepWord) : Guard :=
  ⟨fld w 106 6, bitOf w 105, bitOf w 104, fld w 98 6, bitOf w 97⟩
def W.ta (w : StepWord) : Nat := fld w 92 4
def W.tb (w : StepWord) : Nat := fld w 88 4
def W.tc (w : StepWord) : Nat := fld w 84 4
def W.xa (w : StepWord) : Nat := fld w 79 5
def W.xb (w : StepWord) : Nat := fld w 74 5
def W.xc (w : StepWord) : Nat := fld w 69 5
def W.xd (w : StepWord) : Nat := fld w 64 5
def W.fn (w : StepWord) (lo len : Nat) : Nat := fld w lo len
def W.fnb (w : StepWord) (i : Nat) : Bool := bitOf w i
def W.fimm (w : StepWord) : W32 := BitVec.ofNat 32 (fld w 32 32)

/-- Format D. -/
def W.dFLAG (w : StepWord) : Nat := fld w 106 6
def W.dSTATE (w : StepWord) : Bool := bitOf w 105
def W.dXA (w : StepWord) : Nat := fld w 100 5
def W.dXB (w : StepWord) : Nat := fld w 95 5
def W.dXD (w : StepWord) : Nat := fld w 90 5
def W.dPD (w : StepWord) : Nat := fld w 87 3
def W.dPDE (w : StepWord) : Bool := bitOf w 86
def W.dQUEUE (w : StepWord) : Nat := fld w 75 11

/-- Format E. -/
def W.eLC (w : StepWord) : Nat := fld w 109 3
def W.eXA (w : StepWord) : Nat := fld w 104 5
def W.eXSRC (w : StepWord) : Bool := bitOf w 103
def W.eCOUNT (w : StepWord) : W32 := BitVec.ofNat 32 (fld w 32 32)
def W.eTARGET (w : StepWord) : Int := signed 32 (fld w 0 32)

/-- Format F. -/
def W.fFLAG (w : StepWord) : Nat := fld w 106 6
def W.fFLAGEN (w : StepWord) : Bool := bitOf w 105
def W.fCTX (w : StepWord) : Nat := fld w 102 3
def W.fXA (w : StepWord) : Nat := fld w 97 5
def W.fXB (w : StepWord) : Nat := fld w 92 5

/-- The steps of formats B and C carry a guard field (Table 11-4). -/
def hasGuard (op : Nat) : Bool :=
  decide (op ≤ 0x07) || (decide (0x20 ≤ op) && decide (op < 0x80)) || op == 0xAC

/-- The opcodes of Tables 11-6 to 11-13 (R329). -/
def opcodeKnown (op : Nat) : Bool :=
  [0x00, 0x01, 0x02, 0x03, 0x04, 0x05, 0x06, 0x08, 0x09, 0x0A, 0x0B, 0x20, 0x21, 0x22, 0x23, 0x40, 0x41, 0x42, 0x43, 0x44,
   0x60, 0x61, 0x62, 0x63, 0x64, 0x65, 0x80, 0x81, 0x82, 0x83, 0xA0, 0xA1, 0xA2, 0xA3, 0xA4, 0xA5, 0xA8, 0xA9, 0xAA, 0xAC,
   0xAE, 0xAF, 0xC0, 0xC1, 0xE0, 0xE1, 0xE2, 0xE8, 0xE9].contains op

/-! ### Descriptors (Table 11-14) -/

def D.base (d : Desc) : Nat := fld d 0 64
def D.hdrp (d : Desc) : Nat := fld d 64 64
def D.pitch (d : Desc) : Nat := fld d 128 32
def D.rows (d : Desc) : Nat := fld d 160 24 + 1
def D.cols (d : Desc) : Nat := fld d 184 24 + 1
def D.etyField (d : Desc) : Nat := fld d 208 5
def D.ety (d : Desc) : Option EType := EType.ofField (fld d 208 5)
def D.layout (d : Desc) : Nat := fld d 213 2
def D.tiled (d : Desc) : Bool := bitOf d 215
def D.scaleEn (d : Desc) : Bool := bitOf d 216
def D.scaleW (d : Desc) : Nat := fld d 217 18
def D.gaxis (d : Desc) : Bool := bitOf d 235
def D.idxPol (d : Desc) : Bool := bitOf d 236
def D.uflags (d : Desc) : Nat := fld d 237 8
/-- Tile columns of a TILED operand (R340). -/
def D.tileCols (d : Desc) : Nat := ceilDiv (D.cols d) 64
def D.tileRows (d : Desc) : Nat := ceilDiv (D.rows d) 64
/-- Full address of the header pair of tile (i, j) (R340). -/
def D.pairAddr (d : Desc) (i j : Nat) : Nat := D.hdrp d + 64 * (i * D.tileCols d + j)

/-- The tensor exponent of a descriptor (R342): none where the scale byte is 0x80. -/
def State.tensorExp (s : State) (c : Core) (d : Desc) : Option Int :=
  if D.scaleEn d then
    let b := s.wordAt (pantryBase c + 64 * D.scaleW d) % 256
    if b = 0x80 then none else some (signed 8 b)
  else some 0

/-! ### Layouts (R260 to R264) -/

/-- Storage words of a row of n elements. -/
def rowWords (t : EType) (n : Nat) : Nat := runWords t n

/-- The word offset of storage word w of row r (Table 9-4); rw is the number of words in a row. -/
def layoutWord (layout pitch rw r w : Nat) : Nat :=
  match layout with
  | 1 => r * pitch + 64 * (w / 64) + ((w % 64) ^^^ (r % 64))
  | 2 => 64 * (ceilDiv rw 2 * (r / 32) + w / 2) + 2 * (r % 32) + w % 2
  | _ => r * pitch + w

/-- A type that the turn tile does not take (R267). -/
def turnType (t : EType) : Bool := t.scaled || [Code.e3m2, .e2m3, .e2m1, .int4].contains t.code

/-- The lowest of the reason codes whose conditions hold (R264). -/
def firstCode (cs : List (Nat × Bool)) : Option Nat := (cs.find? (·.2)).map (·.1)

/-- The reason code of Table 9-5 for an operand, if any; `compute` is set for the steps of R261, `turn` for a transposing
read of a type (R267). A TILED operand has no rows of its own: its base and its header pointer are aligned (R263, Table 11-14),
and its layout code is held to R261 and to code 3 (DESIGN CHOICE: the spec does not say what LAYOUT means with TILED). -/
def panBad (d : Desc) (t : EType) (compute turn : Bool) : Option Nat :=
  let td := D.tiled d
  firstCode [
    (1, D.base d % 64 != 0 || (td && D.hdrp d % 64 != 0)
      || (!td && D.layout d == 0 && decide (D.pitch d < rowWords t (D.cols d)))),
    (2, !td && D.layout d == 1 && ((D.base d / 64) % 64 != 0 || D.pitch d % 64 != 0)),
    (3, D.layout d == 2 && (compute || (!td && t.scaled))),
    (4, turn && !td && turnType t),
    (5, D.layout d == 3)]

/-- R264: a step refused for an operand. -/
def State.panReject (s : State) (c : Core) (reason : Nat) : State :=
  (s.bumpLo (rPanCnt c 2) 1).raise fPanBad 5 c.val [reason]

/-- The full byte address of the word k words from address a: within the pantry where a lies in one, whose addresses wrap
(R265). -/
def wrapWord (a : Nat) (k : Int) : Nat :=
  if localOf a < 48 * 0x1000000 then
    a / 0x1000000 * 0x1000000 + 64 * ((((a % 0x1000000 / 64 : Nat) : Int) + k) % 262144).toNat
  else 64 * unsign 58 (((a / 64 : Nat) : Int) + k)

/-- Full byte address of storage word w of row r of an untiled operand. -/
def D.wordAddr (d : Desc) (t : EType) (r w : Nat) : Nat :=
  wrapWord (D.base d) (layoutWord (D.layout d) (D.pitch d) (rowWords t (D.cols d)) r w)

/-- Clamp a row or column to its extent (R268). -/
def clampTo (x n : Nat) : Nat := min x (n - 1)

/-- The elements of one row of an untiled operand, clamped to its rows (R268); none where the descriptor's type is refused
by R23. -/
def State.rowVals (s : State) (d : Desc) (t : EType) (texp : Int) (r : Nat) : List Fv :=
  let r := clampTo r (D.rows d)
  (List.range (D.cols d)).map (fun j => elemVal t texp (runElem (fun w => s.unitWord (D.wordAddr d t r w)) t (D.cols d) j))

/-- Element j of row r, both clamped (R268). -/
def State.elemOf (s : State) (d : Desc) (t : EType) (texp : Int) (r j : Nat) : Fv :=
  let r := clampTo r (D.rows d)
  let j := clampTo j (D.cols d)
  elemVal t texp (runElem (fun w => s.unitWord (D.wordAddr d t r w)) t (D.cols d) j)

/-- The expanded tile (i, j) of a TILED operand; every refused tile is EMPTY (R100, R340). -/
def State.tileAt (s : State) (d : Desc) (texp : Int) (i j : Nat) : DenseTile :=
  match judgeHdr (s.unitWord (D.pairAddr d i j)) with
  | .ok h => (expandTile h (readTile (fun k => s.unitWord (h.payload + 64 * k)) h) texp).1
  | _ => ⟨tF32, [], false⟩

/-- Element (r, j) of an operand, tiled or not, each coordinate clamped to its extent (R268, R340). -/
def State.valAt (s : State) (d : Desc) (t : EType) (texp : Int) (r j : Nat) : Fv :=
  if D.tiled d then
    let r := clampTo r (D.rows d)
    let j := clampTo j (D.cols d)
    (s.tileAt d texp (r / 64) (j / 64)).at (r % 64) (j % 64)
  else s.elemOf d t texp r j

/-- The tiles (i, j) of rows i0.. and columns j0... -/
def tileGrid (i0 n j0 m : Nat) : List (Nat × Nat) := (rangeFrom i0 n).flatMap (fun i => (rangeFrom j0 m).map (fun j => (i, j)))

/-- Does a tile of a TILED operand, read transposed, hold a type that the turn tile does not take (R267)? Each header's type decides
(R340); the headers are judged at decode (DEDUCED from R264 and R267). -/
def State.tilesTurnBad (s : State) (d : Desc) (i0 n j0 m : Nat) : Bool :=
  (tileGrid i0 n j0 m).any (fun p => match judgeHdr (s.unitWord (D.pairAddr d p.1 p.2)) with
    | .ok h => h.format != 0 && (match h.ty with
      | some t => turnType t
      | none => false)
    | _ => false)

/-- How many of the words that hold elements e0 to e0 + len - 1 of a row of n elements lie wholly beyond it, pw elements to a word: each
is read at the row's last word (R268; DESIGN CHOICE: one clamped word for each such word). -/
def wordsBeyond (pw n e0 len : Nat) : Nat := if len = 0 then 0 else (e0 + len - 1) / pw - max ((n - 1) / pw) (e0 / pw - 1)

/-- Count and report what reading tiles of a TILED operand does: rows i0.., columns j0.. (R73, R217, R606); the flag tells that the
unit stops. The vector unit keeps the last of repeated CSR entries and counts the others in IDX_DUP, as the loader does (DESIGN CHOICE:
R70 names only the loader and the sieve engine, block 3, which uses every entry). -/
def State.countTiles (s : State) (c : Core) (block who : Nat) (d : Desc) (i0 n j0 m : Nat) : Bool × State :=
  (tileGrid i0 n j0 m).foldl (fun r p =>
    let u := r.2.useHdr c block who (D.pairAddr d p.1 p.2)
    let e : Bool × State := if block = 3 then (u.2.2.useTile c block who u.1).2 else (u.2.2.expand c block who u.1 0).2
    (r.1 || u.2.1 || e.1, e.2)) (false, s)

/-- The type of a tile that holds anything, by its header pair (R340); none where it is EMPTY or refused. -/
def State.hdrType (s : State) (addr : Nat) : Option EType :=
  match judgeHdr (s.unitWord addr) with
  | .ok h => if h.format = 0 then none else h.ty
  | _ => none

/-- How many words of a read of elements e0.. of n rows from row r0 of a TILED operand are clamped (R268; DESIGN CHOICE: as many as
such rows of each tile's type would be, an EMPTY tile having none). -/
def State.tileClamps (s : State) (d : Desc) (r0 n e0 len : Nat) : Nat :=
  if len = 0 ∨ (r0 + n ≤ D.rows d ∧ e0 + len ≤ D.cols d) then 0
  else
    let pw (i j : Nat) : Option Nat := (s.hdrType (D.pairAddr d i j)).map (fun t => t.code.perWord)
    let inTile (i j : Nat) : Nat := match pw i j with
      | some p =>
        let lo := max e0 (64 * j)
        let hi := min (e0 + len) (min (64 * j + 64) (D.cols d))
        if lo < hi then (hi - 1) / p - lo / p + 1 else 0
      | none => 0
    ((rangeFrom r0 n).map (fun r =>
      let i := clampTo r (D.rows d) / 64
      (match pw i (D.tileCols d - 1) with
        | some p => wordsBeyond p (D.cols d) e0 len
        | none => 0)
        + (if D.rows d ≤ r then ((List.range (D.tileCols d)).map (inTile i)).sum else 0))).sum

/-- The storage words of the data words `ws` of a run of n elements, with the scale words of their courses (R30, R262). -/
def withScales (t : EType) (n : Nat) (ws : List Nat) : List Nat :=
  ws.map (storageWord t.scaled) ++ (if t.scaled then ((ws.map (· / 16)).eraseDups).map (scaleWord t.code n) else [])

/-- The storage words that a read of elements e0 to e0 + len - 1 of a row takes, in order, those beyond the row at its last word, and how
many are clamped so (R268). -/
def D.runOf (d : Desc) (t : EType) (e0 len : Nat) : List Nat × Nat :=
  if len = 0 then ([], 0) else
  let pw := t.code.perWord
  (withScales t (D.cols d) ((rangeFrom (e0 / pw) ((e0 + len - 1) / pw - e0 / pw + 1)).map (min ((D.cols d - 1) / pw))),
    wordsBeyond pw (D.cols d) e0 len)

/-- How many words of such a read are clamped, row r being one of `rows` (R268): all of them in a row beyond the last. -/
def clampedWords (rows r : Nat) (run : List Nat × Nat) : Nat := if rows ≤ r then run.1.length else run.2

/-- The slots that an access to words, by word number, occupies beyond its first (R259). -/
def slotsBeyond (ws : List Nat) : Nat :=
  ((List.range 64).map (fun b => (ws.filter (fun w => w % 64 == b)).length)).foldl max 0 - 1

/-- Count the slots that an access to words at full addresses occupies beyond its first (R259), in the pantry that holds them; monitors of
source 5 take them (Table 23-6). -/
def State.countSlots (s : State) (addrs : List Nat) : State :=
  match addrs with
  | [] => s
  | a :: _ => match pantryOf (localOf a) with
    | some (c, _) =>
      let n := slotsBeyond (addrs.map (· / 64))
      if a / 2 ^ 48 == s.devId.toNat then (s.bumpHi (rPanCnt c 1) n).monCore c 5 n else s
    | none => s

/-- Words that a unit reads in order, in accesses of at most 64 words (R259; DESIGN CHOICE: the spec does not say how a unit's read falls
into accesses). -/
def State.countWords (s : State) (addrs : List Nat) : State := (chunks 64 addrs.length addrs).foldl State.countSlots s

/-- The side of a turn square and the words of its rows (R266). -/
def turnSide (t : EType) : Nat := if t.code.width = 8 then 64 else 32
def turnWords (t : EType) : Nat := if t.code.width = 32 then 2 else 1

/-- The turn squares of a transposing read of rows r0.. and elements e0.. of an untiled operand: each square is one access (R259,
R266). -/
def State.countSquares (s : State) (d : Desc) (t : EType) (r0 n e0 m : Nat) : State :=
  let k := turnSide t
  let tw := turnWords t
  (tileGrid (r0 / k) (ceilDiv n k) (e0 / k) (ceilDiv m k)).foldl (fun s p =>
    s.countSlots ((rangeFrom (k * p.1) k).flatMap (fun r => (rangeFrom (tw * p.2) tw).map (fun w =>
      D.wordAddr d t (clampTo r (D.rows d)) (min w (dataWords t.code (D.cols d) - 1)))))) s

/-- What reading elements e0.. of n rows from row r0 counts, straight or turned: invalid words (R277), words at clamped rows and columns
(R268), slots beyond the first of each access (R259, R266); and the first reason why a word is not delivered (R613). -/
def State.countRows (s : State) (c : Core) (who : Nat) (d : Desc) (t : EType) (turn : Bool) (r0 n e0 len : Nat) : Nat × State :=
  let run := D.runOf d t e0 len
  let rows := rangeFrom r0 n
  let words := rows.flatMap (fun r => run.1.map (fun w => D.wordAddr d t (clampTo r (D.rows d)) w))
  let r := s.readWords who words
  let s := r.2.bumpHi (rPanCnt c 0) (rows.map (fun r => clampedWords (D.rows d) r run)).sum
  (r.1, if turn then s.countSquares d t r0 n e0 len else s.countWords words)

/-- Write bytes at a full address as requester `who`: 0, or the reason of a failure (R307). A partial word is read, checked and merged
(R258, R399); where memory is not populated nothing is written (R400). Nothing is written here where the address is another
device's or the companion's (its target takes the write), or a register or queue page. -/
def State.wrFull (s : State) (who a : Nat) (bs : List Byte) : Nat × State :=
  if a / 2 ^ 48 % 65536 == s.devId.toNat && decide (localOf a < 2 ^ 47) then
    if inRegs (localOf a) || (decide (0x60000000 ≤ localOf a) && decide (localOf a < 0x68000000)) then (0, s)
    else s.wordsWrite who (piecesOf (localOf a) bs.length) bs
  else (0, s)

/-- A unit writes bytes. -/
def State.put (s : State) (who a : Nat) (bs : List Byte) : State := (s.wrFull who a bs).2

/-- Write words of one row of an untiled operand, each with its place (R244); words outside the extents are not written (R269). -/
def State.writeRow (s : State) (c : Core) (who : Nat) (d : Desc) (t : EType) (r : Nat) (ws : List (Nat × Nat)) : State :=
  let ok (p : Nat × Nat) : Bool := decide (r < D.rows d) && decide (p.1 < rowWords t (D.cols d))
  ((ws.filter ok).foldl (fun s p => s.put who (D.wordAddr d t r p.1) (bytesOf 64 p.2)) s).bumpLo (rPanCnt c 1)
    (ws.filter (fun p => !(ok p))).length

/-- The elements that storage word w of a run of n holds, or whose scale bytes it holds: the first, and how many. -/
def wordSpan (t : EType) (n w : Nat) : Nat × Nat :=
  let pw := t.code.perWord
  if t.scaled then
    let c := w / 17
    if w = scaleWord t.code n c then (16 * c * pw, min (16 * pw) (n - 16 * c * pw))
    else let d := 16 * c + w % 17; (d * pw, min pw (n - d * pw))
  else (w * pw, min pw (n - w * pw))

/-- Write elements into row r of an untiled operand: bits and block scale bytes, none where the row keeps what it holds. A word that
keeps everything is not written; one that keeps something is read first (R258, R277), which `check` counts. The flag tells that such
a word was not delivered. -/
def State.writeRun (s : State) (c : Core) (who : Nat) (check : Bool) (d : Desc) (t : EType) (r : Nat) (es scs : List (Option Nat)) :
    Bool × State :=
  let n := D.cols d
  let len := es.length
  let old (e : Nat) : Nat × Nat := runElem (fun w => s.unitWord (D.wordAddr d t r w)) t n e
  let m := max n len
  let bits := (List.range m).map (fun e => match nth none e es with
    | some b => b
    | none => if e < n then (old e).1 else 0)
  let scales := (List.range (ceilDiv m 32)).map (fun b => match nth none b scs with
    | some x => x
    | none => if 32 * b < n then (old (32 * b)).2 else 127)
  let set (w : Nat) (x : Bool) : Bool := let p := wordSpan t n w; (rangeFrom p.1 p.2).any (fun e => (nth none e es).isSome == x)
  let inside := (List.range (rowWords t n)).filter (fun w => set w true)
  let part := inside.filter (fun w => set w false)
  let u := if check && decide (r < D.rows d) then s.readWords who (part.map (D.wordAddr d t r)) else (0, s)
  if u.1 ≠ 0 then (true, u.2)
  else
    let ws := packRun t (bits.take n) (scales.take (ceilDiv n 32))
    let beyond := rowWords t len - rowWords t n
    (false, (u.2.writeRow c who d t r (inside.map (fun w => (w, nth 0 w ws)))).bumpLo (rPanCnt c 1) beyond)

/-- A descriptor whose base lies in the own accumulator window of core c (R156, R333). -/
def State.ownAcc (s : State) (c : Core) (d : Desc) : Bool := s.inOwnAcc c (D.base d)

end Sys2Proof.Machine
end

