-- ==== Sys2Proof/Machine/Arith.lean ====
section
/-! DEFINITION. Products, trees and accumulator adds (R31 to R39, R87, R107 to R111): the arithmetic of the arrays, shared
with the sieve engine. -/
namespace Sys2Proof.Machine

/-- Is a magnitude m * 2^e between 2^-149 and the largest finite FP32 value? -/
def inF32Range (m : Nat) (e : Int) : Bool :=
  decide (0 ≤ cmpFin false m e false 1 (-149)) && decide (cmpFin false m e false 0xFFFFFF 104 ≤ 0)

/-- A product of two elements (R31 to R33): exact where its magnitude is in range, else rounded once to FP32. -/
def product (a b : Fv) : Fv :=
  match a.mul b with
  | .fin n m e => if m = 0 ∨ inF32Range m e then .fin n m e else f32 (toF32 .rne (.fin n m e))
  | v => v

/-- The value of an FP32 sum node (R36): rounded to nearest even. -/
def nodeAdd (a b : Fv) : Fv := f32 (toF32 .rne (a.add b))

/-- One level of a tree: node i adds inputs 2i and 2i+1. -/
def pairLevel : List Fv → List Fv
  | a :: b :: l => nodeAdd a b :: pairLevel l
  | l => l

/-- +0. -/
def fvZero : Fv := .fin false 0 0

/-- A tree of 2^levels inputs with the fixed pairing; absent inputs are +0 (R36). -/
def tree (levels : Nat) (l : List Fv) : Fv := nth fvZero 0 (levels.repeat pairLevel (takeD fvZero (2 ^ levels) l))

/-- The integer an exact value stands for (integer types only). -/
def Fv.toInt : Fv → Int
  | .fin n m e => (if n then -1 else 1) * (m * 2 ^ e.toNat : Nat)
  | _ => 0

/-- The exact sum of integer inputs (R38). -/
def intSum (l : List Fv) : Int := (l.map Fv.toInt).foldl (· + ·) 0

/-- What a tree sends to an accumulator: a float or an exact integer. -/
inductive TreeOut | flt (v : Fv) | int (i : Int)
deriving DecidableEq, Repr

/-- One accumulator add: the new word and how often SAT advances (R36, R38, R39). -/
def accAdd (nc : NumCtl) (old : W32) : TreeOut → W32 × Nat
  | .flt v => (toF32 .rne ((f32 old).add v), 0)
  | .int i => i32add nc old i

/-- A sum of words as an accumulator add of one word onto another. -/
def wordAdd (nc : NumCtl) (isInt : Bool) (old new : W32) : W32 × Nat :=
  accAdd nc old (if isInt then .int new.toInt else .flt (f32 new))

/-- The arithmetic of two operand types: none where R24 refuses the pair. An unknown type is that of an EMPTY operand and
pairs with any. -/
def pairArith (a b : Option EType) : Option Bool :=
  match a, b with
  | some x, some y => if x.isInt = y.isInt then some x.isInt else none
  | some x, none => some x.isInt
  | none, some y => some y.isInt
  | none, none => some false

/-- The three pairs of parts an FP32 pass forms, in order hi·lo, lo·hi, hi·hi, the broadcast operand first (R108). -/
def fp32Parts : List (Bool × Bool) := [(true, false), (false, true), (true, true)]

/-- One part of a split operand (R35, R93): an operand that is not FP32 is hi alone, unrounded (DESIGN CHOICE of an FP16 operand, whose
significand BF16 does not hold: Table 4-1 writes hi = BF16(x), R93 gives lo = +0). -/
def partOf (isF32 : Bool) (hi : Bool) (v : Fv) : Fv :=
  if isF32 then (if hi then (splitF32 v).1 else (splitF32 v).2) else if hi then v else fvZero

end Sys2Proof.Machine
end

