-- ==== Sys2Proof/Machine/Array.lean ====
section
/-! DEFINITION. The MAC array (spec/04_mac_array.md): loading of stationary planes, acceptance of passes, the arithmetic of
dot, transposed dot and outer passes, export and the accumulator steps of R155. -/
namespace Sys2Proof.Machine

/-! ### Stationary planes (R85, R86, R98 to R100, R675) -/

def ArrSt.plane (x : ArrSt) (one : Bool) : Plane := if one then x.p1 else x.p0
def ArrSt.setPlane (x : ArrSt) (one : Bool) (p : Plane) : ArrSt := if one then { x with p1 := p } else { x with p0 := p }

/-- The plane that is active once a swap still to take place has taken place (R103). -/
def ArrSt.activeNext (x : ArrSt) : Bool := x.active != x.swap

/-- The swap (R103): the planes exchange roles. -/
def ArrSt.doSwap (x : ArrSt) : ArrSt := if x.swap then { x with active := !x.active, swap := false } else x

/-- Build the cells of a plane from a function of row and column. -/
def buildCells (f : Nat → Nat → Cell) : SMap Cell :=
  (List.range 4096).foldl (fun m k => SMap.put (fun _ => Cell.zero) k (f (k / 64) (k % 64)) m) []

def Plane.cell (p : Plane) (r c : Nat) : Cell := p.cells.get (fun _ => Cell.zero) (64 * r + c)

/-- The slot pair of group g of line l of an S24 tile as an S24 layout loads it (R675, R79, R69). -/
def s24Pair (t : EType) (texp : Int) (es : List Ent) (g : Nat) : (Nat × Fv) × (Nat × Fv) :=
  let e0 := es.find? (fun e => e.slotNo == 2 * g)
  let e1 := es.find? (fun e => e.slotNo == 2 * g + 1)
  let v (e : Ent) : Fv := elemVal t texp (e.bits, e.scale)
  let freeFor (p : Nat) : Nat := if p % 4 = 0 then 1 else 0
  match e0, e1 with
  | some a, some b => ((a.pos % 4, v a), (b.pos % 4, v b))
  | some a, none =>
    let q := freeFor a.pos
    if q < a.pos % 4 then ((q, fvZero), (a.pos % 4, v a)) else ((a.pos % 4, v a), (q, fvZero))
  | none, some b =>
    let q := freeFor b.pos
    if q < b.pos % 4 then ((q, fvZero), (b.pos % 4, v b)) else ((b.pos % 4, v b), (q, fvZero))
  | none, none => ((0, fvZero), (1, fvZero))

/-- One source tile of a load as the loader reads it: its dense form and its S24 entries. -/
structure SrcTile where
  dense : DenseTile
  ty    : Option EType
  texp  : Int
  lines : List (List Ent)
deriving DecidableEq, Repr

/-- The type that a plane takes from its source tiles, and whether they mix integer and floating types (R24). Of tiles of different
types the plane takes FP32 where a tile has it (R93), else the type of the first tile that is not EMPTY (DESIGN CHOICE: the spec
does not say what such a load gives). -/
def planeType (tys : List EType) : Option EType × Bool :=
  (if tys.any (fun t => t.code == .fp32) then some tF32 else tys.head?, tys.any (·.isInt) && tys.any (fun t => !t.isInt))

/-- The planes a load writes (Table 4-1): the plane, and for an FP32 load its FP32_LO partner. A source of another type than FP4 or INT4
fills a PAIR layout too, both elements of each cell (DESIGN CHOICE: Table 4-1 gives those layouts FP4 and INT4 content and names no
rejection); the products of a cell are then summed exactly. -/
def buildPlanes (layout : Nat) (ts : List SrcTile) : Plane × Plane :=
  let z : SrcTile := ⟨⟨tF32, [], false⟩, none, 0, []⟩
  let t (i : Nat) : SrcTile := nth z i ts
  let pt := planeType (ts.filterMap (·.ty))
  let ty := pt.1
  let mx := pt.2
  let one (v : Fv) : Cell := ⟨v, fvZero, 0, 1⟩
  let isF32 (x : SrcTile) : Bool := match x.ty with
    | some y => y.code == .fp32
    | none => false
  match layout with
  | 2 => (⟨2, ty, mx, buildCells (fun r c => ⟨(t (2 * r / 64)).dense.at (2 * r % 64) c,
        (t ((2 * r + 1) / 64)).dense.at ((2 * r + 1) % 64) c, 0, 1⟩)⟩, .none)
  | 3 => (⟨3, ty, mx, buildCells (fun r c => ⟨(t (2 * c / 64)).dense.at r (2 * c % 64),
        (t ((2 * c + 1) / 64)).dense.at r ((2 * c + 1) % 64), 0, 1⟩)⟩, .none)
  | 4 => (⟨4, ty, mx, buildCells (fun r c =>
        let x := t (r / 32)
        let p := s24Pair (x.ty.getD tF32) x.texp (nth [] c x.lines) ((r % 32) / 2)
        let s := if r % 2 = 0 then p.1 else p.2
        ⟨s.2, fvZero, s.1, 1⟩)⟩, .none)
  | 5 => (⟨5, ty, mx, buildCells (fun r c =>
        let x := t (r / 16)
        let p := s24Pair (x.ty.getD tF32) x.texp (nth [] c x.lines) (r % 16)
        ⟨p.1.2, p.2.2, p.1.1, p.2.1⟩)⟩, .none)
  | 6 => (⟨6, ty, mx, buildCells (fun r c => one (partOf (isF32 (t 0)) true ((t 0).dense.at r c)))⟩,
          ⟨7, ty, mx, buildCells (fun r c => one (partOf (isF32 (t 0)) false ((t 0).dense.at r c)))⟩)
  | _ => (⟨1, ty, mx, buildCells (fun r c => one ((t 0).dense.at r c))⟩, .none)

/-- How many tiles a layout takes, and whether they lie side by side on N (Table 11-6, LOAD). -/
def layoutTiles (layout : Nat) : List (Nat × Nat) :=
  match layout with
  | 2 => [(0, 0), (1, 0)]
  | 3 => [(0, 0), (0, 1)]
  | 4 => [(0, 0), (1, 0)]
  | 5 => [(0, 0), (1, 0), (2, 0), (3, 0)]
  | _ => [(0, 0)]

/-- Does a source tile keep a load out of an S24 layout (R675)? -/
def s24Refuses (layout : Nat) (h : Hdr) : Bool :=
  match h.format with
  | 0 => false
  | 3 => !h.gaxis || (layout == 5 && (match h.ty with
      | some t => t.code != .e2m1 && t.code != .int4
      | none => false))
  | _ => true

/-- An array's rejection of a step (R94): ARR_BADCNT and an ARR_MODE record with the reason code. -/
def State.arrReject (s : State) (c : Core) (a : Arr) (reason : Nat) : State :=
  (s.bumpHi (rArrCnt1 c a) 1).raise fArrMode 1 c.val [reason]

/-! ### Acceptance of passes (R94, R102, R109, R114, R150) -/

/-- Table 4-3: does a mode accept a layout? An FP32 pair counts as layout 6. -/
def modeTakes (mode layout : Nat) : Bool :=
  match mode with
  | 0 => [1, 2, 4, 5, 6].contains layout
  | 1 => [1, 3, 4, 5, 6].contains layout
  | _ => true

/-- The loads a NEXT pass may consume, oldest first, with their layouts (R102). -/
def ArrSt.openLoads (x : ArrSt) (before : Nat) : List (Nat × Nat) :=
  (match x.loaded with
    | some n => if x.taken ∨ before ≤ n then [] else [(n, (x.plane (!x.activeNext)).layout)]
    | none => []) ++
  (x.loadq.filter (fun j => !j.consumed && j.layout != 6 && decide (j.seq < before))).map (fun j => (j.seq, j.layout))

/-- Does an FP32 load issued before a pass wait or write (R114)? No NEXT pass consumes it (R109). -/
def ArrSt.fp32Waits (x : ArrSt) (before : Nat) : Bool := x.loadq.any (fun j => j.layout == 6 && decide (j.seq < before))

/-- The reason a pass is rejected for, lowest code first, or the load it consumes (R94). `vbad` tells that the pass's feed is queued
and names another VCOUNT (R330). The FP32 pair is there until a load of another layout is done, so a NEXT pass that comes before
that load is done meets code 6 (DEDUCED from R109). -/
def ArrSt.judge (x : ArrSt) (seq mode : Nat) (next : Bool) (base v : Nat) (vbad : Bool) : Except Nat (Option Nat) :=
  if mode = 2 then .ok none
  else
    let ls := x.openLoads seq
    let lay := if next then (ls.head?.map (·.2)).getD 0 else (x.plane x.activeNext).layout
    let pend := if next then ls.drop 1 else ls
    match firstCode [
      (1, (!next && !(modeTakes mode lay)) || (next && !x.fp32 && !ls.isEmpty && !(modeTakes mode lay))),
      (2, next && ls.isEmpty),
      (3, mode == 1 && (lay == 4 || lay == 5) && (!pend.isEmpty || x.fp32Waits seq)),
      (4, decide (1023 < base + v - 1)),
      (5, vbad && next && x.fp32),
      (6, next && x.fp32)] with
    | some r => .error r
    | none => .ok (if next then ls.head?.map (·.1) else none)

/-- Mark a load as consumed (R102). -/
def ArrSt.consume (x : ArrSt) (n : Nat) : ArrSt :=
  if x.loaded = some n then { x with taken := true }
  else { x with loadq := x.loadq.map (fun j => if j.seq = n then { j with consumed := true } else j) }

/-! ### Arithmetic of a pass -/

/-- The vectors of a feed as an array sees them: element and element-valid bit (R117). -/
abbrev FeedVec := List (Fv × Bool)

/-- Element k of a vector; a position the vector does not have is invalid. -/
def vecElem (x : FeedVec) (k : Nat) : Fv × Bool := nth (fvZero, false) k x

/-- The product at a cell for one broadcast element: exactly +0 where the element is invalid (R117). -/
def cellProd (x : Fv × Bool) (w : Fv) : Fv := if x.2 then product x.1 w else fvZero

/-- The exact sum of a cell's two products (R87). -/
def cellSum (p q : Fv) : Fv := p.add q

/-- The elements of a broadcast vector that cell (r, c) multiplies, each with its stationary value (R86 to R89). -/
def cellInputs (mode layout : Nat) (p : Plane) (x : FeedVec) (r c : Nat) : List ((Fv × Bool) × Fv) :=
  let k := p.cell r c
  match mode, layout with
  | 0, 2 => [(vecElem x (2 * r), k.a), (vecElem x (2 * r + 1), k.b)]
  | 0, 4 => [(vecElem x (64 * (r / 32) + 4 * ((r % 32) / 2) + k.pa), k.a)]
  | 0, 5 => [(vecElem x (64 * (r / 16) + 4 * (r % 16) + k.pa), k.a), (vecElem x (64 * (r / 16) + 4 * (r % 16) + k.pb), k.b)]
  | 0, _ => [(vecElem x r, k.a)]
  | _, 3 => [(vecElem x (2 * c), k.a), (vecElem x (2 * c + 1), k.b)]
  | _, _ => [(vecElem x c, k.a)]

/-- What a cell sends to its tree: +0 when disabled (R115). `px` and `pw` take the part of each operand (R35). -/
def cellOut (mode layout : Nat) (p : Plane) (x : FeedVec) (re ce : BitVec 64) (px pw : Fv → Fv) (r c : Nat) : Fv :=
  if re.getLsbD r && ce.getLsbD c then
    match cellInputs mode layout p x r c with
    | [i] => cellProd (px i.1.1, i.1.2) (pw i.2)
    | [i, j] => cellSum (cellProd (px i.1.1, i.1.2) (pw i.2)) (cellProd (px j.1.1, j.1.2) (pw j.2))
    | _ => fvZero
  else fvZero

/-- Output o of a vector: the 64 tree inputs of its column (dot) or row (transposed dot) (R88, R89). -/
def treeInputs (mode layout : Nat) (p : Plane) (x : FeedVec) (re ce : BitVec 64) (px pw : Fv → Fv) (o : Nat) : List Fv :=
  (List.range 64).map (fun i =>
    if mode = 0 then cellOut mode layout p x re ce px pw i o else cellOut mode layout p x re ce px pw o i)

/-- Is output o written: does an enabled cell feed it (R116)? -/
def outEnabled (mode : Nat) (re ce : BitVec 64) (o : Nat) : Bool :=
  if mode = 0 then ce.getLsbD o && re != 0 else re.getLsbD o && ce != 0

/-- The tree output as an accumulator takes it. -/
def treeOut (isInt : Bool) (l : List Fv) : TreeOut := if isInt then .int (intSum l) else .flt (tree 6 l)

/-- The three tree outputs of an FP32 pass, or the one of any other (R108). Where an operand is FP32 and the plane is no FP32 pair, the
stationary values are split at the cell (DESIGN CHOICE: R93 has such an operand loaded as a pair, and does not say what a plane of
another layout gives). -/
def vecOuts (mode layout : Nat) (p lo : Plane) (isInt f32mode xF32 : Bool) (x : FeedVec) (re ce : BitVec 64) (o : Nat) :
    List TreeOut :=
  if f32mode then
    fp32Parts.map (fun h =>
      if layout = 6 then treeOut false (treeInputs mode 1 (if h.2 then p else lo) x re ce (partOf xF32 h.1) id o)
      else treeOut false (treeInputs mode layout p x re ce (partOf xF32 h.1) (partOf (p.ty == some tF32) h.2) o))
  else [treeOut isInt (treeInputs mode layout p x re ce id id o)]

/-- Add tree outputs in turn to one accumulator element, the first under SET onto +0 (R149). -/
def accFold (nc : NumCtl) (set : Bool) (old : W32) (outs : List TreeOut) : W32 × Nat :=
  outs.foldl (fun acc t => let r := accAdd nc acc.1 t; (r.1, acc.2 + r.2)) (if set then 0 else old, 0)

/-- One vector into accumulator row `row` (R149, R116). A row past the store, which only a sub-pass of R113 can name, is not written
(DESIGN CHOICE: the spec does not say). -/
def State.vecToRow (s : State) (c : Core) (a : Arr) (mode layout : Nat) (p lo : Plane) (isInt f32mode xF32 set : Bool)
    (nc : NumCtl) (x : FeedVec) (re ce : BitVec 64) (row : Nat) : State :=
  if 1023 < row then s else
  (List.range 64).foldl (fun s o =>
    if outEnabled mode re ce o then
      let r := accFold nc set (s.acc c a row o) (vecOuts mode layout p lo isInt f32mode xF32 x re ce o)
      (s.setAcc c a row o r.1).bumpLo (rNumcnt0 c) r.2
    else s) s

/-- The dense form of K part h of an S24 or S24_PAIR plane (R113). -/
def expandPart (p : Plane) (h : Nat) : Plane :=
  let pick (r c : Nat) : Cell :=
    let g := r / 4
    if p.layout = 4 then
      let a := p.cell (32 * h + 2 * g) c
      let b := p.cell (32 * h + 2 * g + 1) c
      ⟨if a.pa = r % 4 then a.a else if b.pa = r % 4 then b.a else fvZero, fvZero, 0, 1⟩
    else
      let k := p.cell (16 * h + g) c
      ⟨if k.pa = r % 4 then k.a else if k.pb = r % 4 then k.b else fvZero, fvZero, 0, 1⟩
  ⟨1, p.ty, p.mixed, buildCells pick⟩

/-- Number of K parts of a plane for a transposed pass: 2 or 4 for the S24 layouts (R113). -/
def kParts (layout : Nat) : Nat := if layout = 4 then 2 else 4

/-! ### Outer passes (R90, R110, R115, R117) -/

def accDefault (_ : Nat) : W32 := 0
def ArrSt.cellAcc (x : ArrSt) (k n : Nat) : W32 := x.acc.get accDefault (64 * k + n)

/-- CLEAR: every enabled cell accumulator becomes +0 (R110). -/
def ArrSt.clearAcc (x : ArrSt) (re ce : BitVec 64) : ArrSt :=
  { x with acc := x.acc.filter (fun e => !(re.getLsbD (e.1 / 64) && ce.getLsbD (e.1 % 64))) }

/-- The exact sum of products. -/
def prodSum : List Fv → Fv
  | [] => fvZero
  | q :: qs => qs.foldl Fv.add q

/-- A vector of an outer pass's column operand and whether its tile is FP32, with the row vector that meets it. -/
abbrev OuterPair := (FeedVec × Bool) × FeedVec

/-- What one group of vector pairs adds to cell (k, n): exact sum of the products of its members (R87, R90). Of a pair of which one
vector's element is invalid, the other product alone updates the cell (DESIGN CHOICE: R117 speaks of one vector a cycle). -/
def outerTerm (isInt f32mode bF32 : Bool) (k n : Nat) (pairs : List OuterPair) : List TreeOut :=
  let usable := pairs.filter (fun p => (vecElem p.1.1 k).2 && (vecElem p.2 n).2)
  if usable.isEmpty then []
  else if f32mode then
    fp32Parts.map (fun h => .flt (prodSum (usable.map (fun p =>
      product (partOf bF32 h.1 (vecElem p.2 n).1) (partOf p.1.2 h.2 (vecElem p.1.1 k).1)))))
  else
    let ps := usable.map (fun p => product (vecElem p.2 n).1 (vecElem p.1.1 k).1)
    [if isInt then .int (intSum ps) else .flt (prodSum ps)]

/-- One group of vectors into the cell accumulators of array a of core c. -/
def State.outerStep (s : State) (c : Core) (a : Arr) (nc : NumCtl) (isInt f32mode bF32 : Bool) (re ce : BitVec 64)
    (pairs : List OuterPair) : State :=
  (List.range 4096).foldl (fun s i =>
    let k := i / 64
    let n := i % 64
    if re.getLsbD k && ce.getLsbD n then
      let outs := outerTerm isInt f32mode bF32 k n pairs
      if outs.isEmpty then s else
      let x := s.arr c a
      let r := accFold nc false (x.cellAcc k n) outs
      (s.setArr c a { x with acc := x.acc.put accDefault i r.1 }).bumpLo (rNumcnt0 c) r.2
    else s) s

/-! ### Export, clear, save and restore (R111, R155) -/

/-- EXPORT: the cell accumulators into accumulator tile t, over it or added to it (R111). -/
def State.runExport (s : State) (c : Core) (a : Arr) (nc : NumCtl) (t : Nat) (add : Bool) : State :=
  let s := s.portConflicts c
  let x := s.arr c a
  (List.range 4096).foldl (fun s i =>
    let v := x.cellAcc (i / 64) (i % 64)
    let r := if add then wordAdd nc x.accInt (s.acc c a (64 * t + i / 64) (i % 64)) v else (v, 0)
    (s.setAcc c a (64 * t + i / 64) (i % 64) r.1).bumpLo (rNumcnt0 c) r.2) s

/-- ACLR: +0 to every row of tiles t to t+n-1 (R155). -/
def State.runClear (s : State) (c : Core) (a : Arr) (row n : Nat) : State :=
  ((s.portConflicts c).accWrite c (accAddr c a.val row 0) (padTo (256 * n) [])).2

/-- Full address of word w of row r of the region of an ASAVE or ARESTORE: 4 words a row (Table 11-6). -/
def saveWord (d : Desc) (r w : Nat) : Nat := wrapWord (D.base d) (layoutWord (D.layout d) (D.pitch d) 4 r w)

/-- Stop at the first row that fails: the rest of a move is not made (R613). -/
def moveRows (f : Nat → State → Bool × State) (n : Nat) (s : State) : Bool × State :=
  (List.range n).foldl (fun r i => if r.1 then r else f i r.2) (false, s)

/-- The words of the n rows of such a region, in order: their slots (R259). -/
def State.countMove (s : State) (n : Nat) (d : Desc) : State :=
  s.countWords ((List.range n).flatMap (fun r => (List.range 4).map (saveWord d r)))

/-- ASAVE: accumulator rows to the rows of a region (Table 11-6); the flag tells that an element was not delivered. -/
def State.runSave (s : State) (c : Core) (a : Arr) (t n : Nat) (d : Desc) : Bool × State :=
  moveRows (fun r s =>
    match s.accRead c 3 (accAddr c a.val (64 * t + r) 0) 256 with
    | (.ok bs, s) => (false, (List.range 4).foldl (fun s w => s.put 3 (saveWord d r w) ((bs.drop (64 * w)).take 64)) s)
    | (.error _, s) => (true, s)) (64 * n) ((s.portWaits c).countMove (64 * n) d)

/-- An element of a region read through its descriptor (R342): times 2^-E, rounded to nearest even where that does not fit its type
(DESIGN CHOICE: the spec does not say how a moved element rounds; the region holds INT32 where its type code says so, else FP32). -/
def restoreElem (d : Desc) (texp : Int) (w : W32) : W32 :=
  if texp = 0 then w
  else if (D.ety d).any (fun t => t.code == .int32) then
    BitVec.ofNat 32 (convert ⟨false, false, false⟩ false .int32 .rne ((Fv.ofInt w.toInt 0).scaleBy (-texp))).1
  else toF32 .rne ((f32 w).scaleBy (-texp))

/-- ARESTORE: the reverse of ASAVE. -/
def State.runRestore (s : State) (c : Core) (a : Arr) (t n : Nat) (d : Desc) (texp : Int) : Bool × State :=
  moveRows (fun r s =>
    let addrs := (List.range 4).map (saveWord d r)
    let u := s.readWords 3 addrs
    let bs := addrs.flatMap (fun x => (List.range 16).flatMap (fun k =>
      bytesOf 4 (restoreElem d texp (BitVec.ofNat 32 (slot (s.unitWord x) 32 k))).toNat))
    if u.1 = 0 then (false, (u.2.accWrite c (accAddr c a.val (64 * t + r) 0) bs).2)
    else (true, u.2)) (64 * n) ((s.portConflicts c).countMove (64 * n) d)

/-- Run a step of the array queue that is not a pass; its guard flags follow (R347). The flag tells that a word was not delivered. -/
def State.runArrOp (s : State) (c : Core) (a : Arr) (o : ArrOp) : Bool × State :=
  let r : Bool × State := match o.kind with
    | .exportTile t add => (false, s.runExport c a o.nc t add)
    | .clear row n => (false, s.runClear c a row n)
    | .save t n d => s.runSave c a t n d
    | .restore t n d texp => s.runRestore c a t n d texp
    | .pass .. => (false, s)
  if r.1 then r else (false, r.2.guardDone c o.guard)

/-! ### Aborting an array (Table 11-15) -/

/-- Insert a place in program order. -/
def insSeq (n : Nat) : List Nat → List Nat
  | [] => [n]
  | m :: l => if n < m then n :: m :: l else m :: insSeq n l

/-- The cell accumulators or accumulator rows of a running pass hold some value of theirs after a run of vectors; here no
pass runs between commands, so only queued work goes: loads, passes and planes (R354). A feed loses the member whose pass
is gone as it does when the pass was refused (R126). -/
def ArrSt.abort (x : ArrSt) : ArrSt :=
  let lost := x.opq.filterMap (fun o => match o.kind with
    | .pass .. => some o.seq
    | _ => none)
  { x with p0 := .none, p1 := .none, loaded := none, taken := false, fp32 := false, swap := false, loadq := [], opq := [],
           rejected := lost.foldl (fun l n => insSeq n l) x.rejected }

/-- A unit stopped by TILE_POL STOP or an uncorrectable error ends as Table 11-15 gives, and the sequencer enters FAULTED
(R607, R613). -/
def State.stopArr (s : State) (c : Core) (a : Arr) : State := (s.setArr c a (s.arr c a).abort).seqFault c

/-! ### The step queue -/

/-- Is an FP32 load writing the planes? The array runs no pass meanwhile (R107). -/
def ArrSt.fp32Busy (x : ArrSt) : Bool := x.loadq.any (fun j => j.busy && j.layout == 6)

/-- Is the feed of the pass at the head of array a's queue in its feeder's queue, with a VCOUNT that is not the pass's (R330)? Each
refused pass before it in program order has a feed of its own (R126). -/
def State.feedVBad (s : State) (c : Core) (a : Arr) (seq v : Nat) : Bool :=
  let fs := ((List.finRange 6).flatMap (fun f => (s.core c).getFeed f)).filter (fun j => j.members.testBit a.val)
  match fs[((s.arr c a).rejected.filter (fun n => decide (n < seq))).length]? with
  | some j => v != (match j.src with
    | .gather _ => 64
    | _ => j.v)
  | none => false

/-- Take the head of the array's step queue as far as it goes: a pass is judged when it reaches the array (R94), every
other step runs. `fuel` bounds the queue. While a self-test runs nothing does (R618). -/
def State.arrAdvance (s : State) (c : Core) (a : Arr) : Nat → State
  | 0 => s
  | fuel + 1 =>
    let x := s.arr c a
    if x.bistRunning then s else
    match x.opq with
    | [] => s
    | o :: rest =>
      match o.kind with
      | .pass mode next _ base v _ _ _ _ _ =>
        if o.accepted || x.fp32Busy then s
        else
          match x.judge o.seq mode next base v (s.feedVBad c a o.seq v) with
          | .error reason =>
            ((s.setArr c a { x with opq := rest, rejected := insSeq o.seq x.rejected }).arrReject c a reason).arrAdvance c a fuel
          | .ok none => s.setArr c a { x with opq := { o with accepted := true } :: rest }
          | .ok (some n) =>
            let y := x.consume n
            s.setArr c a { y with opq := { o with accepted := true, load := some n } :: rest }
      | _ =>
        let r := (s.setArr c a { x with opq := rest }).runArrOp c a o
        if r.1 then r.2.stopArr c a else r.2.arrAdvance c a fuel

/-- Put a step in the array's queue and let the array take what it can. -/
def State.arrEnqueue (s : State) (c : Core) (a : Arr) (o : ArrOp) : State :=
  let x := s.arr c a
  (s.setArr c a { x with opq := x.opq ++ [o] }).arrAdvance c a (x.opq.length + 1)

/-! ### Loads (LOAD_BEGIN, LOAD_DONE, PLANE_SWAP) -/

/-- May the load at the head of the queue begin (R105, R107, R114)? A KEEP pass that is accepted and not yet fed does not hold it back,
except under R114, though the load may replace the plane it was judged on (DEDUCED: R105, R107 and R109 name no such wait). -/
def ArrSt.loadMayBegin (x : ArrSt) : Bool :=
  match x.loadq with
  | j :: _ => !j.busy && x.loaded.isNone && !x.swap && !x.bistRunning && x.opq.all (fun o =>
      match o.kind with
      | .pass 1 false .. => !(decide (o.seq < j.seq) && [4, 5].contains (x.plane x.activeNext).layout)
      | _ => true)
  | [] => false

/-- Does the load at the head of the queue wait under R105 or R114? A wait under R112 ends within one command here. -/
def ArrSt.loadWaits (x : ArrSt) : Bool :=
  match x.loadq with
  | j :: _ => !j.busy && (x.loaded.isSome || x.swap || x.opq.any (fun o =>
      match o.kind with
      | .pass 1 false .. => decide (o.seq < j.seq) && [4, 5].contains (x.plane x.activeNext).layout
      | _ => false))
  | [] => false

/-- PASS_MODE of ARR_STAT: a pass the array has accepted, or an FP32 load that is writing the planes. -/
def ArrSt.passMode (x : ArrSt) : Nat :=
  if x.fp32Busy then 6 else
  match x.opq with
  | o :: _ =>
    (match o.kind with
     | .pass m .. =>
       let lay := match o.load with
         | some n => if x.loaded = some n then (x.plane (!x.activeNext)).layout
                     else ((x.loadq.find? (fun (j : LoadJob) => j.seq == n)).map (fun j => j.layout)).getD 0
         | none => (x.plane x.activeNext).layout
       let s24 := [4, 5].contains lay
       if !o.accepted then 0 else if m = 2 then 5 else if m = 1 then (if s24 then 4 else 3) else if s24 then 2 else 1
     | _ => 0)
  | [] => 0

/-- A 64 × 64 block of an untiled operand; elements beyond its extents are +0 (R100). -/
def State.flatTile (s : State) (d : Desc) (t : EType) (texp : Int) (i j : Nat) : DenseTile :=
  ⟨t, (List.range 64).map (fun r => (List.range 64).map (fun k =>
    if 64 * i + r < D.rows d ∧ 64 * j + k < D.cols d then s.elemOf d t texp (64 * i + r) (64 * j + k) else fvZero)), false⟩

/-- Read the source tiles of a load (R100, R217): the tiles, whether the unit stops (R607, R613), and the state. -/
def State.readSrcs (s : State) (c : Core) (layout : Nat) : List LoadSrc → List SrcTile × Bool × State
  | [] => ([], false, s)
  | l :: ls =>
    match l.flat with
    | some (d, i, j) =>
      let t := (D.ety d).getD tF32
      let n := min 64 (D.rows d - 64 * i)
      let u := s.countRows c 2 d t false (64 * i) n (64 * j) (min 64 (D.cols d - 64 * j))
      let r := u.2.readSrcs c layout ls
      (⟨s.flatTile d t l.texp i j, some t, l.texp, []⟩ :: r.1, u.1 != 0 || r.2.1, r.2.2)
    | none =>
      let u := s.useTile c 1 2 l.hdr
      let e := expandTile l.hdr u.1 l.texp
      let s := if layout = 4 ∨ layout = 5 then u.2.2 else u.2.2.bumpHi (rTilecnt1 c) e.2
      let t : SrcTile := ⟨e.1, if l.hdr.format = 0 then none else l.hdr.ty, l.texp, u.1.lines⟩
      let r := s.readSrcs c layout ls
      (t :: r.1, u.2.1 || r.2.1, r.2.2)

/-- The loader has written the last cell row (R86, R98, R107, R109). An FP32 pair is given up here (R109). -/
def ArrSt.finishLoad (x : ArrSt) (j : LoadJob) (ps : Plane × Plane) : ArrSt :=
  let x := { x with loadq := x.loadq.drop 1 }
  if j.layout = 6 then { x with p0 := ps.1, p1 := ps.2, fp32 := true, active := false, loaded := none, taken := false }
  else if x.fp32 then
    { x with p0 := .none, p1 := ps.1, fp32 := false, active := false, loaded := some j.seq, taken := j.consumed }
  else { x.setPlane (!x.active) ps.1 with loaded := some j.seq, taken := j.consumed }

end Sys2Proof.Machine
end

