-- ==== Sys2Proof/Machine/Feeder.lean ====
section
/-! DEFINITION. Feeders and fill gathering (spec/05_clusters_and_feeders.md): where the vectors of a feed come from, fills
and their states, the checks of R127, and the run of one feed. -/
namespace Sys2Proof.Machine

/-! ### Gathering contexts (R132 to R139) -/

def FgCtx.fill (x : FgCtx) (f : Nat) : Fill := if f = 0 then x.f0 else x.f1
def FgCtx.setFill (x : FgCtx) (f : Nat) (y : Fill) : FgCtx := if f = 0 then { x with f0 := y } else { x with f1 := y }
/-- The OPEN fill, if any: a context has at most one (R133). -/
def FgCtx.openFill (x : FgCtx) : Option Nat := if x.f0.st = .open then some 0 else if x.f1.st = .open then some 1 else none
/-- The lower-numbered FREE fill. -/
def FgCtx.freeFill (x : FgCtx) : Option Nat := if x.f0.st = .free then some 0 else if x.f1.st = .free then some 1 else none

/-- CORE_FGCTXg fields. -/
def State.fgRowBase (s : State) (c : Core) (g : Nat) : Nat := s.rf (rFgctx c g) 0 18
def State.fgPitch (s : State) (c : Core) (g : Nat) : Nat := s.rf (rFgctx c g) 18 12
def State.fgDeadline (s : State) (c : Core) (g : Nat) : Nat := s.rf (rFgctx c g) 30 8
def State.fgEnabled (s : State) (c : Core) (g : Nat) : Bool := bitOf (s.reg (rFgctx c g)) 41
def State.fgType (s : State) (c : Core) (g : Nat) : EType := (EType.ofField (s.rf (rFgctx c g) 42 5)).getD tF32

/-- Pantry word of the first word of place i of fill f of context g (R132). -/
def State.placeWord (s : State) (c : Core) (g f i : Nat) : Nat :=
  (s.fgRowBase c g + (64 * f + i) * s.fgPitch c g) % 262144
/-- Full byte address of a place (R133). -/
def State.placeAddr (s : State) (c : Core) (g f i : Nat) : W64 := s.full (pantryBase c + 64 * s.placeWord c g f i)

/-- A CLOSED fill becomes ISSUED once every reserved place is present (R134). -/
def FgCtx.settle (x : FgCtx) (f : Nat) : FgCtx :=
  let y := x.fill f
  if y.st = .closed ∧ y.reserved.all (fun i => NSet.has i y.present) then
    { x.setFill f { y with st := .issued } with order := x.order ++ [f] }
  else x

/-- Close a fill at a pitch (R133). -/
def FgCtx.close (x : FgCtx) (f pitch : Nat) : FgCtx := (x.setFill f { x.fill f with st := .closed, closedAt := pitch }).settle f

/-- FEEDCNT and a FEED_BAD record (R127, R134, R145). -/
def State.feedReject (s : State) (c : Core) : State := (s.bumpHi (rFeedcnt c) 1).raise fFeedBad 0 c.val []

/-- Close the OPEN fill with reason TIME (R133, R136). -/
def State.closeTime (s : State) (c : Core) (g : Ctx) : State :=
  let x := s.fg c g
  match x.openFill with
  | some f => (s.setFg c g (x.close f s.pitchMark)).bumpHi (rFgcnt0 c) 1
  | none => s

/-- Close an OPEN fill whose deadline has come (R133, R139). -/
def State.closeDue (s : State) (c : Core) (g : Ctx) : State :=
  let x := s.fg c g
  match x.openFill with
  | some f => if s.fgDeadline c g.val ≠ 0 ∧ (x.fill f).due ≤ s.tb.starts then s.closeTime c g else s
  | none => s

/-- Reserve the lowest unreserved place (R133): the place, or none where the reservation is refused. A close that is due comes
first (R135). -/
def State.reservePlace (s : State) (c : Core) (g : Ctx) : Option (Nat × Nat) × State :=
  let s := s.closeDue c g
  let x := s.fg c g
  let pick := if s.fgEnabled c g.val then (match x.openFill with
    | some f => some (f, x)
    | none => (match x.freeFill with
      | some f => some (f, x.setFill f { Fill.free with st := .open, due := s.pitchMark + s.fgDeadline c g.val })
      | none => none)) else none
  match pick with
  | none => (none, s.bumpLo (rFgcnt1 c) 1)
  | some (f, x) =>
    match (List.range 64).find? (fun i => !(NSet.has i (x.fill f).reserved)) with
    | none => (none, s.bumpLo (rFgcnt1 c) 1)
    | some i =>
      let x := x.setFill f { x.fill f with reserved := NSet.add i (x.fill f).reserved }
      if (x.fill f).reserved.length = 64 then
        (some (f, i), (s.setFg c g (x.close f s.pitchMark)).bumpLo (rFgcnt0 c) 1)
      else (some (f, i), s.setFg c g x)

/-- The reserved place whose first byte a full address names (R134). -/
def State.placeOf (s : State) (c : Core) (g : Ctx) (a : W64) : Option (Nat × Nat) :=
  let x := s.fg c g
  ((List.range 2).flatMap (fun f => (x.fill f).reserved.map (fun i => (f, i)))).find?
    (fun p => s.placeAddr c g.val p.1 p.2 == a)

/-- Mark a place present (R134). -/
def State.presentPlace (s : State) (c : Core) (g : Ctx) (f i : Nat) : State :=
  let x := s.fg c g
  s.setFg c g ((x.setFill f { x.fill f with present := NSet.add i (x.fill f).present }).settle f)

/-- Return an ISSUED fill to FREE (R134, R137). -/
def State.releaseFill (s : State) (c : Core) (g : Ctx) (f : Nat) : State :=
  let x := s.fg c g
  if (x.fill f).st = .issued then s.setFg c g { x.setFill f .free with order := x.order.filter (· != f) }
  else s.feedReject c

/-- A write to CORE_FGCTXg (R145): rejected while a fill is not FREE or where a field is reserved. -/
def State.fgctxWrite (s : State) (c : Core) (g : Ctx) (v : W64) : State :=
  let x := s.fg c g
  let busy := x.f0.st != .free || x.f1.st != .free
  let badFeeder := decide ((if isSolo c then 6 else 2) ≤ fld v 38 3)
  let badPitch := bitOf v 41 && fld v 18 12 == 0
  if busy || badFeeder || badPitch || (EType.ofField (fld v 42 5)).isNone then s.feedReject c
  else s.setReg (rFgctx c g.val) (v &&& 0x00007FFFFFFFFFFF#64)

/-- A CLOSED fill whose places have not all come becomes ISSUED with those present; the missing places are dropped, so
they are reserved no longer (R138, CORE_FGCNT1.FG_LOST). -/
def State.expireFill (s : State) (c : Core) (g : Ctx) (f : Nat) : State :=
  let x := s.fg c g
  let y := x.fill f
  let missing := (y.reserved.filter (fun i => !(NSet.has i y.present))).length
  let s := s.setFg c g { x.setFill f { y with st := .issued, reserved := y.present } with order := x.order ++ [f] }
  (s.bumpHi (rFgcnt1 c) missing).raise fSlotTimeout 0 c.val [g.val]

/-! ### Convolution windows (R140 to R144, R331) -/

/-- The fields of a window record (Table 11-7). -/
structure Win where
  base : Nat
  h : Nat
  w : Nat
  c : Nat
  cg : Nat
  p : Nat
  q : Nat
  r : Nat
  s : Nat
  sh : Nat
  sw : Nat
  dh : Nat
  dw : Nat
  pt : Nat
  pl : Nat
  zero : Bool
  ty : Option EType
deriving DecidableEq, Repr

def Win.ofRec (x : BitVec 512) : Win :=
  let h (k : Nat) := fld x (64 + 16 * k) 16
  let b (k : Nat) := fld x (160 + 8 * k) 8
  ⟨fld x 0 64, h 0, h 1, h 2, h 3, h 4, h 5, b 0, b 1, b 2, b 3, b 4, b 5, b 6, b 7, bitOf x 224, EType.ofField (fld x 225 5)⟩

/-- Table 5-3: is every parameter in range? -/
def Win.ok (x : Win) : Bool :=
  let rng (v lo hi : Nat) : Bool := decide (lo ≤ v) && decide (v ≤ hi)
  rng x.h 1 65535 && rng x.w 1 65535 && rng x.c 1 65535 && rng x.p 1 65535 && rng x.q 1 65535
    && rng x.r 1 16 && rng x.s 1 16 && rng x.sh 1 16 && rng x.sw 1 16 && rng x.dh 1 16 && rng x.dw 1 16
    && ([1, 2, 4, 8, 16, 32, 64].contains x.cg || (decide (0 < x.cg) && x.cg % 64 == 0 && x.c % x.cg == 0))

/-- Words of a pixel (R141). -/
def Win.pix (x : Win) (t : EType) : Nat := ceilDiv (x.c * t.code.width) 512

/-- The input row and column of output position pos under tap (r, s) (R141). -/
def Win.coord (x : Win) (pos r s : Nat) : Nat × Int × Int :=
  let q := pos % x.q
  let p := pos / x.q % x.p
  (pos / (x.q * x.p), (p * x.sh + r * x.dh : Int) - x.pt, (q * x.sw + s * x.dw : Int) - x.pl)

/-- Clamp a coordinate to 0..n-1 (R268). -/
def clampInt (v : Int) (n : Nat) : Nat := if v < 0 then 0 else min v.toNat (n - 1)

/-- Is a window coordinate outside the input (R144)? -/
def Win.outside (x : Win) (h w : Int) : Bool := decide (h < 0) || decide ((x.h : Int) ≤ h) || decide (w < 0) || decide ((x.w : Int) ≤ w)

/-- Byte address of word k of a pixel (R141, R265), with IPITCH taken as H·W·PIX. -/
def Win.pixWord (x : Win) (t : EType) (n h w k : Nat) : Nat :=
  wrapWord x.base (n * (x.h * x.w * x.pix t) + (h * x.w + w) * x.pix t + k : Nat)

/-! ### Vectors of a feed -/

/-- The type of a feed's vectors (R132, R331). -/
def State.feedType (s : State) (c : Core) : FeedSrc → Option EType
  | .desc d _ _ _ => D.ety d
  | .window r _ _ => (Win.ofRec r).ty
  | .gather g => some (s.fgType c g)

/-- The places of the fill that a gathering feed broadcasts (R137). -/
def State.gatherFill (s : State) (c : Core) (g : Nat) : Option (Nat × List Nat) :=
  if h : g < 16 then
    let x := s.fg c ⟨g, h⟩
    match x.order.head? with
    | some f => some (f, (x.fill f).present)
    | none => none
  else none

/-- The accumulator row offsets of a feed's vectors: place numbers for a gathering feed, 0 to V-1 otherwise (R137, R149). -/
def State.feedRows (s : State) (c : Core) (f : FeedJob) : List Nat :=
  match f.src with
  | .gather g => (match s.gatherFill c g with
    | some p => p.2
    | none => [])
  | _ => List.range f.v

/-- Vector j of a feed, n elements with their element-valid bits (R117, R141 to R144, R268). A place of a gathering
context holds a run of `len` elements, the longest vector that a member takes. A window gives a member whose vector is longer than 64
elements the channels from 64k on for its whole length (DESIGN CHOICE: R141 speaks of channels 64k to 64k + 63). -/
def State.feedVec (s : State) (c : Core) (src : FeedSrc) (len j n : Nat) : FeedVec :=
  match src with
  | .desc d row first texp =>
    (match D.ety d with
     | some t => (List.range n).map (fun e => (s.elemOf d t texp (row + j) (first + e), true))
     | none => [])
  | .window rec first tap =>
    let x := Win.ofRec rec
    (match x.ty with
     | some t =>
       let co := x.coord (first + j) (tap % 256) (tap / 256 % 256)
       let k := tap / 65536 % 65536
       if x.zero && x.outside co.2.1 co.2.2 then List.replicate n (fvZero, false)
       else
         let a := x.pixWord t co.1 (clampInt co.2.1 x.h) (clampInt co.2.2 x.w)
         (List.range n).map (fun e =>
           if 64 * k + e < x.c then (elemVal t 0 (runElem (fun w => s.unitWord (a w)) t x.c (64 * k + e)), true)
           else (fvZero, false))
     | none => [])
  | .gather g =>
    (match s.gatherFill c g with
     | some (f, _) =>
       let t := s.fgType c g
       let rd (w : Nat) : Nat :=
         s.wordAt (pantryBase c + 64 * ((s.placeWord c g f j + 64 * (w / 64) + ((w % 64) ^^^ (j % 64))) % 262144))
       (List.range n).map (fun e => (elemVal t 0 (runElem rd t len e), true))
     | none => [])

/-- The words that vector j of n elements is read from, as full addresses, and how many of them an affine read takes at a clamped
position (R268). -/
def State.feedWords (s : State) (c : Core) (src : FeedSrc) (j n : Nat) : List Nat × Nat :=
  match src with
  | .desc d row first _ =>
    (match D.ety d with
     | some t =>
       let run := D.runOf d t first n
       (run.1.map (D.wordAddr d t (clampTo (row + j) (D.rows d))), clampedWords (D.rows d) (row + j) run)
     | none => ([], 0))
  | .window rec first tap =>
    let x := Win.ofRec rec
    (match x.ty with
     | some t =>
       let co := x.coord (first + j) (tap % 256) (tap / 256 % 256)
       let out := x.outside co.2.1 co.2.2
       if x.zero && out then ([], 0)
       else
         let a := x.pixWord t co.1 (clampInt co.2.1 x.h) (clampInt co.2.2 x.w)
         let lo := 64 * (tap / 65536 % 65536)
         let hi := min x.c (lo + n)
         let ws := if lo < hi then rangeFrom (lo / t.code.perWord) (ceilDiv hi t.code.perWord - lo / t.code.perWord) else []
         let ws := withScales t x.c ws
         (ws.map a, if out then ws.length else 0)
     | none => ([], 0))
  | .gather g =>
    (match s.gatherFill c g with
     | some (f, _) => ((withScales (s.fgType c g) n (List.range (dataWords (s.fgType c g).code n))).map (fun w =>
         (s.full (pantryBase c + 64 * ((s.placeWord c g f j + 64 * (w / 64) + ((w % 64) ^^^ (j % 64))) % 262144))).toNat), 0)
     | none => ([], 0))

/-- What reading the vectors of a feed counts: invalid words (R277), clamped words (R268) and the slots of each fetch beyond its first,
a fetch being one word of each of 64 consecutive rows (R130, R259; scale words are fetched likewise, a DESIGN CHOICE). The number is
the first reason why a word is not delivered (R613). -/
def State.feedCount (s : State) (c : Core) (who : Nat) (src : FeedSrc) (rows : List Nat) (n : Nat) : Nat × State :=
  let ws := rows.map (fun j => s.feedWords c src j n)
  let r := s.readWords who (ws.flatMap (·.1))
  let t := r.2.bumpHi (rPanCnt c 0) (ws.map (·.2)).sum
  (r.1, (chunks 64 rows.length (ws.map (·.1))).foldl (fun s g =>
    (List.range ((g.map (·.length)).foldl max 0)).foldl (fun s w => s.countSlots (g.filterMap (fun l => l[w]?))) s) t)

/-! ### Feeds (R123 to R129) -/

/-- The feeder that serves an array (Table 5-1). -/
def feederOf (c : Core) (a : Arr) : Arr := if isSolo c then a else if a.val < 2 then 0 else 1
/-- The feeder a member mask names: none where the mask is empty or spans groups (R127, R129). -/
def feederOfMask (c : Core) (m : Nat) : Option Arr :=
  if isSolo c then
    (match m with
     | 1 => some 0 | 2 => some 1 | 4 => some 2 | 8 => some 3 | 16 => some 4 | 32 => some 5 | _ => none)
  else if m = 0 then none
  else if m / 4 = 0 then some 0
  else if m % 4 = 0 ∧ m < 64 then some 1 else none
/-- The members of a mask, ascending. -/
def membersOf (m : Nat) : List Arr := (List.finRange 6).filter (fun a => m.testBit a.val)

/-- What a member of a feed does: its accepted pass, or nothing because its pass was refused (R126). -/
inductive Member | run (a : Arr) (o : ArrOp) | out (a : Arr) | wait
deriving DecidableEq, Repr

/-- May an accepted pass run now? A NEXT pass needs its load (R124), an outer pass waits for a load that is being written (R357),
and no pass runs during an FP32 load (R107). -/
def ArrSt.mayRun (x : ArrSt) (o : ArrOp) : Bool :=
  o.accepted && !x.fp32Busy && (o.load.isNone || o.load == x.loaded) && (match o.kind with
    | .pass 2 .. => !(x.loadq.any (·.busy))
    | _ => true)

/-- The member's next pass in program order (R124, R126). -/
def State.memberOf (s : State) (c : Core) (a : Arr) : Member :=
  let x := s.arr c a
  if x.bistRunning then .wait else
  let next (o : ArrOp) : Member := if x.mayRun o then .run a o else .wait
  match x.rejected, x.opq with
  | r :: _, o :: _ => if o.seq < r then next o else .out a
  | _ :: _, [] => .out a
  | [], o :: _ => next o
  | [], [] => .wait

/-- Elements of a broadcast vector that an accepted pass takes (Table 4-2). -/
def ArrSt.vecLen (x : ArrSt) (o : ArrOp) : Nat :=
  match o.kind with
  | .pass mode next .. =>
    (match mode, (x.plane (x.activeNext != next)).layout with
     | 0, 5 => 256
     | 0, 4 => 128
     | 0, 2 => 128
     | 1, 3 => 128
     | _, _ => 64)
  | _ => 64

/-- The longest vector that a member of a feed takes. -/
def State.feedLen (s : State) (c : Core) (ms : List Member) : Nat :=
  ms.foldl (fun n m => match m with
    | .run a o => max n ((s.arr c a).vecLen o)
    | _ => n) 64

/-- May the feed at the head of feeder f start (R124, R137)? -/
def State.feedReady (s : State) (c : Core) (f : FeedJob) : Bool :=
  (membersOf f.members).all (fun a => s.memberOf c a != .wait) &&
  (match f.src with
   | .gather g => (s.gatherFill c g).isSome
   | _ => true)

/-- The vectors of an outer pass's column operand, which the stationary loader delivers: row XC + j from its first element,
through a header where TILED, and +0 outside the operand (R100, R631). -/
def State.colVec (s : State) (d : Desc) (texp : Int) (row : Nat) : FeedVec × Option EType :=
  if D.tiled d then
    let h := judgeHdr (s.unitWord (D.pairAddr d (row / 64) 0))
    match h with
    | .ok h =>
      let r := readTile (fun k => s.unitWord (h.payload + 64 * k)) h
      let e := (expandTile h r texp).1
      ((List.range 64).map (fun k => (e.at (row % 64) k, true)), if h.format = 0 then none else h.ty)
    | _ => (List.replicate 64 (fvZero, true), none)
  else
    match D.ety d with
    | some t => ((List.range 64).map (fun k =>
        (if row < D.rows d ∧ k < D.cols d then s.elemOf d t texp row k else fvZero, true)), some t)
    | none => (List.replicate 64 (fvZero, true), none)

/-- What reading the column operand of n rows counts and reports (R73, R217, R277); the flag tells that the unit stops. -/
def State.colCount (s : State) (c : Core) (d : Desc) (row n : Nat) : Bool × State :=
  if D.tiled d then
    (((rangeFrom row n).map (· / 64)).eraseDups).foldl (fun r i =>
      let u := r.2.useHdr c 1 2 (D.pairAddr d i 0)
      let e := u.2.2.expand c 1 2 u.1 0
      (r.1 || u.2.1 || e.2.1, e.2.2)) (false, s)
  else
    match D.ety d with
    | some t => let u := s.countRows c 2 d t false row (min n (D.rows d - row)) 0 (min 64 (D.cols d)); (u.1 != 0, u.2)
    | none => (false, s)

/-- Is a type that of an FP32 operand? -/
def isF32 (t : Option EType) : Bool := match t with
  | some t => t.code == .fp32
  | none => false

/-- Is an operand a 4-bit type? -/
def is4bit (t : Option EType) : Bool := match t with
  | some t => t.code == .e2m1 || t.code == .int4
  | none => false

/-- A pass refused after it had been accepted leaves its load for the next NEXT pass (R102). -/
def ArrSt.giveBack (x : ArrSt) (o : ArrOp) : ArrSt :=
  match o.load with
  | some n => if x.loaded = some n then { x with taken := false }
              else { x with loadq := x.loadq.map (fun j => if j.seq = n then { j with consumed := false } else j) }
  | none => x

/-- The class of arithmetic of an outer pass whose column vectors have these types, each row's that of its own tile (R24, R340; none where
EMPTY), and whose row vectors have another: none where some pair is refused. -/
def outerArith (cts : List (Option EType)) (ft : Option EType) : Option Bool :=
  match cts.filterMap id with
  | [] => pairArith none ft
  | ts => if ts.any (fun t => (pairArith (some t) ft).isNone) then none else (ts.head?).bind (fun t => pairArith (some t) ft)

/-- Run one member's pass over the vectors of a feed (R88 to R93, R113, R149). `s0` is the state in which the feed starts: every member
takes the same vectors (R123). The vector in place p of an outer pass's feed meets column row XC + p (DESIGN CHOICE: of a gathered feed,
whose absent places broadcast nothing, R90 does not say whether the column rows count places or vectors). Where the tiles of a TILED
column operand have several types, each row's vector is taken in that of its own tile; the pass runs in FP32 mode where any of them is
FP32, and takes pairs of vectors where all are 4-bit types (DESIGN CHOICE: R90 and R93 speak of one type). -/
def State.runPass (s s0 : State) (c : Core) (a : Arr) (o : ArrOp) (f : FeedJob) (len : Nat) : State :=
  match o.kind with
  | .pass mode next accm base v re ce cd crow texp =>
    let x := (s.arr c a)
    let ft := s0.feedType c f.src
    let rows := s0.feedRows c f
    if v ≠ (match f.src with
        | .gather _ => 64
        | _ => f.v) then
      (s.setArr c a (x.giveBack o)).arrReject c a 5
    else if mode = 2 then
      let cols := rows.map (fun j => s0.colVec cd texp (crow + j))
      let cts := cols.map (·.2)
      match outerArith cts ft with
      | none => s.raise fBadType 1 c.val []
      | some isInt =>
        let fm := cts.any isF32 || isF32 ft
        let four := cts.all (fun t => t.isNone || is4bit t) && is4bit ft
        let u := s.colCount c cd crow v
        if u.1 then u.2.stopArr c a else
        let s := u.2.setArr c a { (if accm then x.clearAcc re ce else x) with accInt := isInt && !fm }
        let pairs : List OuterPair := (rows.zip cols).map (fun p => ((p.2.1, isF32 p.2.2), s0.feedVec c f.src len p.1 64))
        -- the last vector of an odd count is added alone (DESIGN CHOICE: R90 gives a cycle two vectors)
        let groups := if four then chunks 2 pairs.length pairs else pairs.map (fun p => [p])
        let s := groups.foldl (fun s g => s.outerStep c a o.nc isInt fm (isF32 ft) re ce g) s
        (s.bumpLo (rArrCnt0 c a) 1).guardDone c o.guard
    else
      -- a NEXT pass starts: its load is no longer waiting, and the swap is to take place (R102, R103)
      let x := x.doSwap
      let x := if next then { x with loaded := none, taken := false, swap := true } else x
      let p := x.plane x.activeNext
      match (if p.mixed then none else pairArith p.ty ft) with
      | none => (s.setArr c a ((s.arr c a).giveBack o)).raise fBadType 1 c.val []
      | some isInt =>
        let fm := isF32 p.ty || isF32 ft
        let n := if p.layout = 5 then 256 else if p.layout = 2 ∨ p.layout = 3 ∨ p.layout = 4 then 128 else 64
        let s := s.setArr c a x
        if mode = 1 ∧ (p.layout = 4 ∨ p.layout = 5) then
          -- expansion into the shadow plane, one sub-pass per K part (R113); of a NEXT pass the swap takes place first, so that the
          -- plane it names is active and the plane it left is overwritten (DESIGN CHOICE: R113 speaks of an active plane)
          let x := x.doSwap
          let s := s.setArr c a x
          let s := (List.range (kParts p.layout)).foldl (fun s h =>
            let q := expandPart p h
            rows.foldl (fun s j =>
              s.vecToRow c a 1 1 q .none isInt fm (isF32 ft) accm o.nc (s0.feedVec c f.src len j 64) re ce (base + h * v + j)) s) s
          let s := s.setArr c a ((s.arr c a).setPlane (!x.active) .none)
          ((s.bumpLo (rArrCnt1 c a) 1).bumpLo (rArrCnt0 c a) (kParts p.layout)).guardDone c o.guard
        else if p.layout = 4 ∧ isF32 p.ty then
          -- FP32 S24 tiles run as dense (R57): the two K halves of the plane in turn (DESIGN CHOICE: one plane does not hold 128 dense
          -- K indices, and the spec does not say how the pass takes them)
          let s := rows.foldl (fun s j =>
            let y := s0.feedVec c f.src len j n
            let s := s.vecToRow c a 0 1 (expandPart p 0) .none false true (isF32 ft) accm o.nc (y.take 64) re ce (base + j)
            s.vecToRow c a 0 1 (expandPart p 1) .none false true (isF32 ft) false o.nc (y.drop 64) re ce (base + j)) s
          (s.bumpLo (rArrCnt0 c a) 1).guardDone c o.guard
        else
          let s := rows.foldl (fun s j =>
            s.vecToRow c a mode p.layout p (x.plane true) isInt fm (isF32 ft) accm o.nc (s0.feedVec c f.src len j n) re ce (base + j)) s
          (s.bumpLo (rArrCnt0 c a) 1).guardDone c o.guard
  | _ => s

/-- Take a member's pass, or its refusal, out of the array's queue. -/
def State.dropMember (s : State) (c : Core) (m : Member) : State :=
  match m with
  | .run a _ => let x := s.arr c a; s.setArr c a { x with opq := x.opq.drop 1 }
  | .out a => let x := s.arr c a; s.setArr c a { x with rejected := x.rejected.drop 1 }
  | .wait => s

/-- A feeder's requester number (Table 23-7). -/
def feedWho (c : Core) (fd : Arr) : Nat := if isSolo c then 23 + fd.val else fd.val

/-- A feeder that a word was not delivered to ends (Table 11-15): its queued feeds are discarded and its members' arrays abandon their
work; the sequencer enters FAULTED (R613). -/
def State.stopFeed (s : State) (c : Core) (fd : Arr) (members : Nat) : State :=
  let s := s.onCore c (fun k => k.setFeed fd [])
  ((membersOf members).foldl (fun s a => s.setArr c a { (s.arr c a).abort with rejected := [] }) s).seqFault c

/-- Run the feed at the head of feeder f whole: every member takes every vector (R123, R125, R126). `starve` is the number
of cycles the feeder paused (R131). -/
def State.runFeed (s : State) (c : Core) (fd : Arr) (f : FeedJob) (starve : Nat) : State :=
  let ms := (membersOf f.members).map (s.memberOf c)
  let s := s.onCore c (fun k => k.setFeed fd ((k.getFeed fd).drop 1))
  let len := s.feedLen c ms
  let r := s.feedCount c (feedWho c fd) f.src (s.feedRows c f) len
  let s := r.2.bumpLo (rFeedcnt c) starve
  if r.1 ≠ 0 then s.stopFeed c fd f.members else
  let s1 := ms.foldl (fun t m =>
    match m with
    | .run a o => (t.dropMember c m).runPass s c a o f len
    | _ => t.dropMember c m) s
  let s2 := ms.foldl (fun t m =>
    match m with
    | .run a _ => t.arrAdvance c a 5
    | _ => t) s1
  s2.guardDone c f.guard

end Sys2Proof.Machine
end

