-- ==== Sys2Proof/Machine/Issue.lean ====
section
/-! DEFINITION. What handing a step to its unit can give, and the array steps (Table 11-6) as the sequencer hands them to
arrays and feeders. -/
namespace Sys2Proof.Machine

/-- The outcome of handing an issued step to its unit: taken (executed, queued or rejected by the unit's own rule), held
at issue for a reason of SEQ_STAT.STALL with a flag, held for such a reason in a state that the attempt has changed, or rejected at decode
with a reason of Table 11-5. -/
inductive Issue
  | ok (s : State)
  | hold (why flag : Nat)
  | wait (why : Nat) (s : State)
  | bad (code : Nat)

/-- A step that its unit rejects under BAD_TYPE (R23). -/
def State.badType (s : State) (c : Core) (block : Nat) : State := s.raise fBadType block c.val []

/-- The place in program order of the step being issued; the array steps of one dispatch step take the places after its
own (R182). -/
def State.now (s : State) (c : Core) : Nat := (s.seq c).issued * 2 ^ 160

/-- The scale words of descriptors are read when their step is issued (R342, R277): why one is not delivered, 0 where all are, and what
the read counts. -/
def State.scaleReads (s : State) (c : Core) (ds : List Desc) : Nat × State :=
  s.readWords 12 ((ds.filter D.scaleEn).map (fun d => (s.full (pantryBase c + 64 * D.scaleW d)).toNat))

/-- A step that nothing else refuses goes on once its scale words are read; one whose scale word is not delivered ends (R613), and one that
meets the byte 0x80 is rejected (R342). `drop` is what its unit keeps of a step that goes so. -/
def State.readScales (s : State) (c : Core) (block : Nat) (ds : List Desc) (k : State → Issue) (drop : State → State := id) : Issue :=
  let r := s.scaleReads c ds
  if r.1 ≠ 0 then .ok (drop (r.2.readFault c))
  else if ds.any (fun d => (s.tensorExp c d).isNone) then .ok (drop (r.2.badType c block))
  else k r.2

/-- The header pairs of a tiled load from tile (i, j) of d: the sources, whether the unit stops, and the state (R61, R73). -/
def State.loadHdrs (s : State) (c : Core) (d : Desc) (lay i j : Nat) (texp : Int) : List LoadSrc × Bool × State :=
  (layoutTiles lay).foldl (fun (acc : List LoadSrc × Bool × State) p =>
    let u := acc.2.2.useHdr c 1 2 (D.pairAddr d (i + p.1) (j + p.2))
    (acc.1 ++ [⟨u.1, none, texp⟩], acc.2.1 || u.2.1, u.2.2)) ([], false, s)

/-- What R23 and R264 find wrong with an operand that a compute step reads: none in a reserved type code (a TILED operand's types are
its headers', R340), else a reason code. -/
def operandCode (d : Desc) (turn : Bool) : Option (Option Nat) :=
  if D.tiled d then (panBad d tF32 true turn).map some
  else match D.ety d with
    | none => some none
    | some t => (panBad d t true turn).map some

/-- The refusal of a compute step for an operand it reads (R23, R264). -/
def State.operandBad (s : State) (c : Core) (block : Nat) (d : Desc) (turn : Bool) : Option State :=
  match operandCode d turn with
  | some none => some (s.badType c block)
  | some (some r) => some (s.panReject c r)
  | none => none

/-- A load enters its array's load queue (R101). -/
def State.loadEnqueue (s : State) (c : Core) (a : Arr) (lay : Nat) (g : Guard) (srcs : List LoadSrc) : State :=
  let x := s.arr c a
  s.setArr c a { x with loadq := x.loadq ++ [⟨s.now c, lay, srcs, g, false, false, none⟩] }

/-- LOAD (R98, R101, R675). -/
def issueLoad (c : Core) (w : StepWord) (s : State) : Issue :=
  match arrOf? (W.fn w 0 3) with
  | none => .bad 4
  | some a =>
    let lay := W.fn w 3 3
    if lay = 0 ∨ lay = 7 then .bad 4
    else if 2 ≤ (s.arr c a).loadq.length then .hold 4 0
    else
      let q := s.seq c
      let d := q.getT (W.ta w)
      let i := (q.getX (W.xa w)).toNat
      let j := (q.getX (W.xb w)).toNat
      match s.operandBad c 1 d false with
      | some t => .ok t
      | none =>
        s.readScales c 1 [d] (fun s =>
          let texp := (s.tensorExp c d).getD 0
          if D.tiled d then
            let r := s.loadHdrs c d lay i j texp
            if r.2.1 then .ok (r.2.2.stopArr c a)
            else if (lay = 4 ∨ lay = 5) ∧ r.1.any (fun l => s24Refuses lay l.hdr) then .ok (r.2.2.arrReject c a 7)
            else .ok (r.2.2.loadEnqueue c a lay (W.guard w) r.1)
          else if lay = 4 ∨ lay = 5 then .ok (s.arrReject c a 7)
          else .ok (s.loadEnqueue c a lay (W.guard w) ((layoutTiles lay).map (fun p => ⟨.empty, some (d, i + p.1, j + p.2), texp⟩))))

/-- A PASS that its array will not judge counts as one that its feed must not wait for (R126). -/
def State.passGone (c : Core) (a : Arr) (n : Nat) (s : State) : State :=
  let x := s.arr c a
  s.setArr c a { x with rejected := insSeq n x.rejected }

/-- PASS (R94, R102, R115). -/
def issuePass (c : Core) (w : StepWord) (s : State) : Issue :=
  match arrOf? (W.fn w 0 3) with
  | none => .bad 4
  | some a =>
    let mode := W.fn w 3 2
    if mode = 3 then .bad 4
    else if 4 ≤ (s.arr c a).opq.length then .hold 4 0
    else
      let q := s.seq c
      let d := q.getT (W.ta w)
      let masks := W.fnb w 27
      let re : BitVec 64 := if masks then q.getX (W.xa w) else BitVec.allOnes 64
      let ce : BitVec 64 := if masks then q.getX (W.xb w) else BitVec.allOnes 64
      match (if mode = 2 then s.operandBad c 1 d false else none) with
      | some s => .ok (s.passGone c a (s.now c))
      | none =>
        s.readScales c 1 (if mode = 2 then [d] else []) (drop := State.passGone c a (s.now c)) (fun s =>
          let k : ArrKind := .pass mode (W.fnb w 5) (W.fnb w 6) (W.fn w 7 10) (W.fn w 17 10 + 1) re ce d
            (q.getX (W.xc w)).toNat (if mode = 2 then (s.tensorExp c d).getD 0 else 0)
          .ok (s.arrEnqueue c a ⟨s.now c, k, s.numctl c, W.guard w, false, none⟩))

/-- A feed enters its feeder's queue (Table 11-2). -/
def State.feedEnqueue (s : State) (c : Core) (fd : Arr) (j : FeedJob) : State :=
  s.onCore c (fun k => k.setFeed fd (k.getFeed fd ++ [j]))

/-- FEED (R123, R127, R129, R331, R630). A feed may name a gather context whose FEEDER field names another feeder of the core (DESIGN
CHOICE: R145 gives that field no other effect than its check). -/
def issueFeed (c : Core) (w : StepWord) (s : State) : Issue :=
  let q := s.seq c
  let m := W.fn w 0 6
  let src := W.fn w 6 2
  let d := q.getT (W.ta w)
  let xa := q.getX (W.xa w)
  match feederOfMask c m with
  | none => .ok (s.feedReject c)
  | some fd =>
    if src = 3 then .ok (s.feedReject c)
    else if 4 ≤ ((s.core c).getFeed fd).length then .hold 4 0
    else
      let put (s : State) (f : FeedSrc) : State := s.feedEnqueue c fd ⟨s.now c, m, f, W.fn w 12 10 + 1, W.guard w⟩
      match src with
      | 0 =>
        if D.tiled d then .ok (s.feedReject c)
        else match s.operandBad c 0 d false with
          | some t => .ok t
          | none => s.readScales c 0 [d] (fun s => .ok (put s (.desc d xa.toNat 0 ((s.tensorExp c d).getD 0))))
      | 1 =>
        let r : BitVec 512 := BitVec.ofNat 512 (s.unitWord xa.toNat)
        let u := s.readCheck (feedWho c fd) xa.toNat
        let s := u.2
        let x := Win.ofRec r
        if u.1 ≠ 0 then .ok (s.readFault c)
        else if x.ok then
          (match x.ty with
           | none => .ok (s.badType c 0)
           | some _ =>
             if x.base % 64 ≠ 0 then .ok (s.panReject c 1)
             else .ok (put s (.window r (q.getX (W.xb w)).toNat (q.getX (W.xc w)).toNat)))
        else .ok (s.feedReject c)
      | _ => .ok (put s (.gather (W.fn w 8 4)))

/-- EXPORT (R111). -/
def issueExport (c : Core) (w : StepWord) (s : State) : Issue :=
  match arrOf? (W.fn w 0 3) with
  | none => .bad 4
  | some a =>
    if 4 ≤ (s.arr c a).opq.length then .hold 4 0
    else .ok (s.arrEnqueue c a ⟨s.now c, .exportTile (W.fn w 3 4) (W.fnb w 7), s.numctl c, W.guard w, false, none⟩)

/-- ACLR (R155). -/
def issueAclr (c : Core) (w : StepWord) (s : State) : Issue :=
  match arrOf? (W.fn w 0 3) with
  | none => .bad 4
  | some a =>
    if 15 < W.fn w 3 4 + W.fn w 7 4 then .ok (s.arrReject c a 4)
    else if 4 ≤ (s.arr c a).opq.length then .hold 4 0
    else .ok (s.arrEnqueue c a ⟨s.now c, .clear (64 * W.fn w 3 4) (64 * (W.fn w 7 4 + 1)), s.numctl c, W.guard w, false, none⟩)

/-- ASAVE and ARESTORE share their decode (R155). Their region is held to R23, R264 and R342; of a region of another kind than Table 11-6
gives, 4 words a row move all the same, where its layout places them (DESIGN CHOICE: the spec names no rejection for it). -/
def issueMove (c : Core) (w : StepWord) (k : Nat → Nat → Desc → Int → ArrKind) (s : State) : Issue :=
  match arrOf? (W.fn w 0 3) with
  | none => .bad 4
  | some a =>
    let d := (s.seq c).getT (W.ta w)
    let n := W.fn w 7 4 + 1
    if 15 < W.fn w 3 4 + W.fn w 7 4 then .ok (s.arrReject c a 4)
    else
      match operandCode d false with
      | some none => .ok (s.badType c 1)
      | some (some r) => .ok (s.panReject c r)
      | none =>
        if 4 ≤ (s.arr c a).opq.length then .hold 4 0
        else s.readScales c 1 [d] (fun s =>
          .ok (s.arrEnqueue c a ⟨s.now c, k (W.fn w 3 4) n d ((s.tensorExp c d).getD 0), s.numctl c, W.guard w, false, none⟩))

/-- ASAVE. -/
def issueAsave (c : Core) (w : StepWord) (s : State) : Issue := issueMove c w (fun t n d _ => .save t n d) s
/-- ARESTORE. -/
def issueArestore (c : Core) (w : StepWord) (s : State) : Issue := issueMove c w .restore s

/-- FRES (R133): XD takes the place's address and PD the outcome. -/
def issueFres (c : Core) (w : StepWord) (s : State) : Issue :=
  let g : Ctx := ⟨W.imm w % 16, by omega⟩
  match s.reservePlace c g with
  | (none, s) => .ok (s.onSeq c (fun q => q.setP (W.aPD w) false))
  | (some (f, i), s) =>
    .ok (s.onSeq c (fun q => (q.setX (W.aXD w) (s.placeAddr c g.val f i)).setP (W.aPD w) true))

/-- FPRES (R134). -/
def issueFpres (c : Core) (w : StepWord) (s : State) : Issue :=
  let g : Ctx := ⟨W.imm w % 16, by omega⟩
  match s.placeOf c g ((s.seq c).getX (W.aXA w)) with
  | some (f, i) => .ok (s.presentPlace c g f i)
  | none => .ok (s.feedReject c)

/-- FFLUSH (R136). -/
def issueFflush (c : Core) (w : StepWord) (s : State) : Issue :=
  .ok (s.closeTime c ⟨W.imm w % 16, by omega⟩)

/-- FREL (R134, R137). -/
def issueFrel (c : Core) (w : StepWord) (s : State) : Issue :=
  .ok (s.releaseFill c ⟨W.imm w % 16, by omega⟩ (W.imm w / 16 % 2))

end Sys2Proof.Machine
end

