-- ==== Sys2Proof/Machine/Sieve.lean ====
section
/-! DEFINITION. The sieve engine (spec/07_sieve_engine.md): the tile dispatcher, the sparse operations of Table 7-5, the
result store, the sieve table, the merge buffers, and the sparse steps of Table 11-8. -/
namespace Sys2Proof.Machine

/-! ### Stored elements and panels -/

/-- A stored element of a tile by line and position, with its value. -/
structure SEnt where
  line : Nat
  pos  : Nat
  val  : Fv
deriving DecidableEq, Repr

/-- The entries a sieve operation takes from a tile, line by line (R70, R190): every entry of a CSR line, the nonzeros of a
DENSE or S24 line. -/
def sieveLines (h : Hdr) (r : TileRead) (texp : Int) : List (List SEnt) :=
  let t := h.ty.getD tF32
  (r.lines.zip (List.range 64)).map (fun p =>
    (p.1.filter (fun e => h.format == 2 || isNonzero t e.bits e.scale)).map (fun e => ⟨p.2, e.pos, elemVal t texp (e.bits, e.scale)⟩))

/-- Row and column of an entry (R58). -/
def SEnt.row (h : Hdr) (e : SEnt) : Nat := if h.gaxis then e.pos else e.line
def SEnt.col (h : Hdr) (e : SEnt) : Nat := if h.gaxis then e.line else e.pos

/-- A product in a lane (R186): of two FP32 operands rounded once, all others under R31 to R33. -/
def laneProd (a b : Option EType × Fv) : Fv :=
  if isF32 a.1 && isF32 b.1 then f32 (toF32 .rne (a.2.mul b.2)) else product a.2 b.2

/-- The types of the tiles of a TILED operand that hold anything, or the descriptor's type. -/
def State.typesOf (s : State) (d : Desc) (tiles : List (Nat × Nat)) : List EType :=
  if D.tiled d then (tiles.filterMap (fun p => s.hdrType (D.pairAddr d p.1 p.2))).eraseDups else (D.ety d).toList

/-- Do all pairs of types multiply (R24), and as integers? -/
def typesArith (as bs : List EType) : Option Bool :=
  if (as.flatMap (fun a => bs.map (fun b => pairArith (some a) (some b)))).any (·.isNone) then none
  else some ((as ++ bs).any (·.isInt))

/-- The entries at element (r, j) of a TILED operand, with the tile's type: the sieve engine uses every one (R70). -/
def State.entsAt (s : State) (d : Desc) (r j : Nat) : Option EType × List Ent :=
  match judgeHdr (s.unitWord (D.pairAddr d (r / 64) (j / 64))) with
  | .ok h =>
    if h.format = 0 then (none, []) else
    let u := readTile (fun k => s.unitWord (h.payload + 64 * k)) h
    (h.ty, (nth [] (if h.gaxis then j % 64 else r % 64) u.lines).filter (fun e => e.pos == if h.gaxis then r % 64 else j % 64))
  | _ => (none, [])

/-- Element (r, j) of a panel operand, each coordinate clamped (R268), with the type it is stored in (R340). Entries of a CSR line that name
one position add (R70; DESIGN CHOICE for a panel: the spec says of no value that they have together). -/
def State.typedAt (s : State) (d : Desc) (texp : Int) (r j : Nat) : Option EType × Fv :=
  if D.tiled d then
    let e := s.entsAt d (clampTo r (D.rows d)) (clampTo j (D.cols d))
    (e.1, prodSum (e.2.map (fun x => elemVal (e.1.getD tF32) texp (x.bits, x.scale))))
  else (D.ety d, s.elemOf d ((D.ety d).getD tF32) texp r j)

/-- Element k, along the reduction axis, for result row i of a panel. With `along` the operand's rows lie along the reduction axis: result
row i takes element k0 + k of operand row i (R180). Else the operand's row is the reduction index (Table 7-5): it takes element i of
operand row k0 + k. -/
def State.panelAt (s : State) (d : Desc) (texp : Int) (along : Bool) (k0 i k : Nat) : Option EType × Fv :=
  if along then s.typedAt d texp i (k0 + k) else s.typedAt d texp (k0 + k) i

/-- What reading n rows of m elements of a panel counts, straight or turned (R259, R266, R268, R277); the flag tells that the engine
stops. -/
def State.countPanel (s : State) (c : Core) (d : Desc) (turn : Bool) (r0 n e0 m : Nat) : Bool × State :=
  if D.tiled d then
    let r := s.countTiles c 3 10 d (clampTo (r0 / 64) (D.tileRows d)) 1 (clampTo (e0 / 64) (D.tileCols d)) 1
    (r.1, r.2.bumpHi (rPanCnt c 0) (s.tileClamps d r0 n e0 m))
  else
    let r := s.countRows c 10 d ((D.ety d).getD tF32) turn r0 n e0 m
    (r.1 != 0, r.2)

/-! ### The result store (R195 to R198) -/

def resDefault (_ : Nat) : W32 := 0
def addsDefault (_ : Nat) : List Addend := []

/-- Put adds into the result store. -/
def State.resAdd (s : State) (c : Core) (l : List (Nat × Addend)) : State :=
  let v := s.sieve c
  s.setSieve c { v with adds := l.foldl (fun m p => m.put addsDefault p.1 (m.get addsDefault p.1 ++ [p.2])) v.adds }

/-- One add into an element (R189, R196). -/
def addInto (old : W32) (a : Addend) : W32 × Nat :=
  accAdd ⟨a.wrap, false, false⟩ old (if a.isInt then .int a.v.toInt else .flt a.v)

/-- Make the adds of the elements that `which` picks, in an order that is not fixed (R196). -/
def State.settleAdds (s : State) (c : Core) (which : Nat → Bool) : State :=
  ((s.sieve c).adds.filter (fun e => which e.1)).foldl (fun s e =>
    let s := s.tick
    let v := s.sieve c
    let r := (permBy e.2.length (Config.order s.free) e.2).foldl (fun a x =>
      let y := addInto a.1 x; (y.1, a.2 + y.2)) (v.res.get resDefault e.1, 0)
    (s.setSieve c { v with res := v.res.put resDefault e.1 r.1, adds := v.adds.put addsDefault e.1 [] }).bumpLo (rNumcnt0 c) r.2) s

/-- Is an element one of result tiles t to t+n-1? -/
def inTiles (t n k : Nat) : Bool := decide (4096 * t ≤ k) && decide (k < 4096 * (t + n))

/-- Result tiles t to t+n-1 become +0 (R195), after the adds of earlier jobs. -/
def State.clearResults (s : State) (c : Core) (t n : Nat) : State :=
  let s := s.settleAdds c (inTiles t n)
  let v := s.sieve c
  s.setSieve c { v with res := v.res.filter (fun e => !(inTiles t n e.1)), adds := v.adds.filter (fun e => !(inTiles t n e.1)) }

/-- The engine writes bytes: never into an accumulator store (R198). -/
def State.sievePut (s : State) (a : Nat) (bs : List Byte) : State :=
  if (accWindow (localOf a)).isSome then s else s.put 11 a bs

/-- A drain: 64 rows of 4 words, LINEAR (R197); rows outside the descriptor's extents are not written (R269). -/
def State.drainTile (s : State) (c : Core) (t : Nat) (d : Desc) (row : Nat) : State :=
  let s := s.settleAdds c (inTiles t 1)
  (List.range 64).foldl (fun s r =>
    if row + r < D.rows d then
      (List.range 4).foldl (fun (s : State) (w : Nat) =>
        s.sievePut (wrapWord (D.base d) (D.pitch d * (row + r) + w : Nat))
          ((rangeFrom (16 * w) 16).flatMap (fun k => bytesOf 4 ((s.sieve c).res.get resDefault (4096 * t + 64 * r + k)).toNat))) s
    else s.bumpLo (rPanCnt c 1) 4) s

/-! ### Stopping the engine (Table 11-15) -/

/-- Jobs are discarded, result tiles keep the adds made, open merge tiles are not written. -/
def SieveSt.abort (v : SieveSt) : SieveSt :=
  { v with jobs := [], disp := none, routed := [], merge := [], stalled := [], merging := none }

/-- The sieve engine ends as Table 11-15 gives, and the sequencer enters FAULTED (R607, R613). -/
def State.stopSieve (s : State) (c : Core) : State := (s.setSieve c (s.sieve c).abort).seqFault c

/-! ### Operations (Table 7-5) -/

/-- A job ends: its guard flags follow (R347). -/
def State.sieveDone (s : State) (c : Core) (j : SieveJob) : State := if j.fromDisp then s else s.guardDone c j.guard

/-- One chunk accumulator: +0, then the products in entry order (R187, R189). -/
def chunkSum (nc : NumCtl) (isInt : Bool) (ps : List Fv) : W32 × Nat :=
  accFold nc true 0 (ps.map (fun p => if isInt then TreeOut.int p.toInt else .flt p))

/-- A lane accumulator as a value. -/
def accVal (isInt : Bool) (w : W32) : Fv := if isInt then Fv.ofInt w.toInt 0 else f32 w

/-- The adds of SpMM or SpMM-T (R187, R202): element, value, and what its chunk saturated. -/
def spmmAdds (nc : NumCtl) (isInt transposed : Bool) (ty : Option EType) (lines : List (List SEnt)) (m res : Nat)
    (pan : Nat → Nat → Option EType × Fv) : List (Nat × Addend × Nat) :=
  let mk (v : Fv) : Addend := ⟨v, isInt, nc.intWrap⟩
  if transposed then
    lines.flatMap (fun es => es.flatMap (fun e => (List.range m).map (fun i =>
      (4096 * res + 64 * i + e.pos, mk (laneProd (ty, e.val) (pan i e.line)), 0))))
  else
    lines.flatMap (fun es => (chunks 64 es.length es).flatMap (fun ch => (List.range m).map (fun i =>
      let a := chunkSum nc isInt (ch.map (fun e => laneProd (ty, e.val) (pan i e.pos)))
      (4096 * res + 64 * i + (ch.head?.map (·.line)).getD 0, mk (accVal isInt a.1), a.2))))

/-- SpMM and SpMM-T (R187, R199, R202). Operands that R24 does not pair are refused before anything is read. -/
def State.runSpmm (s : State) (c : Core) (j : SieveJob) (hdr : Option Hdr) (addr : Nat) (ea : Int) (panel : Desc) (eb : Int)
    (k0 m res : Nat) (transposed along turn : Bool) : State :=
  let aTy := match hdr with
    | some h => if h.format = 0 then none else h.ty
    | none => s.hdrType addr
  let pTy := s.typesOf panel [if along then (0, clampTo (k0 / 64) (D.tileCols panel)) else (clampTo (k0 / 64) (D.tileRows panel), 0)]
  match typesArith aTy.toList pTy with
  | none => s.badType c 3
  | some isInt =>
    let u := match hdr with
      | some h => (h, false, s)
      | none => s.useHdr c 3 9 addr
    if u.2.1 then u.2.2.stopSieve c
    else if u.1.format = 0 then u.2.2.sieveDone c j
    else
      let r := u.2.2.useTile c 3 9 u.1
      let p := if along then r.2.2.countPanel c panel turn 0 m k0 64 else r.2.2.countPanel c panel turn k0 64 0 m
      let adds := spmmAdds j.nc isInt transposed u.1.ty (sieveLines u.1 r.1 ea) m res
        (fun i k => s.panelAt panel eb along k0 i k)
      if p.1 then p.2.stopSieve c else
      let s := (p.2.resAdd c (adds.map (fun a => (a.1, a.2.1)))).bumpLo (rNumcnt0 c) (adds.map (·.2.2)).sum
      if r.2.1 then s.stopSieve c else s.sieveDone c j

/-- A deep-mode sum (R188): groups of 16 products through a four-level tree, each tree output into one accumulator. -/
def deepSum (nc : NumCtl) (isInt : Bool) (ps : List Fv) : W32 × Nat :=
  accFold nc true 0 ((chunks 16 ps.length ps).map (fun g => if isInt then TreeOut.int (intSum g) else .flt (tree 4 g)))

/-! ### Merge buffers (R207 to R209) -/

/-- Declared extent of tile i of n elements (R340). -/
def tileExtent (n i : Nat) : Nat := if n ≤ 64 * i then 1 else min 64 (n - 64 * i)

/-- Is a triple within its output tile's extents (R211)? -/
def MergeTile.holds (m : MergeTile) (t : Triple) : Bool :=
  let er := tileExtent (D.rows m.td) m.i
  let ec := tileExtent (D.cols m.td) m.j
  if D.gaxis m.td then decide (t.line < ec) && decide (t.pos < er) else decide (t.line < er) && decide (t.pos < ec)

/-- A tile whose triples wait takes a free merge buffer (R209). Triples out of range are dropped as they arrive (R211, R212); the
record names the first by 64 × line + position (DESIGN CHOICE: a triple has no entry number). -/
def State.mergeFill (s : State) (c : Core) : State :=
  let v := s.sieve c
  match v.stalled with
  | [] => s
  | m :: rest =>
    if 2 ≤ v.merge.length then s
    else
      let out := m.triples.filter (fun t => !(m.holds t))
      let s := (s.setSieve c { v with merge := v.merge ++ [{ m with triples := m.triples.filter m.holds }], stalled := rest }).bumpLo
        (rSieveCnt c 0) out.length
      match out.head? with
      | some t => if D.idxPol m.td then s.raise fIdxRange 3 c.val [64 * t.line + t.pos] else s
      | none => s

/-- Output tiles reach the merge tree, two of them its buffers; every read of the step has delivered its words (R346). -/
def State.mergeOpen (s : State) (c : Core) (g : Guard) (ms : List MergeTile) : State :=
  let v := s.sieve c
  (((s.setSieve c { v with stalled := v.stalled ++ ms, merging := some g.released }).mergeFill c).mergeFill c).readsDone c g

/-- The value of a key: its triples summed in an order that is not fixed (R208). -/
def mergeSum (nc : NumCtl) (isInt : Bool) (l : List Fv) : Fv × Nat :=
  if isInt then
    let r := accFold nc true 0 (l.map (fun v => TreeOut.int v.toInt))
    (Fv.ofInt r.1.toInt 0, r.2)
  else (match l with
    | [] => fvZero
    | v :: vs => vs.foldl nodeAdd v, 0)

/-- One dense line of an output tile converted. The SR conversions of one dense line that holds a key are one group of 64; a line
that holds none converts nothing (DESIGN CHOICE: the spec does not say how the tree's output falls into groups of R43). -/
def mergeLine (m : MergeTile) (order : Nat → Nat) (gen : W32) (l : Nat) : Conv × Nat :=
  let ts := m.triples.filter (fun t => t.line == l)
  if ts.isEmpty then (⟨List.replicate 64 0, [127, 127], .zero, gen⟩, 0)
  else
    let vs := (List.range 64).map (fun p =>
      let w := (ts.filter (fun t => t.pos == p)).map (·.val)
      mergeSum m.nc m.isInt (permBy w.length (order (64 * l + p)) w))
    (convertGroup m.nc m.ety m.sr (vs.map (·.1)) gen, (vs.map (·.2)).sum)

/-- The oldest open tile passes the compressor: payload, then header pair (R63, R78, R82, R209, R341). Each key has an order of its
own (R208). -/
def State.closeMerge (s : State) (c : Core) (m : MergeTile) : State :=
  let order (k : Nat) : Nat := Config.order (s.free + 1 + k)
  let s := { s with free := s.free + 4096 }
  let cv := (List.range 64).foldl (fun (acc : Conv × Nat) l =>
    let r := mergeLine m order acc.1.gen l
    (⟨acc.1.elems ++ r.1.elems, acc.1.scales ++ r.1.scales, acc.1.cnt.add r.1.cnt, r.1.gen⟩, acc.2 + r.2))
    (⟨[], [], .zero, s.gen c⟩, 0)
  let o : OutTile := ⟨m.ety, D.gaxis m.td, tileExtent (D.rows m.td) m.i, tileExtent (D.cols m.td) m.j, D.idxPol m.td,
    D.uflags m.td, chunks 64 64 cv.1.elems, cv.1.scales⟩
  let z := o.compress m.target m.pol m.cut
  let pay := D.base m.td + 64 * (m.i * D.tileCols m.td + m.j) * denseWords m.ety
  let s := (((s.setGen c cv.1.gen).countNum c cv.1.cnt).bumpLo (rNumcnt0 c) cv.2).bumpLo (rTilecnt0 c) z.pruned
  (s.sievePut pay (wordBytes z.payload)).sievePut (D.pairAddr m.td m.i m.j) (pairBytes (o.header z m.pol pay))

/-- SDDMM (R188, R199, R200): dot products, along the reduction axis of A, at the mask's pattern. The output tile goes to a merge
buffer. -/
def State.runSddmm (s : State) (c : Core) (j : SieveJob) (w : StepWord) (mask a b out : Desc) (em ea eb : Int)
    (xa xb : Nat) : State :=
  let pt := W.fnb w 19
  let mul := W.fnb w 7
  let len := if pt then D.rows a else D.cols a
  let n := ceilDiv len 64
  let side (d : Desc) : List (Nat × Nat) :=
    if pt then tileGrid 0 (min n (D.tileRows d)) 0 1 else tileGrid 0 1 0 (min n (D.tileCols d))
  let maddr := D.pairAddr mask xa xb
  let ats := s.typesOf a (side a)
  let bts := s.typesOf b (side b)
  match typesArith ats bts, D.ety out with
  | some isInt, some t =>
    if mul && !(ats ++ bts).isEmpty && (match s.hdrType maddr with
        | some m => m.isInt != isInt
        | none => false) then s.badType c 3
    else
      let u := s.useHdr c 3 9 maddr
      if u.2.1 then u.2.2.stopSieve c else
      let r := u.2.2.useTile c 3 9 u.1
      let p := (List.range n).foldl (fun (x : Bool × State) k =>
        let rd (x : Bool × State) (d : Desc) : Bool × State :=
          let y := if pt then x.2.countPanel c d true (64 * k) 64 0 64 else x.2.countPanel c d false 0 64 (64 * k) 64
          (x.1 || y.1, y.2)
        rd (rd x a) b) (false, r.2.2)
      if p.1 then p.2.stopSieve c else
      let dot (i k : Nat) : W32 × Nat := deepSum j.nc isInt ((List.range len).map (fun e =>
        if pt then laneProd (s.typedAt a ea e i) (s.typedAt b eb e k) else laneProd (s.typedAt a ea i e) (s.typedAt b eb k e)))
      let outs := (sieveLines u.1 r.1 em).flatMap (fun es => es.map (fun e =>
        let d := dot (e.row u.1) (e.col u.1)
        let v := accVal isInt d.1
        let q := i32add j.nc 0 (e.val.mul v).toInt
        let v' := if mul then (if isInt then Fv.ofInt q.1.toInt 0 else f32 (toF32 .rne (e.val.mul v))) else v
        let tr : Triple := if D.gaxis out then ⟨e.col u.1, e.row u.1, v'⟩ else ⟨e.row u.1, e.col u.1, v'⟩
        (tr, d.2 + (if mul && isInt then q.2 else 0))))
      let s := p.2.bumpLo (rNumcnt0 c) (outs.map (·.2)).sum
      if r.2.1 then s.stopSieve c
      else s.mergeOpen c j.guard [⟨xa, xb, outs.map (·.1), out, t, isInt, W.fnb w 16, W.fnb w 17, W.fnb w 18, j.nc, j.cut⟩]
  | _, _ => s.badType c 3

/-- A tile as SpGEMM and INTERSECT read it: its place, header and entries. -/
structure STile where
  i    : Nat
  j    : Nat
  hdr  : Hdr
  ents : List SEnt
deriving DecidableEq, Repr

/-- Read a tile for SpGEMM or INTERSECT. With `keys` the 32-bit keys, which run along the columns, are held against the operand's
declared extent (R211). The flag tells that the engine stops. -/
def State.sieveTile (s : State) (c : Core) (keys : Bool) (d : Desc) (texp : Int) (i k : Nat) : STile × Bool × State :=
  let u := s.useHdr c 3 9 (D.pairAddr d i k)
  if u.2.1 then (⟨i, k, .empty, []⟩, true, u.2.2)
  else
    let h := if keys then { u.1 with cols := min u.1.cols (D.cols d - 64 * k) } else u.1
    let r := u.2.2.useTile c 3 9 h
    (⟨i, k, h, (sieveLines h r.1 texp).flatMap id⟩, r.2.1, r.2.2)

/-- Read a list of tiles in order. -/
def State.sieveTiles (s : State) (c : Core) (keys : Bool) (d : Desc) (texp : Int) : List (Nat × Nat) → List STile × Bool × State
  | [] => ([], false, s)
  | p :: ps =>
    let u := s.sieveTile c keys d texp p.1 p.2
    let r := u.2.2.sieveTiles c keys d texp ps
    (u.1 :: r.1, u.2.1 || r.2.1, r.2.2)

/-- The types of the tiles of a list, by their headers. -/
def State.tileTypes (s : State) (d : Desc) (l : List (Nat × Nat)) : List EType :=
  (l.filterMap (fun p => s.hdrType (D.pairAddr d p.1 p.2))).eraseDups

/-- SpGEMM (R201, R207 to R209): tile row XA of A from tile column XB against B; one output tile for each tile column of
B. -/
def State.runSpgemm (s : State) (c : Core) (j : SieveJob) (w : StepWord) (ta tb tc : Desc) (ea eb : Int)
    (xa xb : Nat) : State :=
  let ks := rangeFrom xb (D.tileCols ta - xb)
  let la := ks.map (fun k => (xa, k))
  let lb := ks.flatMap (fun k => (List.range (D.tileCols tb)).map (fun n => (k, n)))
  match typesArith (s.tileTypes ta la) (s.tileTypes tb lb), D.ety tc with
  | some isInt, some t =>
    let ra := s.sieveTiles c false ta ea la
    let rb := ra.2.2.sieveTiles c false tb eb lb
    if ra.2.1 || rb.2.1 then rb.2.2.stopSieve c else
    let tripsOf (n : Nat) : List Triple :=
      ra.1.flatMap (fun a => a.ents.flatMap (fun e =>
        (rb.1.filter (fun b => b.i == a.j && b.j == n)).flatMap (fun b =>
          (b.ents.filter (fun f => f.row b.hdr == e.col a.hdr)).map (fun f =>
            let v := laneProd (a.hdr.ty, e.val) (b.hdr.ty, f.val)
            if D.gaxis tc then (⟨f.col b.hdr, e.row a.hdr, v⟩ : Triple) else ⟨e.row a.hdr, f.col b.hdr, v⟩))))
    rb.2.2.mergeOpen c j.guard ((List.range (D.tileCols tb)).map (fun n =>
      (⟨xa, n, tripsOf n, tc, t, isInt, W.fnb w 16, W.fnb w 17, W.fnb w 18, j.nc, j.cut⟩ : MergeTile)))
  | _, _ => s.badType c 3

/-! ### The sieve table (R203 to R206) -/

/-- The set of a key (R203). -/
def keySet (k : Nat) : Nat := (k * 0x9E3779B1) % 2 ^ 32 / 2 ^ 23

/-- A key of a row stream with its value and the type it is stored in. -/
abbrev KeyVal := Nat × Option EType × Fv

/-- Cut a build stream into segments (R206): a key that finds its set holding 8 entries, or the table full, begins the next
segment. -/
def segments (ks : List KeyVal) : List (List KeyVal) :=
  let r := ks.foldl (fun (acc : List (List KeyVal) × List KeyVal) e =>
    let full := decide (8 ≤ (acc.2.filter (fun x => keySet x.1 == keySet e.1)).length) || decide (4096 ≤ acc.2.length)
    if full then (acc.1 ++ [acc.2], [e]) else (acc.1, acc.2 ++ [e])) ([], [])
  r.1 ++ [r.2]

/-- INTERSECT (R199, R203 to R206): row i of A against row k of B, pairs in probe order within each segment. A's rows are those of tile row
XA from tile column XB on, B's those of tile row 0 of TB over every tile column (DESIGN CHOICE: the spec gives no place within TB). -/
def State.runIntersect (s : State) (c : Core) (j : SieveJob) (ta tb : Desc) (ea eb : Int) (xa xb res : Nat) : State :=
  let la := (rangeFrom xb (D.tileCols ta - xb)).map (fun k => (xa, k))
  let lb := (List.range (D.tileCols tb)).map (fun k => (0, k))
  match typesArith (s.tileTypes ta la) (s.tileTypes tb lb) with
  | none => s.badType c 3
  | some isInt =>
    let ra := s.sieveTiles c true ta ea la
    let rb := ra.2.2.sieveTiles c true tb eb lb
    if ra.2.1 || rb.2.1 then rb.2.2.stopSieve c else
    let row (l : List STile) (i : Nat) : List KeyVal :=
      l.flatMap (fun t => (t.ents.filter (fun e => e.row t.hdr == i)).map (fun e => (64 * t.j + e.col t.hdr, t.hdr.ty, e.val)))
    let one (i k : Nat) : List Fv := (segments (row ra.1 i)).flatMap (fun seg => (row rb.1 k).flatMap (fun p =>
      (seg.filter (fun b => b.1 == p.1)).map (fun b => laneProd b.2 p.2)))
    let outs := (List.range 4096).filterMap (fun q =>
      let ps := one (q / 64) (q % 64)
      if ps.isEmpty then none else some (q, deepSum j.nc isInt ps))
    let splits := ((List.range 64).map (fun i => (segments (row ra.1 i)).length - 1)).sum
    let s := (rb.2.2.bumpLo (rSieveCnt c 1) splits).bumpLo (rNumcnt0 c) (outs.map (·.2.2)).sum
    (s.resAdd c (outs.map (fun o => (4096 * res + o.1, ⟨accVal isInt o.2.1, isInt, j.nc.intWrap⟩)))).sieveDone c j

/-! ### SORT and TOPK (R210) -/

/-- Does (value, index) a come before b? -/
def ranksBefore (asc mag : Bool) (a b : Fv × Nat × Nat) : Bool :=
  let x := if mag then a.1.abs else a.1
  let y := if mag then b.1.abs else b.1
  match x.isNan, y.isNan with
  | true, true => decide (a.2.2 < b.2.2)
  | true, false => true
  | false, true => false
  | false, false =>
    let gt := if asc then x.lt y else y.lt x
    let lt := if asc then y.lt x else x.lt y
    gt || (!lt && decide (a.2.2 < b.2.2))

/-- Insert into a ranked list. -/
def rankInsert (asc mag : Bool) (e : Fv × Nat × Nat) : List (Fv × Nat × Nat) → List (Fv × Nat × Nat)
  | [] => [e]
  | x :: l => if ranksBefore asc mag e x then e :: x :: l else x :: rankInsert asc mag e l

/-- Element (r, j) of a row to be ranked: its value, and its bits in type t. An element that a tile stores in another type, and the
sum of repeated entries, are converted, rounding to nearest even (DESIGN CHOICE: R210 knows one source type, and R70 gives repeated
entries no value together). -/
def State.rankElem (s : State) (d : Desc) (t : EType) (texp : Int) (r j : Nat) : Fv × Nat :=
  if D.tiled d then
    let x := s.entsAt d r j
    let ht := x.1.getD tF32
    let v := prodSum (x.2.map (fun e => elemVal ht texp (e.bits, e.scale)))
    (match x.2 with
     | [] => (fvZero, 0)
     | [e] => (v, if ht.code == t.code then e.bits else (convert ⟨false, false, false⟩ false t.code .rne v).1)
     | _ => (v, (convert ⟨false, false, false⟩ false t.code .rne v).1))
  else
    let b := runElem (fun k => s.unitWord (D.wordAddr d t r k)) t (D.cols d) j
    (elemVal t texp b, b.1)

/-- SORT and TOPK: the values in the source type, then their indices from the next word, in row XA of TC where it has one (R269). The
source type of a TILED row is that of its first tile that holds anything. The row is element row XA of TA from its element XB on (DESIGN
CHOICE: Table 11-8 calls XA and XB a tile row and column of TA, and a row to be ranked is a row of elements). -/
def State.runSort (s : State) (c : Core) (j : SieveJob) (w : StepWord) (ta tc : Desc) (ea : Int) (xa xb len : Nat) : State :=
  let r := clampTo xa (D.rows ta)
  let j0 := clampTo xb (D.cols ta) / 64
  let tiles := tileGrid (r / 64) 1 j0 (clampTo (xb + (len - 1)) (D.cols ta) / 64 + 1 - j0)
  let src := s.typesOf ta tiles
  match (if D.tiled ta then some (src.headD tF32) else D.ety ta) with
  | none => s.badType c 3
  | some t =>
    let es := (List.range len).map (fun i =>
      let e := s.rankElem ta t ea r (clampTo (xb + i) (D.cols ta))
      (e.1, e.2, i))
    let ranked := es.foldl (fun l e => rankInsert (W.fnb w 8) (W.fnb w 9) e l) []
    let out := if W.fn w 0 3 = 6 then ranked.take (W.fn w 10 6 + 1) else ranked
    let ws := packWords t.code (out.map (·.2.1)) ++ packWords .int32 (out.map (·.2.2))
    let u := if D.tiled ta then
        let x := s.countTiles c 3 9 ta (r / 64) 1 j0 (clampTo (xb + (len - 1)) (D.cols ta) / 64 + 1 - j0)
        (x.1, x.2.bumpHi (rPanCnt c 0) (s.tileClamps ta xa 1 xb len))
      else let x := s.countRows c 9 ta t false xa 1 xb len; (x.1 != 0, x.2)
    if u.1 then u.2.stopSieve c else
    let s := if xa < D.rows tc then
        (ws.zip (List.range ws.length)).foldl (fun s p =>
          s.sievePut (wrapWord (D.base tc) (layoutWord (D.layout tc) (D.pitch tc) ws.length xa p.2)) (bytesOf 64 p.1)) u.2
      else u.2.bumpLo (rPanCnt c 1) ws.length
    s.sieveDone c j

/-! ### Jobs in order (R184, R194, R197) -/

/-- May the engine take its head job: jobs of a dispatch step come before the steps after it, and an operation that fills
merge buffers waits until they are empty. -/
def SieveSt.headReady (v : SieveSt) : Bool :=
  match v.jobs with
  | [] => false
  | j :: _ => (j.fromDisp || v.disp.isNone) && (match j.kind with
    | .sddmm .. | .spgemm .. => v.merging.isNone
    | _ => true)

/-- Run an operation (SIEVE_JOB_START). -/
def State.runSieveJob (s : State) (c : Core) (j : SieveJob) : State :=
  match j.kind with
  | .spmm h a ea p eb k m res tr al pt => s.runSpmm c j h a ea p eb k m res tr al pt
  | .sddmm w m a b o em ea eb xa xb => s.runSddmm c j w m a b o em ea eb xa xb
  | .spgemm w ta tb tc ea eb xa xb => s.runSpgemm c j w ta tb tc ea eb xa xb
  | .intersect ta tb ea eb xa xb res => s.runIntersect c j ta tb ea eb xa xb res
  | .sort w ta tc ea xa xb len => s.runSort c j w ta tc ea xa xb len
  | .drain res d row => (s.drainTile c res d row).sieveDone c j
  | .clear res n => (s.clearResults c res n).sieveDone c j
  | .disp .. => s

/-! ### The dispatcher (R180 to R185) -/

/-- Members of a dispatch step, ascending. -/
def dispMembers (w : StepWord) : List Arr := membersOf (W.fn w 3 6)
/-- ROUTE of Table 7-2. -/
inductive Route | skip | array | sieve
deriving DecidableEq, Repr

/-- Table 7-2. -/
def routeOf (route cut : Nat) (h : Hdr) : Route :=
  match h.format with
  | 0 => .skip
  | 1 => .array
  | 3 => if route = 2 then .sieve else .array
  | _ =>
    if route = 2 then .sieve
    else if route = 1 ∨ cut ≤ h.nnz then .array else .sieve

/-- Does array a take new work (R353)? A dispatch step goes on without a member that does not, as a feed does (R355, R126; DESIGN
CHOICE: what the dispatcher would have sent it is left out and not counted in UNIT_OFF, which counts issued steps). -/
def State.arrTakes (s : State) (c : Core) (a : Arr) : Bool := (s.core c).getUnit ⟨a.val, by omega⟩ == .enabled

/-- The members of a round that take its feed. -/
def State.roundOf (s : State) (c : Core) (d : DispSt) : List (Nat × Nat × Bool) :=
  d.round.filter (fun r => match arrOf? r.1 with
    | some a => s.arrTakes c a
    | none => false)

/-- Enqueue a round's passes and its feed (R182, R183): none where an array or the feeder has no room. -/
def State.dispFeed (s : State) (c : Core) (d : DispSt) : Option State :=
  match d.job.kind with
  | .disp w _ tb xa _ _ _ _ eb =>
    let m := (dispMembers w).length
    let v := W.fn w 23 10 + 1
    let round := s.roundOf c d
    let mask := (round.map (fun r => 2 ^ r.1)).sum
    match feederOfMask c mask with
    | none => some s
    | some fd =>
      if round.any (fun r => match arrOf? r.1 with
          | some a => decide (4 ≤ (s.arr c a).opq.length)
          | none => false) ∨ 4 ≤ ((s.core c).getFeed fd).length then none
      else
        let seq := d.job.seq + d.n
        let s := round.foldl (fun s r =>
          match arrOf? r.1 with
          | some a => s.arrEnqueue c a ⟨seq, .pass (if W.fnb w 2 then 1 else 0) true r.2.2 (W.fn w 9 10 + r.2.1 / m * v) v
              (BitVec.allOnes 64) (BitVec.allOnes 64) 0 0 0, d.job.nc, .none, false, none⟩
          | none => s) s
        some (s.onCore c (fun k => k.setFeed fd (k.getFeed fd ++ [⟨seq, mask, .desc tb 0 (64 * (xa + d.kb)) eb, v, .none⟩])))
  | _ => some s

/-- What one step of the dispatcher gives: it is held (R184), goes on, has routed everything, or is stopped (R607). -/
inductive DispOut
  | held
  | go (s : State) (d : DispSt)
  | done (s : State)
  | stopped (s : State)

/-- The sieve job of a dispatched tile (R180, R181): rows 0 to V - 1 of the activation source, and of each the elements of its K tile,
whether its words go through the turn tile or not (DESIGN CHOICE: R180 names those elements, and PTRANS only the order of the read).
-/
def dispJob (d : DispSt) (w : StepWord) (h : Hdr) (addr : Nat) (ea : Int) (tb : Desc) (eb : Int) (xa : Nat) : SieveJob :=
  let n := min (W.fn w 23 10 + 1) 64
  let pt := W.fnb w 33
  let tr := if W.fnb w 2 then h.gaxis else !h.gaxis
  ⟨d.job.seq, .spmm (some h) addr ea tb eb (64 * (xa + d.kb)) n (W.fn w 19 4 + d.b) tr true pt,
    d.job.nc, d.job.cut, .none, true⟩

/-- One step of the dispatcher. -/
def State.dispStep (s : State) (c : Core) (d : DispSt) : DispOut :=
  match d.job.kind with
  | .disp w ta tb xa kc xc nblk ea eb =>
    let ms := dispMembers w
    let m := ms.length
    let v := W.fn w 23 10 + 1
    if kc ≤ d.kb then
      -- clear the blocks that never reached an array (R183)
      if nblk ≤ d.cb then .done s
      else
        match (if NSet.has d.cb d.had then none else ms[d.cb % m]?) with
        | none => .go s { d with cb := d.cb + 1 }
        | some a =>
          if !(s.arrTakes c a) then .go s { d with cb := d.cb + 1 }
          else if 4 ≤ (s.arr c a).opq.length then .held
          else .go (s.arrEnqueue c a ⟨d.job.seq + d.n, .clear (W.fn w 9 10 + d.cb / m * v) v, d.job.nc, .none, false, none⟩)
            { d with cb := d.cb + 1, n := d.n + 1 }
    else if !d.round.isEmpty ∧ (d.b = nblk ∨ d.b % m = 0) then
      (match s.dispFeed c d with
       | some s => .go s { d with round := [], n := d.n + 1 }
       | none => .held)
    else if nblk ≤ d.b then .go s { d with kb := d.kb + 1, b := 0 }
    else
      let addr := if W.fnb w 2 then D.pairAddr ta (xc + d.b) (xa + d.kb) else D.pairAddr ta (xa + d.kb) (xc + d.b)
      let next := { d with b := d.b + 1 }
      let u := s.useHdr c 3 9 addr
      if u.2.1 then .stopped (u.2.2.stopSieve c)
      else
        match judgeHdr (s.unitWord addr) with
        | .ok h =>
          (match routeOf (W.fn w 0 2) d.job.cut h, ms[d.b % m]? with
           | .array, some a =>
             let x := s.arr c a
             if !(s.arrTakes c a) then .go u.2.2 next
             else if 2 ≤ x.loadq.length then .held
             else
               let job : LoadJob := ⟨d.job.seq + d.n, 1, [⟨h, none, ea⟩], .none, false, false, none⟩
               .go (u.2.2.setArr c a { x with loadq := x.loadq ++ [job] })
                 { next with round := d.round ++ [(a.val, d.b, !(NSet.has d.b d.had))], had := NSet.add d.b d.had, n := d.n + 1 }
           | .sieve, _ =>
             if 16 ≤ (s.sieve c).jobs.length then .held
             else
               let s := u.2.2.bumpHi (rSieveCnt c 3) 1
               let q := s.sieve c
               let jobs := q.jobs.filter (·.fromDisp) ++ dispJob d w h addr ea tb eb xa :: q.jobs.filter (fun x => !x.fromDisp)
               .go (s.setSieve c { q with jobs := jobs }) next
           | _, _ => .go (u.2.2.bumpLo (rSieveCnt c 3) 1) next)
        | .mismatch => .go (u.2.2.bumpLo (rSieveCnt c 3) 1) next
        | _ => .go u.2.2 next
  | _ => .done s

/-- Run the dispatcher until it is held or has routed everything; `fuel` bounds its steps. -/
def State.dispRun (s : State) (c : Core) (d : DispSt) : Nat → State
  | 0 => s
  | fuel + 1 =>
    match s.dispStep c d with
    | .held => s.setSieve c { s.sieve c with disp := some d }
    | .go s' d' => s'.dispRun c d' fuel
    | .done s' => s'.setSieve c { s'.sieve c with disp := none, routed := (s'.sieve c).routed ++ [d.job] }
    | .stopped s' => s'

/-- Steps a dispatch can take. -/
def dispFuel (d : DispSt) : Nat :=
  match d.job.kind with
  | .disp _ _ _ _ kc _ nblk _ _ => (kc + 1) * (2 * nblk + 3) + nblk + 2
  | _ => 1

/-- Start a dispatch step: its result tiles are cleared (R183) and it routes as far as it can. -/
def State.dispStart (s : State) (c : Core) (j : SieveJob) : State :=
  match j.kind with
  | .disp w _ _ _ _ _ nblk _ _ =>
    let d : DispSt := ⟨j, 0, 0, [], [], 1, 0⟩
    (s.clearResults c (W.fn w 19 4) nblk).dispRun c d (dispFuel d)
  | _ => s

/-- Has every job and feed of a routed dispatch step completed? -/
def State.dispIdle (s : State) (c : Core) (j : SieveJob) : Bool :=
  let mine (n : Nat) : Bool := decide (j.seq ≤ n) && decide (n < j.seq + 2 ^ 160)
  let k := s.core c
  !(k.sieve.jobs.any (·.fromDisp)) && (List.finRange 6).all (fun a =>
    !((k.getFeed a).any (fun f => mine f.seq)) && !((k.getArr a).opq.any (fun o => mine o.seq)))

/-- Dispatch steps that have completed set their guard flags (R346, R347). -/
def State.dispSettle (s : State) (c : Core) : State :=
  let v := s.sieve c
  match v.routed with
  | j :: rest => if s.dispIdle c j then (s.setSieve c { v with routed := rest }).guardDone c j.guard else s
  | [] => s

/-- The engine has come to rest: with no job left, every add has been made (R196). -/
def State.sieveRest (s : State) (c : Core) : State :=
  let v := s.sieve c
  (if v.jobs.isEmpty && v.disp.isNone then s.settleAdds c (fun _ => true) else s).dispSettle c

/-- Take from the head of the job queue what runs without panels: drains, clears and dispatch steps. -/
def State.sieveAdvance (s : State) (c : Core) : Nat → State
  | 0 => s
  | fuel + 1 =>
    let v := s.sieve c
    if !v.headReady then s.sieveRest c else
    match v.jobs with
    | [] => s
    | j :: rest =>
      let s' := s.setSieve c { v with jobs := rest }
      match j.kind with
      | .drain .. | .clear .. => (s'.runSieveJob c j).sieveAdvance c fuel
      | .disp .. => (s'.dispStart c j).sieveAdvance c fuel
      | _ => s.sieveRest c

/-- DISP_BADCNT and a DISP_BAD record (R185, R195). -/
def State.dispReject (s : State) (c : Core) : State := (s.bumpHi (rSieveCnt c 4) 1).raise fDispBad 3 c.val []

/-- A sieve step in the job queue, with the settings at its decode (R53, R83). -/
def State.sieveAdd (s : State) (c : Core) (w : StepWord) (k : SieveKind) : State :=
  let v := s.sieve c
  (s.setSieve c { v with jobs := v.jobs ++ [⟨s.now c, k, s.numctl c, s.denseCut c, W.guard w, false⟩] }).sieveAdvance c 40

/-- Queue a sieve step, held at issue while the queue holds 16 jobs; the scale words of its descriptors are read as it issues (R342). A
dispatch step that is routing keeps one place for its own jobs, which come before every later step's. -/
def State.sieveEnqueue (s : State) (c : Core) (w : StepWord) (ds : List Desc) (k : SieveKind) : Issue :=
  let v := s.sieve c
  if 16 ≤ v.jobs.length + b2n v.disp.isSome then .hold 4 0 else s.readScales c 3 ds (fun s => .ok (s.sieveAdd c w k))

/-! ### Steps (Table 11-8) -/

/-- The reason code of Table 9-5 for an operand taken by its header pairs, or written tile by tile (R261, R263, R339). -/
def tilesBad (d : Desc) : Option Nat :=
  firstCode [(1, D.base d % 64 != 0 || D.hdrp d % 64 != 0), (3, D.layout d == 2), (5, D.layout d == 3)]

/-- The refusal of a sieve step for an operand that it takes by its header pairs (R264). -/
def State.tilesRefused (s : State) (c : Core) (d : Desc) : Option State := (tilesBad d).map (s.panReject c)

/-- The refusal of a sieve step for the operand it writes tile by tile: its type is the destination type (R23, R340). -/
def State.outRefused (s : State) (c : Core) (d : Desc) : Option State :=
  if (D.ety d).isNone then some (s.badType c 3) else s.tilesRefused c d

/-- The refusal for a panel, of n tile rows where it is TILED and read in transposed order (R267). -/
def State.panelRefused (s : State) (c : Core) (d : Desc) (turn : Bool) (n : Nat) : Option State :=
  match s.operandBad c 3 d turn with
  | some t => some t
  | none => if D.tiled d && turn && s.tilesTurnBad d 0 n 0 1 then some (s.panReject c 4) else none

/-- The first of the refusals of a step. -/
def firstRefusal (l : List (Option State)) : Option State := (l.filterMap id).head?

/-- What the decode of a DISP step finds wrong with its fields (R127, R185). -/
def State.dispRefusal (s : State) (c : Core) (w : StepWord) : Option State :=
  let q := s.seq c
  let nblk := (q.getX (W.xd w)).toNat
  if W.fn w 0 2 = 3 ∨ (feederOfMask c (W.fn w 3 6)).isNone
      ∨ 1024 < W.fn w 9 10 + ceilDiv nblk (dispMembers w).length * (W.fn w 23 10 + 1) ∨ 16 < W.fn w 19 4 + nblk then
    some (s.dispReject c)
  else if D.tiled (q.getT (W.tb w)) then some (s.feedReject c)
  else none

/-- DISP (R180 to R185). -/
def issueDisp (c : Core) (w : StepWord) (s : State) : Issue :=
  let q := s.seq c
  let ta := q.getT (W.ta w)
  let tb := q.getT (W.tb w)
  match s.dispRefusal c w with
  | some s' => .ok s'
  | none =>
    match firstRefusal [s.tilesRefused c ta, s.operandBad c 3 tb (W.fnb w 33)] with
    | some s' => .ok s'
    | none => s.sieveEnqueue c w [ta, tb] (.disp w ta tb (q.getX (W.xa w)).toNat (q.getX (W.xb w)).toNat (q.getX (W.xc w)).toNat
      (q.getX (W.xd w)).toNat ((s.tensorExp c ta).getD 0) ((s.tensorExp c tb).getD 0))

/-- The descriptors that a SOP step names. -/
def sopDescs (q : SeqSt) (w : StepWord) : List Desc :=
  let t (n : Nat) : Desc := q.getT n
  match W.fn w 0 3 with
  | 0 | 1 | 4 => [t (W.ta w), t (W.tb w)]
  | 2 => [t (W.ta w), t (W.tb w), t (W.tb w + 1), t (W.tc w)]
  | 3 => [t (W.ta w), t (W.tb w), t (W.tc w)]
  | _ => [t (W.ta w), t (W.tc w)]

/-- What the decode of a SOP step finds wrong with its operands (R261 to R267, R340, R342). -/
def State.sopRefusal (s : State) (c : Core) (w : StepWord) : Option State :=
  let q := s.seq c
  let ta := q.getT (W.ta w)
  let tb := q.getT (W.tb w)
  let tb1 := q.getT (W.tb w + 1)
  let tc := q.getT (W.tc w)
  let pt := W.fnb w 19
  firstRefusal (match W.fn w 0 3 with
    | 0 | 1 => [s.tilesRefused c ta, s.panelRefused c tb pt 1]
    | 2 => [s.tilesRefused c ta, s.panelRefused c tb pt (D.tileRows tb), s.panelRefused c tb1 pt (D.tileRows tb1), s.outRefused c tc]
    | 3 => [s.tilesRefused c ta, s.tilesRefused c tb, s.outRefused c tc]
    | 4 => [s.tilesRefused c ta, s.tilesRefused c tb]
    | _ => [s.operandBad c 3 ta false, s.operandBad c 3 tc false])

/-- The sieve job of a SOP step: its operands as they stand at issue (R199, R320, R342). The straight panel of SpMM and SpMM-T is 64
rows of TB by reduction index (Table 7-5); the turned one has its result rows as TB's rows and is reduced along their elements, as the
worked example's panel of X is (DESIGN CHOICE: R193 and R270 do not say which order is the transposed one). SDDMM takes its mask from
T(TA), A from T(TB) and B from T(TB + 1) (DESIGN CHOICE: Tables 7-5 and 11-8 name two descriptors for three operands); their rows lie
along the reduction axis, with PTRANS their columns do. -/
def State.sopKind (s : State) (c : Core) (w : StepWord) : SieveKind :=
  let q := s.seq c
  let ta := q.getT (W.ta w)
  let tb := q.getT (W.tb w)
  let tb1 := q.getT (W.tb w + 1)
  let tc := q.getT (W.tc w)
  let xa := (q.getX (W.xa w)).toNat
  let xb := (q.getX (W.xb w)).toNat
  let pt := W.fnb w 19
  let ex (d : Desc) : Int := (s.tensorExp c d).getD 0
  let m := min 64 (if pt then D.rows tb else D.cols tb)
  match W.fn w 0 3 with
  | 0 => .spmm none (D.pairAddr ta xa xb) (ex ta) tb (ex tb) 0 m (W.fn w 3 4) false pt pt
  | 1 => .spmm none (D.pairAddr ta xa xb) (ex ta) tb (ex tb) 0 m (W.fn w 3 4) true pt pt
  | 2 => .sddmm w ta tb tb1 tc (ex ta) (ex tb) (ex tb1) xa xb
  | 3 => .spgemm w ta tb tc (ex ta) (ex tb) xa xb
  | 4 => .intersect ta tb (ex ta) (ex tb) xa xb (W.fn w 3 4)
  | _ => .sort w ta tc (ex ta) xa xb (q.getX (W.xc w)).toNat

/-- SOP (R199): OP 7 is reserved (R328). -/
def issueSop (c : Core) (w : StepWord) (s : State) : Issue :=
  if W.fn w 0 3 = 7 then .bad 4
  else match s.sopRefusal c w with
    | some s' => .ok s'
    | none => s.sieveEnqueue c w (sopDescs (s.seq c) w) (s.sopKind c w)

/-- The reason code of Table 9-5 for the destination of a drain, whose rows are 4 words (R197, R264). -/
def drainBad (d : Desc) : Option Nat :=
  firstCode [(1, D.base d % 64 != 0 || decide (D.pitch d < 4)),
    (2, D.layout d == 1 && ((D.base d / 64) % 64 != 0 || D.pitch d % 64 != 0)), (3, D.layout d == 2), (5, D.layout d == 3)]

/-- SDRAIN (R23, R197, R264, R342). -/
def issueSdrain (c : Core) (w : StepWord) (s : State) : Issue :=
  let q := s.seq c
  let d := q.getT (W.ta w)
  if (D.ety d).isNone then .ok (s.badType c 3)
  else match drainBad d with
    | some r => .ok (s.panReject c r)
    | none => s.sieveEnqueue c w [d] (.drain (W.fn w 0 4) d (q.getX (W.xa w)).toNat)

/-- SCLR (R195). -/
def issueSclr (c : Core) (w : StepWord) (s : State) : Issue :=
  if 15 < W.fn w 0 4 + W.fn w 4 4 then .ok (s.dispReject c)
  else s.sieveEnqueue c w [] (.clear (W.fn w 0 4) (W.fn w 4 4 + 1))

end Sys2Proof.Machine
end

