-- ==== Sys2Proof/Machine/Belay.lean ====
section
/-! DEFINITION. The belay chain and the accumulator window (spec/06_accumulation_belay.md). -/
namespace Sys2Proof.Machine

/-! ### Context fields (BELAY_CTXAn, BELAY_CTXBn) -/

structure Bctl where
  array : Nat
  tile : Nat
  tiles : Nat
  int32 : Bool
  role : Nat
  skip : Bool
  destAdd : Bool
  destTile : Nat
  tag : BitVec 16
  prevKind : Nat
  prevId : Nat
  prevLink : Nat
  nextKind : Nat
  nextId : Nat
  nextLink : Nat
  prevDev : Nat
  nextDev : Nat
deriving DecidableEq, Repr

def Bctl.of (a b : W64) : Bctl :=
  ⟨fld a 0 3, fld a 3 4, fld a 7 4 + 1, bitOf a 11, fld a 12 2, bitOf a 14, bitOf a 15, fld a 16 4, BitVec.ofNat 16 (fld a 20 16),
   fld b 0 2, fld b 2 6, fld b 8 5, fld b 13 2, fld b 15 6, fld b 21 5, fld b 26 16, fld b 42 16⟩

def BelayCtx.ctl (x : BelayCtx) : Bctl := .of x.ctlA x.ctlB

/-- A context that is WAITING or RUNNING. -/
def BelayCtx.busy (x : BelayCtx) : Bool := x.state == 1 || x.state == 2

/-- Table 6-3: is a belay step rejected for its configuration? -/
def Bctl.bad (b : Bctl) : Bool :=
  let roleBad := (b.role == 0 && b.prevKind != 3) || (b.role == 2 && b.nextKind != 3)
    || (b.role == 1 && (b.prevKind == 3 || b.nextKind == 3)) || b.role == 3
  let tilesBad := decide (16 < b.tile + b.tiles) || decide (16 < b.destTile + b.tiles)
  let orderBad := (b.nextKind == 0 && decide (b.nextId ≤ b.array)) || (b.prevKind == 0 && decide (b.array ≤ b.prevId))
  let idBad := decide (6 ≤ b.array) || (b.prevKind == 0 && decide (6 ≤ b.prevId)) || (b.nextKind == 0 && decide (6 ≤ b.nextId))
    || (b.prevKind == 1 && decide (48 ≤ b.prevId)) || (b.nextKind == 1 && decide (48 ≤ b.nextId))
    || decide (23 < b.prevLink) || decide (23 < b.nextLink)
  roleBad || tilesBad || orderBad || idBad

/-- BELAY_BADCNT and a BELAY_BAD record (R168, R171). -/
def State.belayReject (s : State) (c : Core) : State := (s.bumpLo (rBelayCnt c) 1).raise fBelayBad 8 c.val []

/-- How the next stage names this one (R168): array hops by array, core hops by core, device hops by core, link, device. -/
def State.belaySelf (s : State) (c : Core) (b : Bctl) : BelaySrc :=
  match b.nextKind with
  | 0 => ⟨0, BitVec.ofNat 6 b.array, 0, 0⟩
  | 1 => ⟨1, BitVec.ofNat 6 c.val, 0, 0⟩
  | _ => ⟨2, BitVec.ofNat 6 c.val, BitVec.ofNat 5 b.nextLink, s.devId⟩

/-- The previous stage a context names, as a source. -/
def Bctl.prev (b : Bctl) : BelaySrc :=
  match b.prevKind with
  | 0 => ⟨0, BitVec.ofNat 6 b.prevId, 0, 0⟩
  | 1 => ⟨1, BitVec.ofNat 6 b.prevId, 0, 0⟩
  | k => ⟨BitVec.ofNat 2 k, BitVec.ofNat 6 b.prevId, BitVec.ofNat 5 b.prevLink, BitVec.ofNat 16 b.prevDev⟩

/-- The next stage a context names, as a source of credits. -/
def Bctl.next (b : Bctl) : BelaySrc :=
  match b.nextKind with
  | 0 => ⟨0, BitVec.ofNat 6 b.nextId, 0, 0⟩
  | 1 => ⟨1, BitVec.ofNat 6 b.nextId, 0, 0⟩
  | k => ⟨BitVec.ofNat 2 k, BitVec.ofNat 6 b.nextId, BitVec.ofNat 5 b.nextLink, BitVec.ofNat 16 b.nextDev⟩

/-- Is a row on its way to this stage: one with its tag, from the previous stage it names? -/
def BelayMsg.toward (m : BelayMsg) (c : Core) (b : Bctl) : Bool := m.toCore == c.val && m.row.tag == b.tag && m.src == b.prev
/-- Is a row on its way one of this stage's? -/
def State.fromStage (s : State) (c : Core) (b : Bctl) (m : BelayMsg) : Bool := m.src == s.belaySelf c b && m.row.tag == b.tag

/-- Rows still on their way when a stage ends as FAILED or ABORTED go with it: those it sent and those sent to it (DESIGN CHOICE:
R162 lets the chain run again, and the spec names no row that outlives its stage). -/
def State.dropRows (s : State) (c : Core) (n : Fin 8) : State :=
  let b := (s.belay c n).ctl
  { s with wire := s.wire.filter (fun m => !(m.toward c b) && !(s.fromStage c b m)) }

/-- A context ends as DONE, FAILED or ABORTED: the flag its step names becomes FULL (R172). -/
def State.belayEnd (s : State) (c : Core) (n : Fin 8) (st reason link : Nat) : State :=
  let x := s.belay c n
  let s := if st = 3 then s else s.dropRows c n
  let s := s.setBelay c n { x with state := st, reason := reason, failLink := link, bufs := [], credits := 0, given := 0 }
  match x.flag with
  | some f => s.setFlag c f true
  | none => s

/-- A stage fails (R169, R170): BELAY_FAILCNT and a BELAY_TIMEOUT record naming the core, the context and the tag. -/
def State.belayFail (s : State) (c : Core) (n : Fin 8) (reason link : Nat) : State :=
  let tag := (s.belay c n).ctl.tag.toNat
  ((s.belayEnd c n 4 reason link).bumpHi (rBelayCnt c) 1).raise fBelayTimeout 8 c.val [c.val, n.val, tag]

/-! ### Interlock (R166) -/

/-- The rows of a store that the queued steps of an array write, each with its place in program order: first row and count (R113, R149).
`lay` is the layout of the plane that a pass taking no load runs on, `ls` the loads that NEXT passes not yet accepted take. A
restore writes rows too, but no rule makes a step wait for one. -/
def ArrSt.opRows (x : ArrSt) (lay : Nat) (ls : List (Nat × Nat)) : List ArrOp → List (Nat × Nat × Nat)
  | [] => []
  | o :: os =>
    match o.kind with
    | .pass mode next _ base v _ _ _ _ _ =>
      let own : Option Nat := match o.load with
        | some n => if x.loaded = some n then some (x.plane (!x.activeNext)).layout else (x.loadq.find? (fun (j : LoadJob) => j.seq == n)).map (fun j => j.layout)
        | none => none
      let takes := next && mode != 2 && !o.accepted
      let here := match own with
        | some l => l
        | none => if takes then ((ls.head?).map (·.2)).getD lay else lay
      (o.seq, if mode = 2 then (0, 0) else (base, v * (if mode = 1 ∧ (here = 4 ∨ here = 5) then kParts here else 1)))
        :: x.opRows (if mode = 2 then lay else here) (if takes then ls.drop 1 else ls) os
    | .exportTile t _ => (o.seq, 64 * t, 64) :: x.opRows lay ls os
    | .clear row n => (o.seq, row, n) :: x.opRows lay ls os
    | _ => x.opRows lay ls os

/-- Do two row ranges meet? -/
def rangesMeet (a n b m : Nat) : Bool := decide (0 < n) && decide (0 < m) && decide (a < b + m) && decide (b < a + n)

/-- Has every pass, clear and export issued before `seq` whose rows meet the range completed? -/
def ArrSt.rowsReady (x : ArrSt) (seq lo n : Nat) : Bool :=
  (x.opRows (x.plane x.activeNext).layout (x.openLoads seq) x.opq).all (fun o =>
    !(decide (o.1 < seq)) || !(rangesMeet o.2.1 o.2.2 lo n))

/-- May a dispatch step yet write rows lo.. of array a (R180, R183)? -/
def SieveJob.meets (j : SieveJob) (a : Arr) (seq lo n : Nat) : Bool :=
  match j.kind with
  | .disp w _ _ _ _ _ nblk _ _ =>
    let ms := dispMembers w
    decide (j.seq < seq) && ms.contains a && rangesMeet (W.fn w 9 10) (ceilDiv nblk ms.length * (W.fn w 23 10 + 1)) lo n
  | _ => false

/-- May a step issued at `seq` read rows lo.. of array a (R166, R222): no earlier pass, clear or export whose rows meet them waits in the
array's queue, and no earlier dispatch step has yet to issue its own. -/
def State.accReady (s : State) (c : Core) (a : Arr) (seq lo n : Nat) : Bool :=
  (s.arr c a).rowsReady seq lo n && !((s.sieve c).jobs.any (fun j => j.meets a seq lo n))
    && (match (s.sieve c).disp with
      | some d => !(d.job.meets a seq lo n)
      | none => true)

/-- May a WAITING stage start (R166, R633)? -/
def State.belayReady (s : State) (c : Core) (n : Fin 8) : Bool :=
  let x := s.belay c n
  let b := x.ctl
  x.state == 1 && (b.skip || (match arrOf? b.array with
    | some a => s.accReady c a x.seq (64 * b.tile) (64 * b.tiles)
    | none => true))

/-! ### Rows -/

/-- Rows of a stage. -/
def Bctl.rows (b : Bctl) : Nat := 64 * b.tiles
/-- The array of a stage. -/
def Bctl.arr (b : Bctl) : Arr := (arrOf? b.array).getD 0

/-- Row i of the stage's own tiles. -/
def State.belayLocal (s : State) (c : Core) (b : Bctl) (i : Nat) : List W32 :=
  (List.range 64).map (fun j => s.acc c b.arr (64 * b.tile + i) j)

/-- The sum of an incoming row and the local row, incoming first (R161, R165), and how often SAT advances. Each element takes one rounding
or one INT32 add here, and nothing else touches it on a hop: the h of R175; DEST_MODE 1 adds the one of belayWrite: its e. -/
def belaySum (wrap int32 : Bool) (inc loc : List W32) : List W32 × Nat :=
  let rs := (inc.zip loc).map (fun p => wordAdd ⟨wrap, false, false⟩ int32 p.1 p.2)
  (rs.map (·.1), (rs.map (·.2)).foldl (· + ·) 0)

/-- The row a RUNNING stage has ready to send: a FIRST stage its next local row, a MIDDLE stage its oldest sum. -/
def State.belayOut (s : State) (c : Core) (x : BelayCtx) : Option BelayRow :=
  let b := x.ctl
  if b.role = 0 then
    (if x.rows < b.rows then some ⟨b.tag, 0, s.belayLocal c b x.rows⟩ else none)
  else if b.role = 1 then x.bufs.head? else none

/-- A stage's reads of a store row (R152, R613): whether every element is delivered. -/
def State.belayRead (s : State) (c : Core) (b : Bctl) (row : Nat) : Bool × State := s.accCheck c 14 (accAddr c b.arr.val row 0) 256

/-- A stage that an element is not delivered to ends (R613, Table 11-15), and the sequencer enters FAULTED. -/
def State.belayStop (s : State) (c : Core) (n : Fin 8) : State := (s.belayEnd c n 5 0 0).readFault c

/-- A sender without credit waits (R167): the state that BELAY_STATn shows. -/
def State.belayState (s : State) (c : Core) (n : Fin 8) : Nat :=
  let x := s.belay c n
  if x.state = 2 ∧ x.credits = 0 ∧ (s.belayOut c x).isSome then 1 else x.state

/-- Send what credits allow (R161, R167): each row leaves against one credit. -/
def State.belayPump (s : State) (c : Core) (n : Fin 8) : Nat → State
  | 0 => s
  | fuel + 1 =>
    let x := s.belay c n
    if x.state ≠ 2 ∨ x.credits = 0 then s else
    match s.belayOut c x with
    | none => s
    | some r =>
      let b := x.ctl
      let u := if b.role = 0 then (s.portWaits c).belayRead c b (64 * b.tile + x.rows) else (true, s)
      if !u.1 then u.2.belayStop c n else
      let s := u.2
      let m : BelayMsg := ⟨s.belaySelf c b, b.nextKind, b.nextId, if b.nextKind = 0 then c.val else b.nextId, b.nextDev, r⟩
      let y := { x with credits := x.credits - 1, rows := x.rows + 1, hops := r.hop.toNat, since := s.pitchMark,
                        bufs := if b.role = 1 then x.bufs.drop 1 else x.bufs }
      let s := { s.setBelay c n y with wire := s.wire ++ [m] }
      if y.rows = b.rows then s.belayEnd c n 3 0 0 else s.belayPump c n fuel

/-- A LAST stage writes its sum to its destination tiles, or adds it there with one more rounding or INT32 add (R153, R161, R175). -/
def State.belayWrite (s : State) (c : Core) (x : BelayCtx) (i : Nat) (row : List W32) : State :=
  let b := x.ctl
  let s := s.portConflicts c
  (List.range 64).foldl (fun s j =>
    let v := nth 0 j row
    let r := if b.destAdd then wordAdd ⟨x.wrap, false, false⟩ b.int32 (s.acc c b.arr (64 * b.destTile + i) j) v else (v, 0)
    (s.setAcc c b.arr (64 * b.destTile + i) j r.1).bumpLo (rNumcnt0 c) r.2) s

/-- A stage takes a row from its named source (R160 to R164); a MIDDLE stage sends it on as its credits allow, which the caller does. -/
def State.belayTake (s : State) (c : Core) (n : Fin 8) (row : BelayRow) : State :=
  let x := s.belay c n
  let b := x.ctl
  let i := x.recvd
  let hop : BitVec 8 := if row.hop = 255 then 255 else row.hop + 1
  let u := if b.skip then (true, s) else (s.portWaits c).belayRead c b (64 * b.tile + i)
  let v := if b.role = 2 ∧ b.destAdd then u.2.belayRead c b (64 * b.destTile + i) else (true, u.2)
  if !(u.1 && v.1) then v.2.belayStop c n else
  let r := if b.skip then (row.row, 0) else belaySum x.wrap b.int32 row.row (s.belayLocal c b i)
  let s := v.2.bumpLo (rNumcnt0 c) r.2
  if b.role = 2 then
    let s := s.belayWrite c x i r.1
    let s := s.setBelay c n { x with recvd := i + 1, rows := x.rows + 1, hops := hop.toNat, since := s.pitchMark, given := x.given - 1 }
    if i + 1 = b.rows then s.belayEnd c n 3 0 0 else s
  else
    s.setBelay c n { x with recvd := i + 1, since := s.pitchMark, bufs := x.bufs ++ [⟨row.tag, hop, r.1⟩], given := x.given - 1 }

/-- The context of this device that a refused row or credit comes from (R168): a stage that sends to the refusing core under that name,
or that takes rows from it. -/
def State.belaySender (s : State) (c : Core) (credit : Bool) (src : BelaySrc) (tag : BitVec 16) : Option (Core × Fin 8) :=
  let core : Option Core := match src.kind.toNat with
    | 0 => some c
    | 1 => coreOf? src.id.toNat
    | _ => if src.dev = s.devId then coreOf? src.id.toNat else none
  match core with
  | none => none
  | some k => ((List.finRange 8).find? (fun m =>
      let y := s.belay k m
      let b := y.ctl
      y.busy && b.tag == tag && (match src.kind.toNat with
        | 0 => b.array == src.id.toNat && (if credit then b.prevKind == 0 else b.nextKind == 0)
        | 1 => if credit then b.prevKind == 1 && b.prevId == c.val else b.nextKind == 1 && b.nextId == c.val
        | _ => if credit then b.prevKind == 2 && b.prevId == c.val else b.nextKind == 2 && b.nextId == c.val))).map (fun m => (k, m))

/-- A stage refuses a source it does not name (R168): the sending stage of this device becomes FAILED with REASON 4. -/
def State.belayRefuse (s : State) (c : Core) (credit : Bool) (src : BelaySrc) (tag : BitVec 16) : State :=
  let s := s.belayReject c
  match s.belaySender c credit src tag with
  | some (k, m) => s.belayEnd k m 4 4 0
  | none => s

/-- The oldest row on its way to a stage under its tag from a source (R160, R173). -/
def State.nextRow (s : State) (c : Core) (b : Bctl) (src : BelaySrc) : Option BelayMsg :=
  s.wire.find? (fun m => m.src == src && m.toCore == c.val && m.row.tag == b.tag && (src.kind != 0 || m.toId == b.array))

/-- Is a row the next one on its way from a source to a stage? -/
def State.onWire (s : State) (c : Core) (b : Bctl) (src : BelaySrc) (row : BelayRow) : Bool :=
  match s.nextRow c b src with
  | some m => m.row == row
  | none => false

/-- Take a row off the wire, if it is there. -/
def State.takeRow (s : State) (c : Core) (b : Bctl) (src : BelaySrc) : State :=
  match s.nextRow c b src with
  | some m => { s with wire := s.wire.erase m }
  | none => s

/-- May the next stage grant a sender one more credit (R167)? A stage of this device grants it while its context is RUNNING
and a row buffer is free that no credit and no row on its way stands for; a stage of another device is the command's word. -/
def State.mayGrant (s : State) (c : Core) (x : BelayCtx) : Bool :=
  let b := x.ctl
  if 2 ≤ x.credits then false
  else if b.nextKind = 2 then true
  else
    match (if b.nextKind = 0 then some c else coreOf? b.nextId) with
    | none => false
    | some k =>
      (List.finRange 8).any (fun m =>
        let y := s.belay k m
        let sent := (s.wire.filter (fun w => w.src == s.belaySelf c b && w.toCore == k.val && w.row.tag == b.tag)).length
        s.belayState k m == 2 && y.ctl.role != 0 && y.ctl.tag == b.tag && y.ctl.prev == s.belaySelf c b
          && (b.nextKind != 0 || y.ctl.array == b.nextId) && decide (y.bufs.length + x.credits + sent < 2))

/-! ### Steps -/

/-- A context write (R171): both words, unless the context is WAITING or RUNNING. -/
def State.belayCtxWrite (s : State) (c : Core) (n : Fin 8) (second : Bool) (v : W64) : State :=
  if (s.belay c n).busy then s.belayReject c
  else s.setReg (if second then rBelayB c n.val else rBelayA c n.val)
    (v &&& (if second then 0x03FFFFFFFFFFFFFF#64 else 0x0000000FFFFFFFFF#64))

/-- BSET: one context write of both registers (Table 11-13). -/
def issueBset (c : Core) (w : StepWord) (s : State) : Issue :=
  let n : Fin 8 := ⟨W.fCTX w % 8, by omega⟩
  let q := s.seq c
  if (s.belay c n).busy then .ok (s.belayReject c)
  else .ok ((s.belayCtxWrite c n false (q.getX (W.fXA w))).belayCtxWrite c n true (q.getX (W.fXB w)))

/-- BELAY: starts a context (R171, R179). -/
def issueBelay (c : Core) (w : StepWord) (s : State) : Issue :=
  let n : Fin 8 := ⟨W.fCTX w % 8, by omega⟩
  let a := s.reg (rBelayA c n.val)
  let b := s.reg (rBelayB c n.val)
  if (s.belay c n).busy ∨ (Bctl.of a b).bad then .ok (s.belayReject c)
  else
    -- a row that an earlier run left on its way is none of this run's: it holds no credit yet
    let s := { s with wire := s.wire.filter (fun m => !(m.toward c (Bctl.of a b))) }
    .ok (s.setBelay c n { BelayCtx.reset with
    state := 1, ctlA := a, ctlB := b, flag := if W.fFLAGEN w then some (W.fFLAG w) else none,
    wrap := (s.numctl c).intWrap, seq := s.now c, since := s.pitchMark })

end Sys2Proof.Machine
end

