-- ==== Sys2Proof/Machine/Identity.lean ====
section
/-! DEFINITION. Identity, certificate, transcript and session keys, formed from the free functions of Sys2Proof/Config.lean (R545, R549). -/
namespace Sys2Proof.Config

/-- The bytes of an ASCII string. -/
def ascii (t : String) : List Byte := t.toList.map (fun ch => BitVec.ofNat 8 ch.toNat)

/-- The identity seed, KMAC256(R, "GLX48-ID", 256 bits), and the identity key pair formed from it (R545). The string is taken as the data,
with no customization. -/
def idSeed : List Byte := kmac256 root (ascii "GLX48-ID") 256 []
def idPair : List Byte × List Byte := mldsaKeys idSeed
/-- The identity public key, 2,592 B, and a signature by the identity key. -/
def idKey : List Byte := idPair.1
def idSign (m : List Byte) : List Byte := mldsaSign idPair.2 m

/-- What a certificate signs: the digest of identity public key, part code and stepping (Table 20-4's bytes 12 and 13). -/
def certBody (key : List Byte) (part : Part) : List Byte :=
  sha3 (key ++ ([match part with | .glx384 => 0 | .glx288 => 1, 0xB0] : List Byte))
/-- The manufacturer certificate of this device, 4,627 B. -/
def idCert (part : Part) : List Byte := mldsaSign mfgPair.2 (certBody idKey part)
/-- Does a certificate verify for a presented key? KEYING does not send the part, so that of either part is taken. -/
def certOk (key cert : List Byte) : Bool :=
  mldsaVerify mfgPair.1 (certBody key .glx384) cert || mldsaVerify mfgPair.1 (certBody key .glx288) cert

/-- The transcript digest T of a KEYING or rekey between two ends (R549). -/
def transcript (ends : List Byte) (draw : Nat) : List Byte := sha3 (ends ++ encap draw)

/-- Key and salt of direction "UP" or "DN" from secret and transcript digest (R549). -/
def sessionKey (draw : Nat) (t : List Byte) (up : Bool) : List Byte :=
  let d := ascii (if up then "UP" else "DN")
  kmac256 (secret draw) t 256 (ascii "GLX48-K-" ++ d) ++ kmac256 (secret draw) t 32 (ascii "GLX48-S-" ++ d)

end Sys2Proof.Config
end

