-- ==== Sys2Proof/Machine/Links.lean ====
section
/-! DEFINITION. Borvik links (spec/17_borvik_links.md): flits and their CRC, the sending and receiving of records, routing,
transactions, and what follows when a link goes down. -/
namespace Sys2Proof.Machine

/-! ### Access -/

def State.link (s : State) (l : Link) : LinkSt := s.bv.links.get l
def State.setLink (s : State) (l : Link) (x : LinkSt) : State :=
  { s with bv := { s.bv with links := s.bv.links.set l.val x l.isLt } }
def linkOf? (n : Nat) : Option Link := if h : n < 24 then some ⟨n, h⟩ else none

/-- UP or DEGRADED. -/
def LinkSt.up (x : LinkSt) : Bool := x.st == 4 || x.st == 5
def State.linkUp (s : State) (n : Nat) : Bool := match linkOf? n with
  | some l => (s.link l).up
  | none => false

/-- The domain of a link (Table 22-1). -/
def linkDom (l : Nat) : Nat := 56 + l / 2

/-! ### CRC-32C and flits (R460) -/

/-- One bit of the reflected CRC-32C. -/
def crcBit (c : W32) : W32 := if c.getLsbD 0 then (c >>> 1) ^^^ 0x82F63B78#32 else c >>> 1
/-- One byte. -/
def crcByte (c : W32) (b : Byte) : W32 := Nat.repeat crcBit 8 (c ^^^ b.setWidth 32)
/-- CRC-32C of bytes. -/
def crc32c (bs : List Byte) : W32 := ~~~(bs.foldl crcByte 0xFFFFFFFF#32)

/-- Bytes of a flit. -/
def flitBytes (f : BitVec 2048) : List Byte := bytesOf 256 f.toNat
def flitKind (f : BitVec 2048) : Nat := fld f 0 3
def flitVc (f : BitVec 2048) : Nat := fld f 3 3
def flitSop (f : BitVec 2048) : Bool := bitOf f 6
def flitEop (f : BitVec 2048) : Bool := bitOf f 7
def flitSeq (f : BitVec 2048) : Nat := fld f 8 10
def flitAck (f : BitVec 2048) : Nat := fld f 18 10
def flitBody (f : BitVec 2048) : List Byte := ((flitBytes f).drop 8).take 244
def flitHead (f : BitVec 2048) : List Byte := (flitBytes f).take 8
/-- The CRC matches. -/
def flitCrcOk (f : BitVec 2048) : Bool := crc32c ((flitBytes f).take 252) == BitVec.ofNat 32 (fld f 2016 32)
/-- FHC is the complement of bytes 0 to 3. -/
def flitFhcOk (f : BitVec 2048) : Bool := fld f 0 32 + fld f 32 32 == 2 ^ 32 - 1

/-- The 8 header bytes of a flit. -/
def flitHdr (kind vc : Nat) (sop eop : Bool) (seq ack : Nat) : List Byte :=
  let h := bytesOf 4 (kind + 8 * vc + 64 * b2n sop + 128 * b2n eop + 2 ^ 8 * (seq % 1024) + 2 ^ 18 * (ack % 1024))
  h ++ complBytes h
/-- A flit from its header and body. -/
def mkFlit (hdr body : List Byte) : BitVec 2048 :=
  let bs := hdr ++ padTo 244 body
  BitVec.ofNat 2048 (natOf (bs ++ bytesOf 4 (crc32c bs).toNat))

/-! ### Packets -/

/-- The bytes that a packet carries beside its body data: the address of a WRITE (DESIGN CHOICE: the spec gives bodies no layout; LEN_M1
counts the data alone, so that a packet of 4,096 B can be written to a queue of another device, R422). -/
def pktExtra (ptype : Nat) : Nat := if ptype = 0 then 8 else 0
/-- A packet's header, its complement and its body (Table 17-4). -/
def pktBytes (p : Pkt) : List Byte :=
  let h := bytesOf 8 (p.dest.toNat + 2 ^ 16 * p.src.toNat + 2 ^ 32 * p.ptype.toNat
    + 2 ^ 36 * ((p.body.length - pktExtra p.ptype.toNat - 1) % 4096)
    + 2 ^ 48 * p.txid.toNat + 2 ^ 58 * p.ttl.toNat)
  h ++ complBytes h ++ p.body
/-- A packet from its bytes and the VC it came on: none where the header pair does not match (R472). -/
def pktParse (vc : Nat) (bs : List Byte) : Option Pkt :=
  let w := natOf (bs.take 8)
  if (bs.take 16).length = 16 ∧ bs.take 8 = complBytes ((bs.drop 8).take 8) then
    some ⟨BitVec.ofNat 16 w, BitVec.ofNat 16 (w / 2 ^ 16), BitVec.ofNat 4 (w / 2 ^ 32), BitVec.ofNat 10 (w / 2 ^ 48),
      BitVec.ofNat 6 (w / 2 ^ 58), BitVec.ofNat 3 vc, (bs.drop 16).take (w / 2 ^ 36 % 4096 + 1 + pktExtra (w / 2 ^ 32 % 16))⟩
  else none

/-- The flits of a packet. -/
def pktFlits (p : Pkt) : List TxFlit :=
  let cs := chunks 244 ((pktBytes p).length + 1) (pktBytes p)
  (cs.zip (List.range cs.length)).map (fun c =>
    (⟨1, p.vc.toNat, c.2 == 0, c.2 + 1 == cs.length, padTo 244 c.1, some p⟩ : TxFlit))

/-- Put a packet in the send queue of a link. -/
def State.linkSend (s : State) (l : Link) (p : Pkt) : State :=
  let x := s.link l
  s.setLink l { x with txq := x.txq ++ pktFlits p }

/-- Hand a packet to routing (R473). -/
def State.sendPkt (s : State) (p : Pkt) : State := { s with bv := { s.bv with out := s.bv.out ++ [p] } }

/-- A packet of this device. -/
def State.mkPkt (s : State) (dest : BitVec 16) (ptype txid vc : Nat) (body : List Byte) : Pkt :=
  ⟨dest, s.devId, BitVec.ofNat 4 ptype, BitVec.ofNat 10 txid, 63, BitVec.ofNat 3 vc, body⟩

/-- A NACK to a packet's sender (R474 to R476): its body names the reason and a link. -/
def State.nack (s : State) (p : Pkt) (reason link : Nat) : State :=
  s.sendPkt (s.mkPkt p.src 8 p.txid.toNat 3 [BitVec.ofNat 8 reason, BitVec.ofNat 8 link])

/-! ### Transactions (R476) -/

/-- The state of a word that a transfer waits for. -/
def setGot (a : Nat) (g : Got) : List (Nat × Got) → List (Nat × Got)
  | [] => [(a, g)]
  | (b, h) :: l => if a = b then (a, g) :: l else (b, h) :: setGot a g l
def findGot (a : Nat) : List (Nat × Got) → Option Got
  | [] => none
  | (b, h) :: l => if a = b then some h else findGot a l

/-- TAG of a collective's descriptor. -/
def Cd.tag (d : BitVec 1024) : Nat := fld d 288 16
/-- What has become of a write of a collective. -/
def setPut (a : Nat) (g : Got) (l : List CollPut) : List CollPut := l.map (fun p => if p.addr = a then { p with got := some g } else p)

/-- Does a list of words hold one that is still to come? -/
def gotWaits (a : Nat) (l : List (Nat × Got)) : Bool := match findGot a l with
  | some (.waiting _ _) => true
  | _ => false

/-- Tell a requester what became of its access. A step that writes to another device has left issue: its write leaves the list when it is
acknowledged, and one that fails takes its sequencer to FAULTED (DESIGN CHOICE: the spec does not say). -/
def State.answer (s : State) (w : TxnWho) (g : Got) : State :=
  match w with
  | .stream c e a write =>
    let x := s.eng c e
    (match x.cur with
     | some r => s.setEng c e { x with cur := some (if write then { r with acks := setGot a g r.acks } else { r with cache := setGot a g r.cache }) }
     | none => s)
  | .trickle c a write =>
    (match (s.core c).trk with
     | j :: js => s.onCore c (fun k => { k with trk := { j with got := setGot (if write then a + 2 ^ 64 else a) g j.got } :: js })
     | [] => s)
  | .seq c a write =>
    let k := if write then a + 2 ^ 64 else a
    (match write, g with
     | true, .failed _ _ => (s.onSeq c (fun q => { q with got := q.got.filter (fun x => x.1 != k) })).seqFault c
     | true, .data _ | true, .bytes _ => s.onSeq c (fun q => { q with got := q.got.filter (fun x => x.1 != k) })
     | _, _ => s.onSeq c (fun q => { q with got := setGot k g q.got }))
  | .coll c tag a write => s.onCore c (fun k => { k with coll := k.coll.map (fun x => if Cd.tag x.desc ≠ tag then x
      else if write then { x with puts := setPut a g x.puts } else { x with reads := setGot a g x.reads }) })
  | .load a => { s with boot := { s.boot with got := setGot a g s.boot.got } }

/-- Does a requester still wait for an access? One that has been abandoned, or has passed its time, does not. -/
def State.awaits (s : State) (w : TxnWho) : Bool :=
  match w with
  | .stream c e a write => (s.eng c e).cur.any (fun r => gotWaits a (if write then r.acks else r.cache))
  | .trickle c a write => (s.core c).trk.head?.any (fun j => gotWaits (if write then a + 2 ^ 64 else a) j.got)
  | .seq c a write => gotWaits (if write then a + 2 ^ 64 else a) (s.seq c).got
  | .coll .. | .load _ => true
/-- An answer comes for a requester. -/
def State.answerTo (s : State) (w : TxnWho) (g : Got) : State := if s.awaits w then s.answer w g else s

/-- The lowest free transaction number. -/
def State.freeTxid (s : State) : Option Nat := (List.range 1024).find? (fun t => !(s.bv.txns.any (fun x => x.txid == t)))

/-- The bytes that a read of another device asks for: the 8 of a register, where the address lies in register space (R641), else a
64 B word. -/
def askBytes (a : Nat) : Nat := if inRegs (localOf a) then 8 else 64
/-- A request to the device that an address names: it leaves where a transaction number is free. -/
def State.remoteSend (s : State) (w : TxnWho) (a : W64) (ptype : Nat) (rest : List Byte) : State :=
  match s.freeTxid with
  | none => s
  | some t =>
    let dest : BitVec 16 := BitVec.ofNat 16 (fld a 48 16)
    let s := { s with bv := { s.bv with txns := s.bv.txns ++ [(⟨t, dest, w⟩ : Txn)] } }
    (s.answer w (.waiting s.tb.time.toNat t)).sendPkt (s.mkPkt dest ptype t 1 (bytesOf 8 a.toNat ++ rest))
/-- Ask another device for n bytes. -/
def State.remoteRead (s : State) (w : TxnWho) (a : W64) (n : Nat) : State := s.remoteSend w a 1 (bytesOf 2 n)
/-- Ask another device for the word at an address, or write there. -/
def State.remoteAsk (s : State) (w : TxnWho) (a : W64) (data : Option (List Byte)) : State :=
  match data with
  | none => s.remoteRead w a (askBytes a.toNat)
  | some d => s.remoteSend w a 0 d

/-- A transaction ends. -/
def State.txnEnd (s : State) (t : Nat) (g : Got) : State :=
  match s.bv.txns.find? (fun x => x.txid == t) with
  | some x => { s with bv := { s.bv with txns := s.bv.txns.filter (fun y => y.txid != t) } }.answerTo x.who g
  | none => s

/-- A packet of this device's own requests fails with reason 2 (R474, R477); any other packet draws a NACK. -/
def State.failPkt (s : State) (p : Pkt) (link : Nat) : State :=
  if p.src = s.devId then
    (if p.ptype = 0 ∨ p.ptype = 1 then s.txnEnd p.txid.toNat (.failed 2 link) else s)
  else s.nack p 2 link

/-! ### Routing (R473, R474) -/

/-- A route entry before the image is loaded: VALID 0. -/
def routeDefault (_ : Nat) : W32 := 0xFFFF0000

/-- The route entry of a device, taken as VALID 0 where its pair does not match (Table 23-1, class 6). -/
def State.routeEntry (s : State) (dest : BitVec 16) : BitVec 16 × State :=
  let w := s.route.get routeDefault dest.toNat
  let e := BitVec.ofNat 16 (fld w 0 16)
  if fld w 0 16 + fld w 16 16 = 65535 then (e, s)
  else
    let s := s.bumpLo (rFltCnt 1) 1
    if NSet.has dest.toNat s.bv.routeRec then (0, s)
    else (0, { s with bv := { s.bv with routeRec := NSet.add dest.toNat s.bv.routeRec } }.raise fComplement 13 0 [6, dest.toNat, 0])

/-- The link a packet to a device leaves on, or the link its failure names. -/
def State.routeLink (s : State) (e : BitVec 16) : Except Nat Link :=
  let l := fld e 0 5
  let alt := fld e 5 5
  if !(bitOf e 12) then .error l
  else match linkOf? l, linkOf? alt with
    | some k, m => if (s.link k).up then .ok k else match m with
        | some m => if bitOf e 10 && (s.link m).up then .ok m else .error l
        | none => .error l
    | none, some m => if bitOf e 10 && (s.link m).up then .ok m else .error l
    | none, none => .error l

/-- Can the route table reach a device (R378)? -/
def State.reaches (s : State) (dest : BitVec 16) : Bool :=
  dest == s.devId || (let w := s.route.get routeDefault dest.toNat
    fld w 0 16 + fld w 16 16 == 65535 && bitOf w 12)

/-- The VC after a DATELINE (R468). -/
def datelineVc (vc : BitVec 3) : BitVec 3 := if vc = 1 then 2 else if vc = 3 then 4 else vc

/-- Route a packet onto a link: with `hop` set TTL has been counted down by its forwarding (R473 to R475). -/
def State.routePkt (s : State) (p : Pkt) : State :=
  let r := s.routeEntry p.dest
  match r.2.routeLink r.1 with
  | .ok l => r.2.linkSend l (if bitOf r.1 11 then { p with vc := datelineVc p.vc } else p)
  | .error l => (r.2.bumpLo (rBvCnt 0) 1).failPkt p l

/-- A packet of another device is forwarded (R473, R475). -/
def State.forward (s : State) (p : Pkt) : State :=
  if p.ttl = 1 ∨ p.ttl = 0 then
    ((s.bumpHi (rBvCnt 0) 1).raise fLinkTtl 13 0 [p.src.toNat, p.dest.toNat]).nack p 3 0
  else s.routePkt { p with ttl := p.ttl - 1 }

/-! ### Windows (R469) -/

/-- Is a window open now? -/
def State.winNow (s : State) (w : TopoWin) : Bool := decide (w.lo ≤ s.inPitch) && decide (s.inPitch < w.hi)

/-! ### Sending records (R463, R465, R468 to R470) -/

/-- Is a scheduled window open on a link, and does it exclude best-effort traffic (R469)? -/
def State.winOpen (s : State) (l : Link) : Bool := s.tb.wins.any (fun w => w.on == l.val && !w.cal && s.winNow w)
def State.winExcl (s : State) (l : Link) : Bool := s.tb.wins.any (fun w => w.on == l.val && !w.cal && w.excl && s.winNow w)
/-- Does a recalibration run on a link (0 to 23) or half (24, 25): one is pending inside a calibration window of at least
40 µs (R621)? -/
def State.calNow (s : State) (n : Nat) : Bool := bitOf s.flt.cal n && s.tb.wins.any (fun w => w.on == n && w.cal && w.excl && s.winNow w)
/-- The pair links. -/
def State.isPairLink (s : State) (l : Nat) : Bool := s.rf rPairCfg 16 5 == l || s.rf rPairCfg 21 5 == l
/-- Does a flit belong to a heartbeat? -/
def TxFlit.heart (f : TxFlit) : Bool := match f.pkt with
  | some p => p.ptype == 9
  | none => false

/-- May a flit be sent now: SCHED in an open window, best-effort against a credit and not in an exclusive window, save
heartbeats on the pair links; CTRL and TIME flits always. -/
def State.maySend (s : State) (l : Link) (credits : List Nat) (f : TxFlit) : Bool :=
  if f.kind ≠ 1 then true
  else if f.vc = 0 then s.winOpen l
  else decide (0 < nth 0 (f.vc - 1) credits) && (!(s.winExcl l) || (f.heart && s.isPairLink l.val))

/-- Choose up to n flits in sending order: VCs whose first flit may not be sent hold their later ones. -/
def State.pickFlits (s : State) (l : Link) : Nat → List Nat → List Nat → List TxFlit → List TxFlit × List TxFlit × List Nat
  | _, cr, _, [] => ([], [], cr)
  | 0, cr, _, fs => ([], fs, cr)
  | n + 1, cr, held, f :: fs =>
    let key := if f.kind = 1 then f.vc else 8
    if !(held.contains key) && s.maySend l cr f then
      let cr' := if f.kind = 1 ∧ f.vc ≠ 0 then setAt (f.vc - 1) (nth 0 (f.vc - 1) cr - 1) cr else cr
      let r := s.pickFlits l n cr' held fs
      (f :: r.1, r.2.1, r.2.2)
    else
      let r := s.pickFlits l (n + 1) cr (key :: held) fs
      (r.1, f :: r.2.1, r.2.2)

/-- The body of a SEAL: tag, record counter, first SEQ and credit returns (R465). -/
def sealBody (tag : List Byte) (cnt seq : Nat) (back : List Nat) : List Byte :=
  padTo 244 (padTo 16 tag ++ bytesOf 8 cnt ++ bytesOf 2 seq ++ (takeD 0 4 back).map (BitVec.ofNat 8))

/-- The bodies of CTRL flits (DESIGN CHOICE: R463 and R489 give them none): 1 asks for a resend from the SEQ that follows, 2 says that
the sender's direction takes fresh keys after this record, 3 asks the other end to do so. -/
def ctrlRetry (seq : Nat) : List Byte := 1 :: bytesOf 2 seq
def ctrlRekey : List Byte := [2]
def ctrlAskRekey : List Byte := [3]
def ctrlFlit (body : List Byte) : TxFlit := ⟨3, 0, false, false, padTo 244 body, none⟩
/-- Does a CTRL flit rekey its sender's direction? -/
def TxFlit.rekeys (f : TxFlit) : Bool := f.kind == 3 && f.body.head? == some 2

/-- Fresh key and salt in one direction, its record counter from 0 again (R489, R549). -/
def LinkSt.rekeyTx (x : LinkSt) (draw : Nat) : LinkSt :=
  { x with txKey := Config.sessionKey draw (Config.transcript x.ends draw) x.upward, session := x.session + 1, txRec := 0 }
def LinkSt.rekeyRx (x : LinkSt) (draw : Nat) : LinkSt :=
  { x with rxKey := Config.sessionKey draw (Config.transcript x.ends draw) (!x.upward), session := x.session + 1, rxRec := 0 }

/-- Close a record over flits: their bodies are sealed, each takes its SEQ, and all wait in the replay buffer (R463, R465). The SEAL
returns the credits of flits whose buffer is free again, all but `held` (R468). A record that rekeys its direction is the last under
its key (R489). -/
def LinkSt.closeRecord (x : LinkSt) (fs rest : List TxFlit) (credits held : List Nat) (draw : Nat) : LinkSt :=
  let n := fs.length
  let hdrs := (fs.zip (List.range n)).map (fun f => flitHdr f.1.kind f.1.vc f.1.sop f.1.eop (x.txSeq + f.2) x.rxAck)
  let g := Config.gcmSeal x.txKey x.txRec hdrs.flatten (fs.flatMap (·.body))
  let bodies := chunks 244 (n + 1) (padTo (244 * n) g.1)
  let flits := (hdrs.zip bodies).map (fun p => mkFlit p.1 p.2)
  let free := (x.back.zip held).map (fun p => p.1 - p.2)
  let last := mkFlit (flitHdr 2 0 false false (x.txSeq + n) x.rxAck) (sealBody g.2 x.txRec x.txSeq free)
  let sent := ((flits.zip fs).zip (List.range n)).map (fun p => (⟨(x.txSeq + p.2) % 1024, x.recs, p.1.1, p.1.2.pkt⟩ : SentFlit))
  let y : LinkSt := { x with txq := rest, credits := credits, txSeq := (x.txSeq + n + 1) % 1024, txRec := x.txRec + 1, recs := x.recs + 1
                             back := (x.back.zip held).map (fun p => min p.1 p.2)
                             replay := x.replay ++ sent ++ [⟨(x.txSeq + n) % 1024, x.recs, last, none⟩] }
  if fs.any (·.rekeys) then y.rekeyTx draw else y

/-- Flits of the classes of a queue, one of each in turn (R470). -/
def interleave : Nat → List (List TxFlit) → List TxFlit
  | 0, qs => qs.flatten
  | n + 1, qs => qs.filterMap (·.head?) ++ interleave n (qs.map (·.drop 1))
/-- The order in which a link sends what waits: SCHED flits first, then flit by flit CTRL and TIME flits and those of each best-effort
VC (R470). -/
def sendOrder (fs : List TxFlit) : List TxFlit :=
  let vc (v : Nat) : List TxFlit := fs.filter (fun f => f.kind == 1 && f.vc == v)
  vc 0 ++ interleave fs.length ([fs.filter (fun f => f.kind != 1)] ++ [1, 2, 3, 4].map vc)

/-- Is a flit ready that only a credit holds back (R468)? -/
def State.creditHeld (s : State) (l : Link) : Bool :=
  let x := s.link l
  x.txq.any (fun f => f.kind == 1 && f.vc != 0 && nth 0 (f.vc - 1) x.credits == 0 && s.maySend l [1, 1, 1, 1] f)

/-- The links of packets that wait, each packet as often as it waits. -/
def liveVia : List Pkt → List (Nat × Pkt) → List (Nat × Pkt)
  | _, [] => []
  | ws, e :: es => if ws.contains e.2 then e :: liveVia (ws.erase e.2) es else liveVia ws es
def State.via (s : State) : List (Nat × Pkt) := liveVia (s.bv.arrived ++ s.bv.early) s.bv.via
/-- The link on which a packet came. -/
def State.viaLink (s : State) (p : Pkt) : Option Nat := (s.via.find? (fun e => e.2 == p)).map (·.1)
/-- Flits of a packet. -/
def pktFlitNum (p : Pkt) : Nat := ceilDiv (16 + p.body.length) 244
/-- The flits of verified records that a link's receiver still holds on a VC (R468, R471): those of packets that wait, and of one that
is not whole. -/
def State.heldFlits (s : State) (l : Link) (vc : Nat) : Nat :=
  ((s.via.filter (fun e => e.1 == l.val && e.2.vc.toNat == vc)).map (fun e => pktFlitNum e.2)).sum
    + (SMap.get (fun _ => []) vc (s.link l).parts).length / 244

/-- Send one record, as the replay buffer has room. CREDIT_WAIT advances by the cycles for which a flit then waits for a credit, which
the model leaves free. -/
def State.sendRecord (s : State) (l : Link) : State :=
  let x := s.link l
  let room := 511 - x.replay.length
  let r := s.pickFlits l (min 128 room) x.credits [] (sendOrder x.txq)
  let s := if r.1.isEmpty then s else
    s.tick.setLink l ({ x with ackAt := if x.replay.isEmpty then s.tb.time else x.ackAt }.closeRecord r.1 r.2.1 r.2.2 ([1, 2, 3, 4].map (s.heldFlits l)) s.free)
  if s.creditHeld l then (s.bumpHi (rLcnt l.val 2) (Config.creditWait s.free)).tick else s

/-- An ACK covers every flit up to its SEQ (R463). -/
def ackFlits (ack : Nat) (fs : List SentFlit) : List SentFlit :=
  if fs.any (fun f => f.seq == ack) then (fs.dropWhile (fun f => f.seq != ack)).drop 1 else fs

/-! ### Going down (R477, R484, R490) -/

/-- The flits in a send queue that belong to packets of which none has been sent: those of a VC from its first SOP on. CTRL and TIME
flits belong to none. -/
def unbegun : List Nat → List TxFlit → List TxFlit
  | _, [] => []
  | vs, f :: fs =>
    if f.kind = 1 ∧ (f.sop ∨ vs.contains f.vc) then f :: unbegun (f.vc :: vs) fs else unbegun vs fs
/-- The other flits of the queue: those that continue a packet of which some have been sent. -/
def begun : List Nat → List TxFlit → List TxFlit
  | _, [] => []
  | vs, f :: fs =>
    if f.kind = 1 ∧ (f.sop ∨ vs.contains f.vc) then begun (f.vc :: vs) fs else f :: begun vs fs
/-- Packets that are in the replay buffer or partly sent (R477). -/
def LinkSt.lostPkts (x : LinkSt) : List Pkt := (x.replay.filterMap (·.pkt) ++ (begun [] x.txq).filterMap (·.pkt)).eraseDups
/-- Packets of which nothing has been sent. -/
def LinkSt.waitingPkts (x : LinkSt) : List Pkt := ((unbegun [] x.txq).filter (·.sop)).filterMap (·.pkt)
/-- Does a packet leave on its link alone: a belay hop, a scheduled packet of a collective or dispatch, a heartbeat or a pair message
(R170, R484, R558)? -/
def pktBound (p : Pkt) : Bool := p.ptype == 4 || p.vc == 0 || p.ptype == 9 || p.ptype == 10

/-- A ring that sends on the link, or holds flits for it, fails (R484). Written in Machine/Coll.lean; here a link's failure
reaches the belay stages that send on it (R170). -/
def State.belayLinkFail (s : State) (l : Link) : State :=
  (List.finRange 48).foldl (fun s c => (List.finRange 8).foldl (fun s n =>
    let x := s.belay c n
    if x.state == 2 && x.ctl.nextKind == 2 && x.ctl.nextLink == l.val then s.belayFail c n 3 l.val else s) s) s

/-- A hop of a token dispatch fails: it is reported as a collective's is, with no TAG (R379, R486). -/
def State.xdFail (s : State) (link : Nat) : State := (s.bumpLo (rBvCnt 1) 1).raise fLinkColl 13 0 [0, s.devId.toNat, link]

/-- Leave UP or DEGRADED: held packets are discarded and their requesters told (R477), as are those that can leave on this link alone; the
others that have not begun are routed again (R473). Keys are lost (Table 20-2). -/
def State.linkDrop (s : State) (l : Link) : State :=
  let x := s.link l
  let gone := x.lostPkts ++ x.waitingPkts.filter pktBound
  let s := s.setLink l { x with txq := [], replay := [], resends := [], rx := [], cut := [], parts := [], lost := false, fails := 0
                                txKey := [], rxKey := [] }
  let s := { s with bv := { s.bv with out := s.bv.out ++ x.waitingPkts.filter (fun p => !(pktBound p)) } }
  let s := gone.foldl (fun s p => s.failPkt p l.val) s
  let s := if gone.any (fun p => p.ptype == 6 && p.src == s.devId) then s.xdFail l.val else s
  s.belayLinkFail l

/-- Enter DOWN with a reason, or FAILED after RETRAIN_LIM trainings in a row that ended so (R490). -/
def State.linkToDown (s : State) (l : Link) (reason : Nat) : State :=
  let x := s.link l
  let tries := if x.st = 2 ∨ x.st = 3 then x.tries + 1 else x.tries
  let lim := s.rf (rLcfg l.val) 20 3
  let s := s.bumpLo (rLcnt l.val 2) 1
  if (x.st = 2 ∨ x.st = 3) ∧ lim ≠ 0 ∧ lim ≤ tries then
    (s.setLink l { x with st := 6, reason := reason, tries := 0 }).raise fLinkFail 13 l.val [l.val]
  else s.setLink l { x with st := 1, since := s.tb.time, reason := reason, tries := tries }

/-- A link goes DOWN from any state it trains, keys or runs in. -/
def State.linkDown (s : State) (l : Link) (reason : Nat) : State :=
  let s := if (s.link l).up then s.linkDrop l else s
  s.linkToDown l reason

/-- Put a CTRL flit at the front of a link's send queue. -/
def State.sendCtrl (s : State) (l : Link) (body : List Byte) : State :=
  let x := s.link l
  s.setLink l { x with txq := ctrlFlit body :: x.txq }

/-- The sender's direction is to take fresh keys: a CTRL flit says so, and the record that carries it is the last under the old ones
(R489); the link fails while the random source has failed (R548). -/
def State.askRekey (s : State) (l : Link) : State :=
  if (s.link l).txq.any (·.rekeys) then s
  else if s.sec.trngFail then s.linkDown l 5 else s.sendCtrl l ctrlRekey

/-- A direction whose record counter comes near 2^31 rekeys (R489). -/
def State.autoRekey (s : State) (l : Link) : State := if 2 ^ 31 ≤ (s.link l).txRec + 3 then s.askRekey l else s

/-- The records that a resend from a flit repeats. -/
def recsFrom (seq : Nat) (fs : List SentFlit) : List Nat := ((fs.dropWhile (fun f => f.seq != seq)).map (·.recNo)).eraseDups

/-- A resend from a flit is asked for (R463): each record from that flit on is sent again, its bytes unchanged. Where one of them has been
resent eight times in a row, it was not accepted, and the link goes DOWN in place of another resend (R464). -/
def State.resend (s : State) (l : Link) (seq : Nat) : State :=
  let x := s.link l
  let rs := recsFrom seq x.replay
  if rs.any (fun r => decide (8 ≤ x.resends.get (fun _ => 0) r)) then s.linkDown l 2
  else (s.bumpLo (rLcnt l.val 0) 1).setLink l
    { x with again := x.again + 1, resends := rs.foldl (fun m r => m.put (fun _ => 0) r (m.get (fun _ => 0) r + 1)) x.resends }

/-! ### Receiving (R461, R462, R466, R471) -/

/-- An ACK is applied: flits that it covers leave the replay buffer; a record of which none is left there was accepted (R463, R464). -/
def LinkSt.takeAck (x : LinkSt) (now : W64) (ack : Nat) : LinkSt :=
  let kept := ackFlits ack x.replay
  { x with replay := kept, ackAt := if kept.length < x.replay.length then now else x.ackAt, resends := x.resends.filter (fun e => kept.any (fun f => f.recNo == e.1)) }

/-- Ask for a resend of the record being received: its flits are discarded until it comes again (R461). -/
def State.askResend (s : State) (l : Link) : State :=
  let x := s.link l
  let first := (x.rxSeq + 1024 - x.rx.length % 1024) % 1024
  (s.setLink l { x with rx := [], cut := [], lost := true, rxSeq := first }).sendCtrl l (ctrlRetry first)

/-- The flits of SCHED that a link's receiver holds (R471, R482): of packets that wait, of one that is not whole, and in the record. -/
def State.schedHeld (s : State) (l : Link) : Nat :=
  s.heldFlits l 0 + ((s.link l).rx.filter (fun f => flitKind f == 1 && flitVc f == 0 && !((s.link l).cut.contains (flitSeq f)))).length

/-- A flit that passes CRC, FHC and SEQ joins the record. A SCHED flit to a full buffer is discarded: the record keeps it for its tag
alone (R466, R471). -/
def State.takeFlit (s : State) (l : Link) (f : BitVec 2048) : State :=
  let x := s.link l
  let y : LinkSt := { x with rxSeq := (x.rxSeq + 1) % 1024, rx := x.rx ++ [f] }
  if flitKind f = 1 ∧ flitVc f = 0 ∧ 256 ≤ s.schedHeld l then
    (s.setLink l { y with cut := x.cut ++ [flitSeq f] }).bumpHi (rLcnt l.val 1) 1
  else s.setLink l y

/-- The checks of R461 and R462 on a flit at an UP or DEGRADED link: whether it may be used, and the state. An IDLE flit belongs to no
record: its ACK counts at once; that of any other flit counts when its record has verified (R466). -/
def State.checkFlit (s : State) (l : Link) (f : BitVec 2048) : Bool × State :=
  let x := s.link l
  if !(flitCrcOk f) then (false, (s.bumpHi (rLcnt l.val 0) 1).askResend l)
  else if !(flitFhcOk f) then (false, (s.bumpLo (rFltCnt 1) 1).askResend l)
  else if flitKind f = 0 then (false, if x.lost then s else s.setLink l (x.takeAck s.tb.time (flitAck f)))
  else if flitSeq f = x.rxSeq then (true, s.setLink l { x with lost := false })
  else if x.lost then (false, s) else (false, s.askResend l)

/-- A DATA flit of a verified record: VC, SOP, EOP, whether R471 discarded it, and its body. -/
structure RxData where
  vc   : Nat
  sop  : Bool
  eop  : Bool
  cut  : Bool
  body : List Byte
deriving DecidableEq, Repr

/-- What a verified record brings: packet bytes collected on each VC, packets that are complete (R470), and the heads of packets of which
a flit was discarded (R471). A flit that continues no packet is of a packet so lost. -/
structure RxOut where
  parts : SMap (List Byte)
  whole : List (Nat × List Byte)
  heads : List (List Byte)
deriving DecidableEq, Repr

def RxOut.take (r : RxOut) (d : RxData) : RxOut :=
  let old := SMap.get (fun _ => []) d.vc r.parts
  let bytes := if d.sop then d.body else if old.isEmpty then [] else old ++ d.body
  if bytes.isEmpty then r
  else if d.cut then { r with parts := SMap.put (fun _ => []) d.vc [] r.parts, heads := r.heads ++ [bytes.take 40] }
  else if d.eop then { r with parts := SMap.put (fun _ => []) d.vc [] r.parts, whole := r.whole ++ [(d.vc, bytes)] }
  else { r with parts := SMap.put (fun _ => []) d.vc bytes r.parts }

/-- A packet arrives whole: one whose header pair does not match is discarded and reported (Table 23-1, class 5). -/
def State.arrive (s : State) (l : Link) (vc : Nat) (bs : List Byte) : State :=
  match pktParse vc bs with
  | some p => { s with bv := { s.bv with arrived := s.bv.arrived ++ [p], via := s.via ++ [(l.val, p)] } }
  | none => s.cmpMiss 5 0 l.val 13 l.val

/-- What the CTRL flits of a verified record ask: fresh keys of the sender, or of this end (R489). -/
def State.takeCtrl (s : State) (l : Link) (bodies : List (List Byte)) : State :=
  let s := if bodies.any (fun b => b.head? == some 2) then s.tick.setLink l ((s.link l).rekeyRx s.free) else s
  if bodies.any (fun b => b.head? == some 3) then s.askRekey l else s

/-- A SEAL closes the record received: with a good tag its flits and their ACKs are used, otherwise it is discarded and asked for again;
the fourth failure of one record takes the link DOWN (R466). The second part are the heads of packets of which R471 discarded a
flit. -/
def State.sealRecord (s : State) (l : Link) (f : BitVec 2048) : State × List (List Byte) :=
  let x := s.link l
  let fs := x.rx
  let b := flitBody f
  match Config.gcmOpen x.rxKey x.rxRec (fs.flatMap flitHead) (fs.flatMap flitBody) (b.take 16) with
  | none =>
    let s := s.bumpLo (rLcnt l.val 1) 1
    (if 4 ≤ x.fails + 1 then s.linkDown l 3 else (s.setLink l { x with fails := x.fails + 1 }).askResend l, [])
  | some plain =>
    let pairs := fs.zip (chunks 244 (fs.length + 1) (padTo (244 * fs.length) plain))
    let data := (pairs.filter (fun p => flitKind p.1 == 1)).map (fun p =>
      (⟨flitVc p.1, flitSop p.1, flitEop p.1, x.cut.contains (flitSeq p.1), p.2⟩ : RxData))
    let r := data.foldl RxOut.take ⟨x.parts, [], []⟩
    let ret := (b.drop 26).take 4
    let used (v : Nat) : Nat := (data.filter (fun d => d.vc == v)).length
    let y : LinkSt := (fs ++ [f]).foldl (fun y g => y.takeAck s.tb.time (flitAck g)) x
    let y : LinkSt := { y with rx := [], cut := [], fails := 0, rxRec := x.rxRec + 1, rxAck := x.rxSeq, rxSeq := (x.rxSeq + 1) % 1024
                               parts := r.parts, credits := (x.credits.zip (ret.map (·.toNat))).map (fun p => min 192 (p.1 + p.2))
                               back := (x.back.zip [1, 2, 3, 4]).map (fun p => p.1 + used p.2) }
    ((r.whole.foldl (fun s p => s.arrive l p.1 p.2) (s.setLink l y)).takeCtrl l
      ((pairs.filter (fun p => flitKind p.1 == 3)).map (·.2)), r.heads)

/-! ### Belay over a link (R167, R168, R170, R173) -/

/-- Move belay rows for another device from the wire onto the links their contexts name (R170, R173). -/
def State.shipBelay (s : State) : State :=
  let away (m : BelayMsg) : Bool := m.kind == 2 && decide (m.toDev ≠ s.devId.toNat)
  let go := s.wire.filter away
  go.foldl (fun s m =>
    match linkOf? m.src.link.toNat with
    | none => s
    | some l => s.linkSend l (s.mkPkt (BitVec.ofNat 16 m.toDev) 4 0 1
        (bytesOf 2 m.row.tag.toNat ++ [m.row.hop, BitVec.ofNat 8 m.toCore, BitVec.ofNat 8 m.src.id.toNat]
          ++ m.row.row.flatMap (fun v => bytesOf 4 v.toNat)))) { s with wire := s.wire.filter (fun m => !(away m)) }

/-- A packet of a stage to a stage of another device: tag, core, the sender's core and what it says (DESIGN CHOICE: the spec gives no
body): 1 a credit, 2 that a row, 3 that a credit is refused. -/
def State.belayTell (s : State) (link dev : Nat) (tag : BitVec 16) (core own what : Nat) : State :=
  match linkOf? link with
  | some l =>
    if (s.link l).up then
      s.linkSend l (s.mkPkt (BitVec.ofNat 16 dev) 4 0 3
        (bytesOf 2 tag.toNat ++ [BitVec.ofNat 8 what, BitVec.ofNat 8 core, BitVec.ofNat 8 own]))
    else s
  | none => s

/-- A RUNNING stage grants its previous stage on another device one credit for each free row buffer, while its link can carry it
(R167). -/
def State.belayGive (s : State) (c : Core) (n : Fin 8) : Nat → State
  | 0 => s
  | fuel + 1 =>
    let x := s.belay c n
    let b := x.ctl
    if s.belayState c n = 2 ∧ b.role ≠ 0 ∧ b.prevKind = 2 ∧ b.prevDev ≠ s.devId.toNat ∧ x.given + x.bufs.length < 2
        ∧ s.linkUp b.prevLink then
      ((s.setBelay c n { x with given := x.given + 1 }).belayTell b.prevLink b.prevDev b.tag b.prevId c.val 1).belayGive c n fuel
    else s

/-- A RUNNING stage goes on: it sends what its credits allow, and fails where a row would leave on a link that is not UP or DEGRADED
(R170); then it grants what it has room for. -/
def State.belayGo (s : State) (c : Core) (n : Fin 8) : State :=
  let x := s.belay c n
  let b := x.ctl
  let s :=
    if x.state = 2 ∧ 0 < x.credits ∧ b.nextKind = 2 ∧ b.nextDev ≠ s.devId.toNat ∧ (s.belayOut c x).isSome ∧ !(s.linkUp b.nextLink) then
      s.belayFail c n 3 b.nextLink
    else (s.belayPump c n 2).shipBelay
  s.belayGive c n 2

/-- A stage refuses a source; a sender on another device is told (R168). -/
def State.belayRefuseAll (s : State) (c : Core) (credit : Bool) (src : BelaySrc) (tag : BitVec 16) : State :=
  let s := s.belayRefuse c credit src tag
  if src.kind = 2 ∧ src.dev ≠ s.devId then s.belayTell src.link.toNat src.dev.toNat tag src.id.toNat c.val (if credit then 3 else 2) else s

/-- Is a packet a refusal of R168? -/
def belayRefusal (p : Pkt) : Bool := p.ptype == 4 && p.body.length == 5 && (p.body[2]? == some 2 || p.body[2]? == some 3)

/-- A refusal of another device reaches the stage that sent the row or the credit: FAILED with REASON 4 (R168). -/
def State.belayRefused (s : State) (p : Pkt) : State :=
  let at' (i : Nat) : Nat := ((p.body[i]?).map (·.toNat)).getD 0
  match coreOf? (at' 3) with
  | none => s
  | some k =>
    match (List.finRange 8).find? (fun m =>
      let y := s.belay k m
      y.busy && y.ctl.tag.toNat == natOf (p.body.take 2) && (if at' 2 = 3
        then y.ctl.prevKind == 2 && y.ctl.prevDev == p.src.toNat && y.ctl.prevId == at' 4
        else y.ctl.nextKind == 2 && y.ctl.nextDev == p.src.toNat && y.ctl.nextId == at' 4)) with
    | some m => s.belayEnd k m 4 4 0
    | none => s

end Sys2Proof.Machine
end

