-- ==== Sys2Proof/Machine/QueuePool.lean ====
section
/-! DEFINITION. The queue pool (spec/15_queue_pool.md): visibility, pops, broken packets, configuration writes, flush and
the pages of R432. Admission stands in Machine/Ops.lean. -/
namespace Sys2Proof.Machine

/-- What a pop comes to: no visible packet, a packet begun whose later cells it waits for (R433), or its bytes, the packet's full
length and its broken bit. -/
inductive PopRes
  | none
  | begun
  | got (bs : List Byte) (len : Nat) (broken : Bool)
deriving DecidableEq, Repr

/-- A link word that mismatches (Table 23-1, class 3): ENABLE clears, the packets of the queue are discarded, and their cells return at
the next FLUSH. -/
def State.badLink (s : State) (q : Nat) : State :=
  let x := s.queue q
  let s := (s.setQueue q { x with pkts := [], lost := x.lost ++ x.pkts.flatMap (fun p => p.cells.map (·.idx)) }).setRf (rQcfg q) 59 1 0
  s.cmpMiss 3 q 0 11 (dieOf q)

/-- An error strikes the link word of a cell, counted from the front of a queue. -/
def strikeCell (k : Nat) (e : BitVec 32) : List QPkt → List QPkt
  | [] => []
  | p :: ps =>
    if k < p.cells.length then { p with cells := p.cells.mapIdx (fun i c => if i = k then { c with link := c.link ^^^ e } else c) } :: ps
    else p :: strikeCell (k - p.cells.length) e ps
def State.strikeLink (s : State) (q : Nat) (err : Option (Nat × BitVec 32)) : State :=
  match err with
  | some (k, e) => s.setQueue q { s.queue q with pkts := strikeCell k e (s.queue q).pkts }
  | none => s

/-- A pop of the oldest visible packet (R429, R430, R433). Its link words are read in order. Where that of the first cell, which carries
the length, mismatches, nothing of the packet can be used; where a later one does, the bytes of the cells up to it have been read and
the rest are zeros; the last one is read only to find the next packet. The pop then ends broken. -/
def State.popPkt (s : State) (q limit : Nat) : PopRes × State :=
  let s := s.lookWritten q
  match s.qHead q with
  | none => (.none, s)
  | some p =>
    let n := p.data.length
    match p.cells.findIdx? (fun c => !c.ok) with
    | some 0 => (.got [] 0 true, s.badLink q)
    | bad =>
      if !p.whole then (.begun, s.setQueue q { s.queue q with pkts := ({ p with begun := true } : QPkt) :: (s.queue q).pkts.drop 1 })
      else match bad with
        | none => (.got (p.data.take limit) n p.broken, s.dropHead q limit p)
        | some k =>
          if k + 1 = p.cells.length then
            if (s.queue q).pkts.length = 1 then (.got (p.data.take limit) n p.broken, s.dropHead q limit p)
            else (.got (p.data.take limit) n true, (s.dropHead q limit p).badLink q)
          else (.got ((padTo n (p.data.take (64 * (k + 1)))).take limit) n true, s.badLink q)

/-- A packet as it stands when it breaks (R434): its unwritten cells are zero bytes. -/
def QPkt.breakUp (p : QPkt) (now : W64) : QPkt :=
  { p with data := padTo p.data.length (p.data.take (64 * p.written)), written := p.cells.length, broken := true, since := now }

/-- The packets that break do so: they are counted and reported, and become visible. -/
def State.breakThose (s : State) (q : Nat) (which : QPkt → Bool) : State :=
  let x := s.queue q
  let n := (x.pkts.filter which).length
  let ps := x.pkts.map (fun p => if which p then p.breakUp s.tb.time else p)
  let s := s.setQueue q { x with pkts := ps, wr := x.wr.add ((ps.map (·.written)).sum - (x.pkts.map (·.written)).sum) s.tb.time }
  (forN n (fun _ s => (s.bumpLo (rQpCnt (dieOf q) 1) 1).raise fQpBroken 11 (dieOf q) [q]) s).servePops q 1024

/-- Is a packet incomplete, its next cell 10 µs of GLOBAL_TIME late (R434)? -/
def QPkt.stuck (p : QPkt) (now : W64) : Bool := !p.whole && decide (p.since.toNat + 10000 ≤ now.toNat)
/-- When the next cell of the first incomplete packet of a queue is late. -/
def State.breakAt (s : State) (q : Nat) : Option Nat :=
  (((s.queue q).pkts.filter (fun p => !p.whole)).map (fun p => p.since.toNat + 10000)).foldl (fun b t => some (min t (b.getD t))) none
/-- Break the packets of a queue whose next cell is late; GLOBAL_TIME reaches that time where it may. -/
def State.breakPkt (s : State) (q : Nat) : State :=
  match (s.breakAt q).bind s.reachBy with
  | some t => t.breakThose q (fun p => p.stuck t.tb.time)
  | none => s

/-- Packets of a producer that is aborted or loses its link break at once, in whichever pool they are (R434). -/
def State.breakPort (s : State) (prod : Nat) : State :=
  let mine (p : QPkt) : Bool := p.prod == prod && !p.whole
  s.queues.foldl (fun s e => if e.2.pkts.any mine then s.breakThose e.1 mine else s) s

/-- More cells of a packet that its producer is still writing (R433): none where it writes no such packet. -/
def State.morePkt (s : State) (q prod : Nat) (data : List Byte) (written : Nat) : Option State :=
  let x := s.queue q
  let mine (p : QPkt) : Bool := p.prod == prod && !p.whole && p.data == data
  if x.pkts.any mine then
    let ps := x.pkts.map (fun p => if mine p ∧ p.written < written then { p with written := min written p.cells.length, since := s.tb.time } else p)
    some ((s.setQueue q { x with pkts := ps
                                 wr := x.wr.add ((ps.map (·.written)).sum - (x.pkts.map (·.written)).sum) s.tb.time }).servePops q 1024)
  else none

/-- QP_BADCNT and a QP_BAD record (R424, R427). -/
def State.qpReject (s : State) (q : Nat) (det : List Nat) : State :=
  (s.bumpHi (rQpCnt (dieOf q) 1) 1).raise fQpBad 11 (dieOf q) det

/-- FLUSH: every cell returns to the free list, once any pop in progress has ended (R428). -/
def State.flushQueue (s : State) (q : Nat) : State :=
  let x := s.queue q
  if x.pkts.any (·.begun) then s.setQueue q { x with flush := true }
  else s.setQueue q { x with pkts := [], lost := [], rl := x.rl.add x.cells s.tb.time }

/-- The bits of QP_QCFGq that a write changes. -/
def qcfgMask : W64 := 0x0FFFFFFFFFFFFFFF#64

/-- A write to QP_QCFGq (R427, R428). -/
def State.qcfgWrite (s : State) (q : Nat) (v : W64) : State :=
  let old := s.reg (rQcfg q)
  let x := s.queue q
  let busy := bitOf old 59 || decide (0 < x.cells)
  let moved := fld old 0 17 != fld v 0 17 || fld old 34 11 != fld v 34 11
  let cut := fld v 34 7
  let bad := (busy && moved) || fld v 45 2 == 3 || decide (64 < cut) || (bitOf v 60 && bitOf v 59)
  if bad then s.qpReject q []
  else
    let s := s.setReg (rQcfg q) (v &&& qcfgMask)
    if bitOf v 60 then s.flushQueue q else s

/-- Producers, by 64 times their die and their pool port on it (R425): cores, the receivers of links and halves, basecamp on the die of
a queue. -/
def coreProd (c : Core) : Nat := 64 * (c.val / 24) + 15 + c.val % 24
def linkProd (l : Nat) : Nat := 64 * (l / 12) + 2 + l % 12
def halfProd (h : Nat) : Nat := 64 * h + 14
def campProd (q : Nat) : Nat := 64 * dieOf q + 1

/-- The queue and the offset of a queue page address (R432). -/
def queuePage (a : Nat) : Option (Nat × Nat) :=
  if 0x60000000 ≤ a ∧ a < 0x68000000 then some ((a - 0x60000000) / 0x10000, a % 0x10000) else none

/-- A write of n bytes into a queue page: one packet in the push range, nothing in the pop range (R432). -/
def State.queueWrite (s : State) (q off prod : Nat) (bs : List Byte) : State :=
  if 0x8000 ≤ off then s
  else if bs.length = 0 ∨ 4096 < bs.length then s
  else s.pushPkt q prod bs (cellsOf bs.length)

/-- A read of n bytes from a queue page: a pop in the pop range, none where the pop waits; zeros elsewhere. -/
def State.queueRead (s : State) (q off n : Nat) : Option (List Byte) × State :=
  if off < 0x8000 then (some (padTo n []), s)
  else
    match s.popPkt q n with
    | (.got bs _ _, s) => (some (padTo n bs), s)
    | (_, s) => (none, s)

end Sys2Proof.Machine
end

