-- ==== Sys2Proof/Machine/Nz.lean ====
section
/-! DEFINITION. The Nimzen link (spec/18_nimzen_link.md): messages, windows, the directory, the line caches, and what follows
when a half leaves UP or DEGRADED. -/
namespace Sys2Proof.Machine

/-! ### Access -/

def State.half (s : State) (h : Half) : HalfSt := s.nz.half.get h
def State.setHalf (s : State) (h : Half) (x : HalfSt) : State :=
  { s with nz := { s.nz with half := s.nz.half.set h.val x h.isLt } }
def State.onHalf (s : State) (h : Half) (f : HalfSt → HalfSt) : State := s.setHalf h (f (s.half h))
/-- UP or DEGRADED. -/
def HalfSt.up (x : HalfSt) : Bool := x.st == 4 || x.st == 5
/-- The domain of a half (Table 22-1). -/
def halfDom (h : Half) : Nat := 68 + h.val

/-! ### Messages to the companion (Table 18-3) -/

def State.nzSend (s : State) (h : Half) (m : NzMsg) : State := s.onHalf h (fun x => { x with out := x.out ++ [m] })
/-- CMP. -/
def State.nzCmp (s : State) (h : Half) (txid : Nat) : State := s.nzSend h ⟨0x14, 0, txid, 0, []⟩
/-- NACK with a reason of R496. -/
def State.nzNack (s : State) (h : Half) (txid reason : Nat) : State := s.nzSend h ⟨0x15, 0, txid, reason, []⟩
/-- DATA_S, DATA_E or DATA_NC. -/
def State.nzData (s : State) (h : Half) (txid kind : Nat) (bs : List Byte) : State :=
  s.nzSend h ⟨0x11, ceilDiv bs.length 64, txid, kind, bs⟩

/-- A message that R497 discards: counted, reported once per half and pitch. -/
def State.nzBad (s : State) (h : Half) : State :=
  let s := s.bumpHi (rNzCnt h.val 0) 1
  if (s.half h).badRec = some s.tb.pitch then s
  else (s.onHalf h (fun x => { x with badRec := some s.tb.pitch })).raise fNzBad 14 h.val [h.val]

/-- A request that R502 refuses: NACK 3, counted, reported once per half and pitch. -/
def State.nzDeny (s : State) (h : Half) (txid : Nat) : State :=
  let s := (s.nzNack h txid 3).bumpLo (rNzCnt h.val 0) 1
  if (s.half h).denyRec = some s.tb.pitch then s
  else (s.onHalf h (fun x => { x with denyRec := some s.tb.pitch })).raise fNzDeny 14 h.val [h.val]

/-- Take a message off the list of those that have arrived and wait. -/
def State.nzTaken (s : State) (h : Half) (op txid : Nat) : State :=
  s.onHalf h (fun x => { x with arrived := x.arrived.filter (fun m => !(m.op == op && m.txid == txid)) })

/-! ### Windows (R500, R502) -/

def State.winBase (s : State) (n : Nat) : Nat := s.rf (rNzWinA n) 0 36 * 4096
def State.winSize (s : State) (n : Nat) : Nat := (s.rf (rNzWinB n) 0 28 + 1) * 4096
def State.winBit (s : State) (n i : Nat) : Bool := bitOf (s.reg (rNzWinB n)) i
/-- Does valid window n, of CMEM as given, cover n bytes from a? -/
def State.winCovers (s : State) (cmem : Bool) (w a n : Nat) : Bool :=
  s.winBit w 34 && s.winBit w 31 == cmem && decide (s.winBase w ≤ a) && decide (a + n ≤ s.winBase w + s.winSize w)
/-- The window that admits a companion request. -/
def State.winFor (s : State) (h : Half) (a n : Nat) (write : Bool) : Option Nat :=
  (List.range 16).find? (fun w => s.winCovers false w a n && s.winBit w (32 + h.val) && s.winBit w (if write then 29 else 28))
/-- The window of companion memory that covers an address. -/
def State.cmemWin (s : State) (a n : Nat) : Option Nat := (List.range 16).find? (fun w => s.winCovers true w a n)

/-! ### The directory (R506 to R509) -/

def State.dirGet (s : State) (line : Nat) : Nat := s.nz.dir.get (fun _ => 0) line
def State.dirSet (s : State) (line v : Nat) : State := { s with nz := { s.nz with dir := s.nz.dir.put (fun _ => 0) line v } }
/-- Does half h hold a line in this state? -/
def dirHolds (v : Nat) (h : Nat) : Bool := if v < 4 then v.testBit h else v == 4 + h
/-- The state with h removed. -/
def dirDrop (v h : Nat) : Nat := if v < 4 then (if v.testBit h then v - 2 ^ h else v) else if v = 4 + h then 0 else v
/-- Entries of a half that are not I. -/
def State.dirUsed (s : State) (h : Nat) : Nat := (s.nz.dir.filter (fun e => dirHolds e.2 h)).length

/-- Is a snoop of the line outstanding? -/
def State.snooping (s : State) (line : Nat) : Bool := s.nz.snoops.any (fun p => p.line == line)

/-- Is a number taken by a request of the device at a half that is outstanding (R495)? -/
def State.txidBusy (s : State) (h : Half) (t : Nat) : Bool :=
  (s.half h).reqs.any (fun r => r.txid == t) || (s.half h).msgs.any (fun m => m.txid == t)
    || s.nz.snoops.any (fun p => p.half == h.val && p.txid == some t)
/-- Requests of the device that are outstanding at a half: at most 1,024 (R495). -/
def State.nzFull (s : State) (h : Half) : Bool :=
  decide (1024 ≤ (s.half h).reqs.length + (s.half h).msgs.length + (s.nz.snoops.filter (fun p => p.half == h.val && p.txid.isSome)).length)
/-- The number of a half's next request: the lowest free one, for which no answer of an earlier snoop may still come where there is
such a one. -/
def State.nzTxid (s : State) (h : Half) : Nat :=
  let free := (List.range 1024).filter (fun t => !(s.txidBusy h t))
  ((free.find? (fun t => !(s.nz.stale.contains (h.val, t)))).or free.head?).getD 0
/-- A number is used for a new request. -/
def State.useTxid (s : State) (h : Half) (t : Nat) : State := { s with nz := { s.nz with stale := s.nz.stale.filter (fun p => p != (h.val, t)) } }

/-- Send the first snoop of a half that waits for a number. -/
def State.sendSnoop (s : State) (h : Half) : State :=
  match s.nz.snoops.find? (fun p => p.half == h.val && p.txid.isNone) with
  | none => s
  | some p =>
    if s.nzFull h then s
    else
      let t := s.nzTxid h
      let s := s.useTxid h t
      ({ s with nz := { s.nz with snoops := s.nz.snoops.map (fun q => if q = p then { q with txid := some t, since := s.tb.time.toNat } else q) } }).nzSend h
        ⟨0x16, 0, t, p.line, []⟩

/-- Send SNP_INV to halves that hold a line, once each. -/
def State.startSnoops (s : State) (line : Nat) (hs : List Half) : State :=
  hs.foldl (fun s h =>
    if s.nz.snoops.any (fun p => p.line == line && p.half == h.val) then s
    else ({ s with nz := { s.nz with snoops := s.nz.snoops ++ [(⟨line, h.val, none, s.tb.time.toNat⟩ : NzSnoop)] } }).sendSnoop h) s

/-- The halves other than h that hold a line. -/
def othersOf (v : Nat) (h : Option Half) : List Half :=
  (List.finRange 2).filter (fun g => dirHolds v g.val && some g != h)

/-- An access takes its place behind those that wait for the line. -/
def State.keepPlace (s : State) (w : NzWait) : State :=
  if s.nz.waits.contains w then s else { s with nz := { s.nz with waits := s.nz.waits ++ [w] } }
/-- Does another access to the line wait that came first? -/
def State.isBehind (s : State) (w : NzWait) : Bool :=
  (s.nz.waits.filter (fun x => x.line == w.line)).head?.any (fun x => x != w)

/-- An access to a line that a half may have changed, or for a write holds at all, waits for its snoops, and any access for those to the
line that came first (Table 18-4, R503, R506): whether it must wait, where it keeps its place. -/
def State.cohWait (s : State) (who : NzWho) (line : Nat) (write : Bool) : Bool × State :=
  let w : NzWait := ⟨who, line⟩
  let v := s.dirGet line
  if s.isBehind w || s.snooping line then (true, s.keepPlace w)
  else if v = 0 ∨ (v < 4 ∧ !write) then (false, s)
  else (true, (s.keepPlace w).startSnoops line (othersOf v none))

/-- A shared or owning read that no snoop holds up (R506, R507); an uncorrectable line is answered NACK 1 (R398, R496). Where it needs
snoops it stays at the front of its line. -/
def State.dirServe (s : State) (h : Half) (txid : BitVec 10) (own : Bool) (line : Nat) : State :=
  let v := s.dirGet line
  let a := 64 * line
  let need := if own || decide (4 ≤ v) then othersOf v (some h) else []
  if !need.isEmpty then
    ({ s with nz := { s.nz with waits := (⟨.coherent h txid own, line⟩ : NzWait) :: s.nz.waits } }).startSnoops line need
  else if !s.populated a then (s.noPop a).nzNack h txid.toNat 4
  else
    let e := s.memEcc a
    let s := e.2
    if !e.1 then s.nzNack h txid.toNat 1 else
    let data := bytesOf 64 (s.wordAt a)
    if !(dirHolds v h.val) && decide (262144 ≤ s.dirUsed h.val) then (s.bumpHi (rNzCnt h.val 1) 1).nzData h txid.toNat 2 data
    else if own then (s.dirSet line (4 + h.val)).nzData h txid.toNat 1 data
    else (s.dirSet line (if v < 4 then v ||| 2 ^ h.val else 2 ^ h.val)).nzData h txid.toNat 0 data

/-- A request reaches the directory: it waits behind one that waits (R506). -/
def State.dirRequest (s : State) (h : Half) (txid : BitVec 10) (own : Bool) (line : Nat) : State :=
  if s.snooping line || s.nz.waits.any (fun x => x.line == line) then s.keepPlace ⟨.coherent h txid own, line⟩
  else s.dirServe h txid own line

/-- Shared and owning reads at the front of a line go on, up to one that needs snoops or to another access (R506); n bounds them. -/
def State.dirGo (s : State) (line : Nat) : Nat → State
  | 0 => s
  | n + 1 =>
    if s.snooping line then s
    else match s.nz.waits.find? (fun x => x.line == line) with
      | some ⟨.coherent h t own, l⟩ =>
        (({ s with nz := { s.nz with waits := s.nz.waits.erase (⟨.coherent h t own, l⟩ : NzWait) } }).dirServe h t own line).dirGo line n
      | _ => s
def State.dirResume (s : State) (line : Nat) : State := s.dirGo line (s.nz.waits.length + 1)

/-- An access to words has been made: it leaves its places, and those behind it go on. -/
def State.cohDone (s : State) (who : NzWho) (lines : List Nat) : State :=
  lines.foldl (fun s l => ({ s with nz := { s.nz with waits := s.nz.waits.filter (fun w => w != (⟨who, l⟩ : NzWait)) } }).dirResume l) s
/-- An access is given up: it leaves every place it kept. -/
def State.cohLeave (s : State) (who : NzWho → Bool) : State :=
  let lines := ((s.nz.waits.filter (fun w => who w.who)).map (·.line)).eraseDups
  lines.foldl (fun s l => s.dirResume l) { s with nz := { s.nz with waits := s.nz.waits.filter (fun w => !(who w.who)) } }

/-- Does an access to one 64 B word have to wait: for its tier's fill (R401), or at its line (R506)? -/
def State.wordWaits (s : State) (who : NzWho) (a : Nat) (write : Bool) : Bool × State :=
  if (inHbm a || inLp a) && s.populated a && s.domOn (s.memDom a) then
    (if s.filled a then s.cohWait who (a / 64) write else (true, s.keepPlace ⟨who, a / 64⟩))
  else (false, s)

/-- Does any word of an access wait? -/
def State.anyWaits (s : State) (who : NzWho) (l : List (Nat × Nat)) (write : Bool) : Bool × State :=
  l.foldl (fun (r : Bool × State) p =>
    let x := r.2.wordWaits who p.1 write
    (r.1 || x.1, x.2)) (false, s)

/-- A snoop of half h on a line ends, with dirty data where the half owned it; a snoop that waits for a number takes the one it frees. -/
def State.snoopDone (s : State) (line : Nat) (h : Half) (data : Option (List Byte)) : State :=
  let v := s.dirGet line
  let s := match data with
    | some d => if v = 4 + h.val then s.wrLocal (64 * line) d else s
    | none => s
  ((({ s with nz := { s.nz with snoops := s.nz.snoops.filter (fun p => !(p.line == line && p.half == h.val)) } }).dirSet line (dirDrop v h.val)).dirResume
    line).sendSnoop h

/-! ### Companion memory (R504, R505) -/

/-- Both halves drop their copies of lines (R505). -/
def State.dropCopies (s : State) (lines : List Nat) : State :=
  (List.finRange 2).foldl (fun s h => s.onHalf h (fun x => { x with cache := x.cache.filter (fun e => !(lines.contains e.1)) })) s

/-- The lines that n bytes from a touch. -/
def linesOf (a n : Nat) : List Nat := rangeFrom (a / 64) (ceilDiv (a % 64 + n) 64)

/-- The half that holds a valid copy of a line, and the copy. -/
def State.copyOf (s : State) (line : Nat) : Option (Half × BitVec 512) :=
  (List.finRange 2).findSome? (fun h => ((s.half h).cache.find? (fun e => e.1 == line)).map (fun e => (h, e.2)))
/-- A copy is used: it is its half's most recently used (R505). -/
def State.useCopy (s : State) (h : Half) (line : Nat) (v : BitVec 512) : State :=
  s.onHalf h (fun x => { x with cache := (line, v) :: x.cache.filter (fun e => e.1 != line) })

/-- Send a D_RD for a line. -/
def State.askLine (s : State) (h : Half) (r : NzReq) : State :=
  let t := s.nzTxid h
  ((((s.useTxid h t).onHalf h (fun x => { x with reqs := x.reqs ++ [{ r with txid := t }] })).answer r.who (.waiting s.tb.time.toNat t)).nzSend h
    ⟨0x18, 0, t, r.line, []⟩)
/-- Send a D_WR of whole lines, the bytes of an access merged into those lines that it fills in part. -/
def State.putLines (s : State) (h : Half) (w : TxnWho) (a : Nat) (d : List Byte) (have' : List (Nat × BitVec 512)) : State :=
  let lines := linesOf a d.length
  let base := lines.flatMap (fun l => bytesOf 64 ((have'.find? (fun e => e.1 == l)).map (·.2.toNat) |>.getD 0))
  let whole := base.take (a % 64) ++ d ++ base.drop (a % 64 + d.length)
  let t := s.nzTxid h
  let r : NzReq := ⟨t, a, a / 64, true, w, false, none, [], []⟩
  (((s.dropCopies lines).useTxid h t).onHalf h (fun x => { x with reqs := x.reqs ++ [r] })).answer w (.waiting s.tb.time.toNat t)
    |>.nzSend h ⟨0x19, lines.length, t, a / 64, whole⟩

/-- The lines that a write of n bytes from a fills in part: they are read before it (DESIGN CHOICE: D_WR carries whole lines and no byte
mask, Table 18-3). -/
def partLines (a n : Nat) : List Nat := (linesOf a n).filter (fun l => decide (64 * l < a) || decide (a + n < 64 * l + 64))

/-- A device access to a line of companion memory, or to bytes of it for a write: served from a copy, sent to the companion, or failed;
where no number is free it stays to be made. -/
def State.cmemAsk (s : State) (w : TxnWho) (a : Nat) (data : Option (List Byte)) : State :=
  let line := a / 64
  match s.cmemWin (match data with
    | some _ => a
    | none => 64 * line) (match data with
    | some d => d.length
    | none => 64) with
  | none => (s.unmapped a).answer w (.failed 4 0)
  | some n =>
    if !(s.winBit n (if data.isSome then 29 else 28)) then s.answer w (.failed 3 0)
    else
      let coh := s.winBit n 30
      let copy (l : Nat) : Option (Half × BitVec 512) := if coh then s.copyOf l else none
      match data, copy line with
      | none, some (g, v) => (s.useCopy g line v).answer w (.data v)
      | _, _ =>
        match (List.finRange 2).find? (fun h => s.winBit n (32 + h.val) && (s.half h).up) with
        | none => s.answer w (.failed 2 0)
        | some h =>
          if s.nzFull h then s
          else match data with
            | none => s.askLine h ⟨0, a, line, false, w, false, none, [], []⟩
            | some d =>
              let held := (partLines a d.length).filterMap (fun l => (copy l).map (fun c => (l, c.2)))
              match (partLines a d.length).filter (fun l => !(held.any (fun e => e.1 == l))) with
              | [] => s.putLines h w a d held
              | l :: ls => s.askLine h ⟨0, a, l, false, w, false, some d, ls, held⟩

/-- The number of companion memory among the units of R305: one for each half, the first that the address's window names and that is UP
or DEGRADED (R504). -/
def State.cmemHalf (s : State) (a : Nat) : Nat :=
  match s.cmemWin a 1 with
  | none => 0
  | some n =>
    let hs := (List.finRange 2).filter (fun h => s.winBit n (32 + h.val))
    (((hs.find? (fun h => (s.half h).up)).or hs.head?).map (fun (h : Half) => h.val)).getD 0

/-- Ask for a word that this device does not hold: of another device over the links, of the companion over the Nimzen
link. -/
def State.farAsk (s : State) (w : TxnWho) (a : W64) (data : Option (List Byte)) : State :=
  if s.isLocal a then s.cmemAsk w (localOf a.toNat) data else s.remoteAsk w a data

/-! ### Leaving UP or DEGRADED (R510) -/

/-- Who waits for a half's own requests. -/
def NzWho.ofHalf (h : Half) : NzWho → Bool
  | .coherent g _ _ | .nc g _ => g == h
  | _ => false
def State.halfDrop (s : State) (h : Half) : State :=
  let x := s.half h
  let owned := (s.nz.dir.filter (fun e => e.2 == 4 + h.val)).length
  let lines := (s.nz.snoops.filter (fun p => p.half == h.val)).map (·.line)
  let dir := (s.nz.dir.map (fun e => (e.1, dirDrop e.2 h.val))).filter (fun e => e.2 != 0)
  let s := { s with nz := { s.nz with dir := dir, snoops := s.nz.snoops.filter (fun p => p.half != h.val)
                                      stale := s.nz.stale.filter (fun p => p.1 != h.val) } }
  let s := s.setHalf h { x with cache := [], reqs := [], pops := [], open_ := [], arrived := [], out := [], slots := [], ctl := [], last := []
                                asks := 0, rx := [], lost := false, fails := 0, rxKey := [], txKey := [], sig := []
                                msgs := x.msgs.map (fun m => { m with again := true, since := 0 }) }
  let s := (s.bumpLo (rNzCnt h.val 1) owned).raise fNzDown 14 h.val [h.val]
  let s := x.reqs.foldl (fun s r => s.answerTo r.who (.failed 2 0)) s
  let s := (s.breakPort (halfProd h.val)).cohLeave (NzWho.ofHalf h)
  lines.foldl (fun s l => s.dirResume l) s

/-- A half goes to a state of Table 17-7 that is not UP or DEGRADED. -/
def State.halfTo (s : State) (h : Half) (st : Nat) : State :=
  let s := if (s.half h).up then s.halfDrop h else s
  s.onHalf h (fun x => { x with st := st, since := s.tb.time })

end Sys2Proof.Machine
end

