-- ==== Sys2Proof/Machine/Coll.lean ====
section
/-! DEFINITION. Completion records (Table 10-5) and collectives (spec/17_borvik_links.md R478 to R486). -/
namespace Sys2Proof.Machine

/-- The completion record of Table 10-5. -/
def partRecord (tag status : Nat) (folded : Bool) (parts core eng reason first : Nat) (ok fail : W64) (bytes : Nat) (time : W64)
    (drops resume dev link : Nat) : List Byte :=
  bytesOf 8 (tag % 2 ^ 16 + 2 ^ 16 * status + 2 ^ 18 * b2n folded + 2 ^ 19 * parts + 2 ^ 26 * core + 2 ^ 32 * eng + 2 ^ 34 * reason
      + 2 ^ 38 * first)
    ++ bytesOf 8 ok.toNat ++ bytesOf 8 fail.toNat ++ bytesOf 8 bytes ++ bytesOf 8 time.toNat ++ bytesOf 4 drops ++ bytesOf 4 resume
    ++ bytesOf 2 dev ++ bytesOf 1 link ++ padTo 13 []

/-- n bytes at a full address, as a unit reads them. -/
def State.rdFull (s : State) (a n : Nat) : List Byte :=
  (List.range n).map (fun i => BitVec.ofNat 8 (s.unitWord (a + i) / 2 ^ (8 * ((a + i) % 64))))

/-! ### The descriptor (Table 17-5) -/

def Cd.inp (d : BitVec 1024) : Nat := fld d 0 64
def Cd.out (d : BitVec 1024) : Nat := fld d 64 64
def Cd.record (d : BitVec 1024) : Nat := fld d 128 64
def Cd.size (d : BitVec 1024) : Nat := fld d 192 64
def Cd.n (d : BitVec 1024) : Nat := fld d 256 16 + 1
def Cd.op (d : BitVec 1024) : Nat := fld d 272 2
def Cd.rings (d : BitVec 1024) : Nat := fld d 274 3 + 1
def Cd.dtype (d : BitVec 1024) : Nat := fld d 280 5
def Cd.timeout (d : BitVec 1024) : Nat := fld d 304 16
def Cd.runs (d : BitVec 1024) (r : Nat) : Bool := decide (r < Cd.rings d) && bitOf d (320 + r)
def Cd.nextDev (d : BitVec 1024) (r : Nat) : Nat := fld d (512 + 64 * r) 16
def Cd.outLink (d : BitVec 1024) (r : Nat) : Nat := fld d (512 + 64 * r + 16) 5
def Cd.inLink (d : BitVec 1024) (r : Nat) : Nat := fld d (512 + 64 * r + 37) 5
def Cd.rank (d : BitVec 1024) (r : Nat) : Nat := fld d (512 + 64 * r + 48) 16

/-- First byte and length of part r (R479). -/
def Cd.part (d : BitVec 1024) (r : Nat) : Nat × Nat :=
  let q := ceilDiv (Cd.size d) (64 * Cd.rings d) * 64
  let lo := min (Cd.size d) (r * q)
  (lo, if r + 1 = Cd.rings d then Cd.size d - lo else min (Cd.size d) ((r + 1) * q) - lo)

/-- First byte and length of chunk c of part r, from the buffer's start (R479). -/
def Cd.chunk (d : BitVec 1024) (r c : Nat) : Nat × Nat :=
  let p := Cd.part d r
  let k := ceilDiv p.2 (64 * Cd.n d) * 64
  let lo := min p.2 (c * k)
  (p.1 + lo, min p.2 ((c + 1) * k) - lo)

/-- What travels on a ring: the collective by TAG and the pitch of its entry, which participants share (R482); phase 0 reduce-scatter,
1 all-gather, 2 all-to-all; the chunk (all-to-all: the origin), the destination rank, the offset within the chunk and the data. -/
structure CollMsg where
  tag   : Nat
  pitch : Nat
  ring  : Nat
  core  : Nat
  phase : Nat
  chunk : Nat
  dst   : Nat
  off   : Nat
  data  : List Byte
deriving DecidableEq, Repr

/-- The body of a COLL packet: the spec gives it no layout; this one holds the items in order. -/
def CollMsg.body (m : CollMsg) : List Byte :=
  bytesOf 2 m.tag ++ bytesOf 6 m.pitch ++ bytesOf 1 m.ring ++ bytesOf 1 m.core ++ bytesOf 1 m.phase ++ bytesOf 2 m.chunk ++ bytesOf 2 m.dst
    ++ bytesOf 7 m.off ++ m.data
def CollMsg.ofBody (b : List Byte) : CollMsg :=
  let f (o n : Nat) := natOf ((b.drop o).take n)
  ⟨f 0 2, f 2 6, f 8 1, f 9 1, f 10 1, f 11 2, f 13 2, f 15 7, b.drop 22⟩

/-- Bytes a ring of this rank receives in all (R480). -/
def Cd.expect (d : BitVec 1024) (r : Nat) : Nat :=
  let n := Cd.n d
  let k := Cd.rank d r
  let len (c : Nat) := (Cd.chunk d r c).2
  let others := (List.range n).filter (fun c => c != k)
  let scatter := ((List.range n).filter (fun c => c != (k + n - 1) % n)).map len
  match Cd.op d with
  | 0 => if n = 1 then 0 else scatter.sum + (others.map len).sum
  | 1 => if n = 1 then 0 else scatter.sum
  | 2 => (others.map len).sum
  | _ => ((List.range n).flatMap (fun o => (List.range n).map (fun t =>
      if o ≠ t ∧ 0 < (k + n - o) % n ∧ (k + n - o) % n ≤ (t + n - o) % n then len t else 0))).sum

/-- Has a ring of the collective ended? -/
def CollSt.ringDone (x : CollSt) (r : Nat) : Bool :=
  match x.rings[r]? with
  | some g => !(Cd.runs x.desc r) || g.failed || g.recvd == Cd.expect x.desc r
  | none => true

/-- A ring's state changed. -/
def CollSt.setRing (x : CollSt) (r : Nat) (f : CollRing → CollRing) : CollSt :=
  { x with rings := x.rings.mapIdx (fun i g => if i = r then f g else g) }

def CollSt.tag (x : CollSt) : Nat := Cd.tag x.desc
def State.collOf (s : State) (c : Core) (tag : Nat) : Option CollSt := (s.core c).coll.find? (fun x => x.tag == tag)
def State.setColl (s : State) (c : Core) (x : CollSt) : State :=
  s.onCore c (fun k => { k with coll := k.coll.map (fun y => if y.tag = x.tag then x else y) })

/-- Send COLL_FAIL notices to the successor of every ring this rank runs (R484, R485). -/
def State.sendNotices (s : State) (c : Core) (x : CollSt) (ring dev link : Nat) : State :=
  ((List.range (Cd.rings x.desc)).filter (Cd.runs x.desc)).foldl (fun s r =>
    s.sendPkt (s.mkPkt (BitVec.ofNat 16 (Cd.nextDev x.desc r)) 5 0 1
      (bytesOf 2 x.tag ++ bytesOf 6 x.pitch ++ bytesOf 1 ring ++ bytesOf 1 c.val ++ bytesOf 2 dev ++ bytesOf 1 link))) s

/-- A hop of ring r fails at this rank (R484). -/
def State.hopFail (s : State) (c : Core) (x : CollSt) (r reason dev link : Nat) : State :=
  let x := x.setRing r (fun g => { g with failed := true, reason := reason, dev := dev, link := link })
  (s.setColl c x).sendNotices c x r dev link
def State.ringFail (s : State) (c : Core) (tag r reason dev link : Nat) : State :=
  match s.collOf c tag with
  | some x => if x.ringDone r then s else s.hopFail c x r reason dev link
  | none => s

/-- Data in pieces of at most 4,032 B with their offsets. -/
def pieces (bs : List Byte) : List (Nat × List Byte) :=
  let cs := chunks 4032 (bs.length + 1) bs
  (cs.zip (List.range cs.length)).map (fun p => (4032 * p.2, p.1))

/-- Send a message to the successor on its ring, in SCHED (R482); a link that is not UP fails the hop (R484). -/
def State.collSend (s : State) (c : Core) (d : BitVec 1024) (m : CollMsg) : State :=
  let l := Cd.outLink d m.ring
  match linkOf? l with
  | some k =>
    if (s.link k).up then s.linkSend k (s.mkPkt (BitVec.ofNat 16 (Cd.nextDev d m.ring)) 5 0 0 m.body)
    else s.ringFail c m.tag m.ring 2 s.devId.toNat l
  | none => s.ringFail c m.tag m.ring 2 s.devId.toNat l

/-- Send a whole chunk. -/
def State.collSendChunk (s : State) (c : Core) (d : BitVec 1024) (m : CollMsg) (bs : List Byte) : State :=
  (pieces bs).foldl (fun s p => s.collSend c d { m with off := p.1, data := p.2 }) s

/-- Is a full address of this device's own memory? -/
def State.isHere (s : State) (a : Nat) : Bool := a / 2 ^ 48 % 65536 == s.devId.toNat && decide (localOf a < 2 ^ 47)

/-- Write bytes of OUT through the belay port's slots: the write is made by `collPump`. -/
def State.collWrite (s : State) (c : Core) (tag r : Nat) (off : Nat) (bs : List Byte) : State :=
  match s.collOf c tag with
  | some x => s.setColl c { x with puts := x.puts ++ (pieces bs).map (fun p => ⟨r, Cd.out x.desc + off + p.1, p.2, none⟩) }
  | none => s

/-- Element by element sum, incoming and own, each rounded once to the type (R481), and how often SAT advances. -/
def collSum (wrap : Bool) (dt : Nat) (a b : List Byte) : List Byte × Nat :=
  if dt = 1 then
    (((chunks 2 (a.length + 1) a).zip (chunks 2 (b.length + 1) b)).flatMap (fun p =>
      let v (x : List Byte) := Code.bf16.fmt.decode (natOf x)
      bytesOf 2 (convert ⟨false, false, false⟩ false .bf16 .rne ((v p.1).add (v p.2))).1), 0)
  else
    let rs := ((chunks 4 (a.length + 1) a).zip (chunks 4 (b.length + 1) b)).map (fun p =>
      wordAdd ⟨wrap, false, false⟩ (dt == 10) (BitVec.ofNat 32 (natOf p.1)) (BitVec.ofNat 32 (natOf p.2)))
    (rs.flatMap (fun r => bytesOf 4 r.1.toNat), (rs.map (·.2)).sum)

/-- A rank takes a message of a ring (R480, R481). -/
def State.collTake (s : State) (c : Core) (m : CollMsg) : State :=
  match s.collOf c m.tag with
  | none => s
  | some x =>
    if x.ringDone m.ring then s
    else
      let d := x.desc
      let n := Cd.n d
      let k := Cd.rank d m.ring
      let s := s.setColl c (x.setRing m.ring (fun g => { g with recvd := g.recvd + m.data.length, since := s.tb.time.toNat }))
      let ch := Cd.chunk d m.ring m.chunk
      match m.phase with
      | 0 =>
        let own := (x.input.drop (ch.1 + m.off)).take m.data.length
        let r := collSum x.wrap (Cd.dtype d) m.data own
        let s := s.bumpLo (rNumcnt0 c) r.2
        if k = m.chunk then
          let s := s.collWrite c m.tag m.ring (ch.1 + m.off) r.1
          if Cd.op d = 0 then s.collSend c d { m with phase := 1, data := r.1 } else s
        else s.collSend c d { m with data := r.1 }
      | 1 =>
        let s := s.collWrite c m.tag m.ring (ch.1 + m.off) m.data
        if (k + 1) % n = m.chunk then s else s.collSend c d m
      | _ =>
        if k = m.dst then s.collWrite c m.tag m.ring (ch.1 + m.off) (m.data.take (ch.2 - m.off)) else s.collSend c d m

/-- A ring starts: what the rank sends and writes at once (R480, R481). -/
def State.ringStart (s : State) (c : Core) (x : CollSt) (r : Nat) : State :=
  let d := x.desc
  let n := Cd.n d
  let k := Cd.rank d r
  let part (q : Nat) : List Byte := let ch := Cd.chunk d r q; (x.input.drop ch.1).take ch.2
  let m : CollMsg := ⟨Cd.tag d, x.pitch, r, c.val, 0, 0, 0, 0, []⟩
  let own (s : State) : State := s.collWrite c (Cd.tag d) r (Cd.chunk d r k).1 (part k)
  match Cd.op d with
  | 0 | 1 => if n = 1 then own s else
      let q := (k + n - 1) % n
      s.collSendChunk c d { m with chunk := q } (part q)
  | 2 => let s := own s
    if n = 1 then s else s.collSendChunk c d { m with phase := 1, chunk := k } (part k)
  | _ => ((List.range n).filter (fun t => t != k)).foldl (fun s t =>
      s.collSendChunk c d { m with phase := 2, chunk := k, dst := t } (part t)) (own s)

/-- Addresses of the words that n bytes at a full address lie in. -/
def wordsAt (a n : Nat) : List Nat := (rangeFrom (a / 64) (ceilDiv (a % 64 + n) 64)).map (64 * ·)

/-- Make the writes of OUT that wait: one here once its words need not wait (R401, R506), one elsewhere as a request of its own. -/
def State.collPut (s : State) (c : Core) (tag : Nat) (p : CollPut) : State :=
  if p.got.isSome then s
  else if s.isHere p.addr then
    let l := piecesOf (localOf p.addr) p.data.length
    let w := s.anyWaits (.unit c 14) l true
    if w.1 then w.2
    else
      let r := w.2.wrFull 14 p.addr p.data
      (r.2.cohDone (.unit c 14) (l.map (fun q => q.1 / 64))).answer (.coll c tag p.addr true) (if r.1 = 0 then .data 0 else .failed r.1 0)
  else s.farAsk (.coll c tag p.addr true) (BitVec.ofNat 64 p.addr) (some p.data)
/-- Take in what has become of a write: its bytes are written (R486), or its ring fails with the reason, which R307 numbers, and names
this device (DESIGN CHOICE: R484 names no such failure). -/
def State.collPutEnd (s : State) (c : Core) (tag : Nat) (p : CollPut) : State :=
  match s.collOf c tag, p.got with
  | some x, some (.data _) => s.setColl c { x with puts := x.puts.filter (fun q => q.addr != p.addr), bytes := x.bytes + p.data.length }
  | some x, some (.failed reason link) =>
    (s.setColl c { x with puts := x.puts.filter (fun q => q.addr != p.addr) }).ringFail c tag p.ring reason s.devId.toNat link
  | _, _ => s
def State.collPump (s : State) (c : Core) (tag : Nat) : State :=
  let puts (s : State) : List CollPut := ((s.collOf c tag).map (·.puts)).getD []
  let s := (puts s).foldl (fun s p => s.collPut c tag p) s
  (puts s).foldl (fun s p => s.collPutEnd c tag p) s

/-- Does a word of IN still have to wait? One elsewhere is asked for. -/
def State.collAsk (s : State) (c : Core) (x : CollSt) (a : Nat) : Bool × State :=
  if s.isHere a then s.wordWaits (.unit c 14) (localOf a) false
  else match findGot a x.reads with
    | some (.waiting _ _) => (true, s)
    | some _ => (false, s)
    | none =>
      let s := s.farAsk (.coll c x.tag a false) (BitVec.ofNat 64 a) none
      (((s.collOf c x.tag).bind (fun y => findGot a y.reads)).any (fun g => match g with
        | .waiting _ _ => true
        | _ => false) || ((s.collOf c x.tag).bind (fun y => findGot a y.reads)).isNone, s)
/-- A word of IN as it has come: the reason of its failure, or its value. -/
def State.collWord (s : State) (x : CollSt) (a : Nat) : Nat × Nat :=
  if s.isHere a then (0, s.wordAt (localOf a))
  else match findGot a x.reads with
    | some (.data v) => (0, v.toNat)
    | some (.failed r _) => (r, 0)
    | _ => (0, 0)

/-- Failed hops that were met before the collective began (R471, R485). -/
def State.collLate (s : State) (c : Core) (tag : Nat) (n : CollNotice) : State :=
  match s.collOf c tag with
  | none => s
  | some x =>
    if n.own then s.ringFail c tag n.ring n.reason n.dev n.link
    else
      match x.rings[n.ring]? with
      | none => s
      | some g =>
        if g.noticed || !(Cd.runs x.desc n.ring) then s
        else
          let done := x.ringDone n.ring
          let y := x.setRing n.ring (fun g => if done then { g with noticed := true }
            else { g with failed := true, reason := n.reason, dev := n.dev, link := n.link, noticed := true })
          (s.setColl c y).sendNotices c y n.ring n.dev n.link

/-- Is a packet one of a collective on core c? -/
def collMine (c : Core) (tag : Nat) (p : Pkt) : Bool := let m := CollMsg.ofBody p.body; m.tag == tag && m.core == c.val
/-- Once IN has been read whole (R483) the rings start, and the packets and notices that came early are taken (R482, R485); those of
an earlier run of the same TAG are dropped (DESIGN CHOICE: they belong to a collective that has ended). A word of IN that is not delivered
fails every ring with its reason (DESIGN CHOICE: R484 names no such failure). -/
def State.collBegin (s : State) (c : Core) (x : CollSt) : State :=
  let d := x.desc
  let ws := wordsAt (Cd.inp d) (Cd.size d)
  let rd := (s.cohDone (.unit c 14) (ws.map (fun a => localOf a / 64))).readWords 14 (ws.filter s.isHere)
  let vs := ws.map (s.collWord x)
  let why := if rd.1 ≠ 0 then rd.1 else ((vs.map (·.1)).find? (· != 0)).getD 0
  let y := { x with reading := false, reads := [], input := (((wordBytes (vs.map (·.2))).drop (Cd.inp d % 64)).take (Cd.size d)) }
  let s := rd.2.setColl c y
  let s := ((List.range (Cd.rings d)).filter (fun r => Cd.runs d r && !((y.rings[r]?).any (·.failed)))).foldl (fun s r =>
    if why = 0 then s.ringStart c y r else s.ringFail c y.tag r why s.devId.toNat 0) s
  let mine (p : Pkt) : Bool := collMine c y.tag p && decide ((CollMsg.ofBody p.body).pitch ≤ y.pitch)
  let early := s.bv.early.filter (fun p => mine p && (CollMsg.ofBody p.body).pitch == y.pitch)
  let notes := (s.core c).notices.filter (fun n => n.tag == y.tag && n.pitch == y.pitch)
  let s := { s with bv := { s.bv with early := s.bv.early.filter (fun p => !(mine p)) } }
  let s := s.onCore c (fun k => { k with notices := k.notices.filter (fun n => !(n.tag == y.tag && decide (n.pitch ≤ y.pitch))) })
  let s := early.foldl (fun s p => s.collTake c (.ofBody p.body)) s
  notes.foldl (fun s n => s.collLate c y.tag n) s

/-- A collective goes on: it reads IN, or makes its writes. -/
def State.collGo (s : State) (c : Core) (tag : Nat) : State :=
  match s.collOf c tag with
  | none => s
  | some x =>
    if x.reading then
      let r := (wordsAt (Cd.inp x.desc) (Cd.size x.desc)).foldl (fun (r : Bool × State) a =>
        let u := r.2.collAsk c x a
        (r.1 || u.1, u.2)) (false, s)
      if r.1 then r.2 else (match r.2.collOf c tag with
        | some y => (r.2.collBegin c y).collPump c tag
        | none => r.2)
    else s.collPump c tag
/-- Every collective goes on, after an event that others wait for. -/
def State.collAll (s : State) : State :=
  (List.finRange 48).foldl (fun s c => (s.core c).coll.foldl (fun s x => s.collGo c x.tag) s) s

/-- A COLL entry fires on a core (R478): the descriptor at pantry word `w`. A descriptor that is not delivered starts nothing (R613). -/
def State.collStart (s : State) (c : Core) (w : Nat) (flag : Option Nat) : State :=
  let a := pantryBase c + 64 * w
  let d : BitVec 1024 := BitVec.ofNat 1024 (s.wordAt a + 2 ^ 512 * s.wordAt (a + 64))
  let rd := s.readWords 14 [(s.full a).toNat, (s.full (a + 64)).toNat]
  if rd.1 ≠ 0 then rd.2.readFault c else
  let s := rd.2
  let ring : CollRing := ⟨0, false, 0, 0, 0, false, s.tb.time.toNat⟩
  let x : CollSt := { desc := d, wrap := (s.numctl c).intWrap, flag := flag, rings := List.replicate (Cd.rings d) ring, input := [], bytes := 0
                      pitch := s.tb.pitch, reading := true, reads := [], puts := [] }
  (s.onCore c (fun k => { k with coll := k.coll ++ [x] })).collGo c (Cd.tag d)

/-- A COLL packet in SCHED arrives (R482): one that comes before its collective is ready for it waits; one of a run that has ended is
not used. -/
def State.collPkt (s : State) (p : Pkt) : State :=
  let m := CollMsg.ofBody p.body
  let early (s : State) : State := { s with bv := { s.bv with early := s.bv.early ++ [p] } }
  match coreOf? m.core with
  | none => s
  | some c =>
    match s.collOf c m.tag with
    | some x =>
      if m.pitch < x.pitch then s
      else if m.pitch = x.pitch ∧ !x.reading then (s.collTake c m).collPump c m.tag
      else early s
    | none => if (s.core c).collDone.any (fun x => x.tag == m.tag && decide (m.pitch ≤ x.pitch)) then s else early s

/-- Does link l still hold flits of a ring (R484)? -/
def State.ringHeld (s : State) (c : Core) (x : CollSt) (r : Nat) : Bool :=
  match linkOf? (Cd.outLink x.desc r) with
  | none => false
  | some l =>
    let k := s.link l
    (k.txq.filterMap (·.pkt) ++ k.replay.filterMap (·.pkt)).any (fun p => p.ptype == 5 && p.vc == 0 && p.src == s.devId
      && collMine c x.tag p && (CollMsg.ofBody p.body).ring == r && (CollMsg.ofBody p.body).pitch == x.pitch)

/-- A link has left UP or DEGRADED: the hops of rings that send on it and are not done, or whose flits it held in the state before, fail
(R484). -/
def State.collLinkFail (old s : State) (l : Link) : State :=
  (List.finRange 48).foldl (fun s c => (s.core c).coll.foldl (fun s x =>
    ((List.range (Cd.rings x.desc)).filter (fun r => Cd.runs x.desc r && Cd.outLink x.desc r == l.val)).foldl (fun s r =>
      match s.collOf c x.tag with
      | some y => if (y.rings[r]?).any (fun g => !g.failed) && (!(y.ringDone r) || old.ringHeld c x r)
          then s.hopFail c y r 2 s.devId.toNat l.val else s
      | none => s) s) s) s

/-- A SCHED packet of which R471 discarded a flit at link l: the hop that carried it fails with reason 3, named by this device and its
IN_LINK (R484); of a token dispatch it is reported (R486). `head` is the packet's beginning. -/
def State.cutFail (s : State) (l : Link) (head : List Byte) : State :=
  match pktParse 0 head with
  | none => s
  | some p =>
    if p.dest ≠ s.devId then s
    else if p.ptype = 6 then s.xdFail l.val
    else if p.ptype ≠ 5 then s
    else
      let m := CollMsg.ofBody p.body
      match coreOf? m.core with
      | none => s
      | some c =>
        match s.collOf c m.tag with
        | some x => if x.pitch = m.pitch then s.ringFail c m.tag m.ring 3 s.devId.toNat l.val else s
        | none => s.onCore c (fun k => { k with notices := k.notices ++ [⟨m.tag, m.pitch, m.ring, true, 3, s.devId.toNat, l.val⟩] })

/-- COLL_FAIL_NOTICE (R485): for a collective that runs here, for one that has ended here, which passes the notice on, or for one that has
not begun, which keeps it. -/
def execCollFailNotice (c : Core) (coll : CollId) (ring : Fin 8) (dev : BitVec 16) (link : BitVec 5) (s : State) :
    Host.Outcome State Fault Refusal := s.live <|
  let tag := coll.tag
  let pitch := coll.pitch
  let body := bytesOf 2 tag.toNat ++ bytesOf 6 pitch.toNat ++ bytesOf 1 ring.val ++ bytesOf 1 c.val ++ bytesOf 2 dev.toNat ++ bytesOf 1 link.toNat
  let s := { s with bv := { s.bv with arrived := s.bv.arrived.filter (fun p => !(p.ptype == 5 && p.vc != 0 && p.body == body)) } }
  let n : CollNotice := ⟨tag.toNat, pitch.toNat, ring.val, false, 2, dev.toNat, link.toNat⟩
  let now := (s.core c).coll.find? (fun x => x.tag == tag.toNat && x.pitch == pitch.toNat)
  let old := (s.core c).collDone.find? (fun x => x.tag == tag.toNat && decide (pitch.toNat ≤ x.pitch))
  .next (match now, old with
    | some _, _ => s.collLate c tag.toNat n
    | none, some x =>
      if x.pitch = pitch.toNat ∧ Cd.runs x.desc ring.val ∧ (x.rings[ring.val]?).any (fun g => !g.noticed) then
        let y := x.setRing ring.val (fun g => { g with noticed := true })
        (s.onCore c (fun k => { k with collDone := k.collDone.map (fun z => if z.tag = x.tag then y else z) })).sendNotices c y ring.val dev.toNat
          link.toNat
      else s
    | none, none => s.onCore c (fun k => { k with notices := k.notices ++ [n] }))

/-- Has a ring waited for a flit for COLL_TIMEOUT µs (R484)? -/
def CollSt.ringLate (x : CollSt) (r now : Nat) : Bool :=
  match x.rings[r]? with
  | some g => !(x.ringDone r) && decide (g.since + 1000 * Cd.timeout x.desc ≤ now)
  | none => false

/-- Has a write of OUT for a ring waited for its acknowledgement for COLL_TIMEOUT µs? -/
def CollSt.putLate (x : CollSt) (r now : Nat) : Bool :=
  x.puts.any (fun p => p.ring == r && (match p.got with
    | some (.waiting t _) => decide (t + 1000 * Cd.timeout x.desc ≤ now)
    | _ => false))

/-- When the first of a core's collectives has waited for COLL_TIMEOUT µs on ring r: for a flit, or for the acknowledgement of a write. -/
def State.collDue (s : State) (c : Core) (r : Nat) : Option Nat :=
  let ts (x : CollSt) : List Nat :=
    let d := 1000 * Cd.timeout x.desc
    (match x.rings[r]? with
     | some g => if x.ringDone r then [] else [g.since + d]
     | none => []) ++ (x.puts.filter (fun p => p.ring == r)).filterMap (fun p => match p.got with
       | some (.waiting t _) => some (t + d)
       | _ => none)
  ((s.core c).coll.flatMap ts).foldl (fun b t => some (min t (b.getD t))) none

/-- COLL_TIMEOUT (R484): no flit of the ring for COLL_TIMEOUT µs. A write of OUT elsewhere that is not acknowledged in that time fails the
ring too (DESIGN CHOICE: the spec gives such a write no limit). -/
def execCollTimeout (c : Core) (ring : Fin 8) (s : State) : Host.Outcome State Fault Refusal := s.live <|
  match (s.collDue c ring.val).bind s.reachBy with
  | none => .next s
  | some s =>
    match (s.core c).coll.find? (fun x => x.ringLate ring.val s.tb.time.toNat) with
    | some x => .next (s.ringFail c x.tag ring.val 5 s.devId.toNat (Cd.inLink x.desc ring.val))
    | none => match (s.core c).coll.find? (fun x => x.putLate ring.val s.tb.time.toNat) with
      | some x =>
        let y := { x with puts := x.puts.filter (fun p => p.ring != ring.val) }
        if (x.rings[ring.val]?).any (·.failed) then .next (s.setColl c y)
        else .next (s.hopFail c y ring.val 5 s.devId.toNat (Cd.inLink x.desc ring.val))
      | none => .next s

/-- Did a ring that this rank runs fail? -/
def CollSt.ringBad (x : CollSt) (r : Nat) : Bool :=
  Cd.runs x.desc r && (match x.rings[r]? with
    | some g => g.failed
    | none => false)
/-- The rings that this rank runs, and those of them that failed. -/
def CollSt.run (x : CollSt) : List Nat := (List.range (Cd.rings x.desc)).filter (Cd.runs x.desc)
def CollSt.bad (x : CollSt) : List Nat := x.run.filter x.ringBad
/-- The status of a collective that has ended (R486): OK, PARTIAL or FAILED. -/
def CollSt.status (x : CollSt) : Nat := if x.bad.isEmpty then 0 else if x.bad.length = x.run.length then 2 else 1
/-- The failure that its record names: that of its lowest failed ring. -/
def CollSt.why (x : CollSt) : CollRing := (x.bad.head?.bind (fun r => x.rings[r]?)).getD ⟨0, false, 0, 0, 0, false, 0⟩
/-- Its completion record (R486, Table 10-5). -/
def CollSt.record (x : CollSt) (c : Core) (time : W64) : List Byte :=
  let bits (l : List Nat) : W64 := BitVec.ofNat 64 ((l.map (fun r => 2 ^ r)).sum)
  partRecord (Cd.tag x.desc) x.status false (Cd.rings x.desc) c.val 0 x.why.reason (x.bad.head?.getD 0)
    (bits (x.run.filter (fun r => !(x.ringBad r)))) (bits x.bad) x.bytes time 0 0xFFFFFFFF x.why.dev x.why.link

/-- A collective ends: its record, its flag, and LINK_COLL where a ring failed (R486). -/
def State.collFinish (s : State) (c : Core) (x : CollSt) : State :=
  let r := x.record c s.tb.time
  let s := s.onCore c (fun k => { k with coll := k.coll.filter (fun y => y.tag != x.tag)
                                         collDone := k.collDone.filter (fun y => y.tag != x.tag) ++ [{ x with input := [] }] })
  let s := { s with bv := { s.bv with early := s.bv.early.filter (fun p => !(collMine c x.tag p && decide ((CollMsg.ofBody p.body).pitch ≤ x.pitch))) } }
  let s := if s.inOwnPantry c (Cd.record x.desc) 64 then s.put 14 (Cd.record x.desc) r else s
  let s := match x.flag with
    | some f => s.setFlag c f true
    | none => s
  if x.status = 0 then s else (s.bumpLo (rBvCnt 1) 1).raise fLinkColl 13 0 [x.tag, x.why.dev, x.why.link]

/-- Has every ring ended, every write of OUT been acknowledged, and has no link flits of it left? -/
def State.collEnded (s : State) (c : Core) (x : CollSt) : Bool :=
  (!x.reading || x.run.all (fun r => (x.rings[r]?).any (·.failed))) && x.puts.isEmpty
    && (List.range (Cd.rings x.desc)).all (fun r => x.ringDone r && ((x.rings[r]?).any (·.failed) || !(s.ringHeld c x r)))

/-- COLL_END (R486): once the collective has ended, the record and then the flag. -/
def execCollEnd (c : Core) (s : State) : Host.Outcome State Fault Refusal := s.live <|
  match (s.core c).coll.find? (s.collEnded c) with
  | none => .next s
  | some x => .next (s.collFinish c x)

end Sys2Proof.Machine
end

