-- ==== Sys2Proof/Machine/Transc.lean ====
section
/-! DEFINITION. The lane operations of the vector unit (R218, R224, R225): FP32 words in, FP32 words out. The hardware
functions EXP2, LOG2, RECIP and RSQRT give a free value within the error bound of Table 8-2. -/
namespace Sys2Proof.Machine

def one32 : W32 := 0x3F800000
def negInf32 : W32 := 0xFF800000
def posInf32 : W32 := 0x7F800000
def nan32 : W32 := 0x7FC00000
/-- log2(e), 0.7978846 and 0.044715 rounded to FP32. -/
def log2e32 : W32 := 0x3FB8AA3B
def geluA32 : W32 := 0x3F4C422A
def geluB32 : W32 := 0x3D372713

def f32neg (a : W32) : W32 := toF32 .rne (f32 a).neg
def f32abs (a : W32) : W32 := toF32 .rne (f32 a).abs
def f32sub (a b : W32) : W32 := toF32 .rne ((f32 a).add (f32 b).neg)

/-- Maximum and minimum: NaN gives the canonical NaN, the first operand stays where the two compare equal (R228). -/
def f32max (a b : W32) : W32 :=
  if (f32 a).isNan || (f32 b).isNan then nan32 else if (f32 a).lt (f32 b) then toF32 .rne (f32 b) else toF32 .rne (f32 a)
def f32min (a b : W32) : W32 :=
  if (f32 a).isNan || (f32 b).isNan then nan32 else if (f32 b).lt (f32 a) then toF32 .rne (f32 b) else toF32 .rne (f32 a)

/-- Is b greater than +0? -/
def f32pos (b : W32) : Bool := (Fv.fin false 0 0).lt (f32 b)
/-- Is a pattern −infinity, +infinity? -/
def isNegInf (a : W32) : Bool := a == negInf32
def isPosInf (a : W32) : Bool := a == posInf32

/-- A quotient of magnitudes as a value whose rounding to FP32 is that of the exact quotient: extra bits and a sticky bit. -/
def quotVal (n : Bool) (a : Nat) (ea : Int) (b : Nat) (eb : Int) : Fv :=
  let k := log2 b + 64
  let q := a * 2 ^ k / b
  let sticky := if a * 2 ^ k % b = 0 then 0 else 1
  .fin n (2 * q + sticky) (ea - eb - k - 1)

/-- Division, rounded once. -/
def f32div (a b : W32) : W32 :=
  toF32 .rne (match f32 a, f32 b with
    | .nan, _ => .nan
    | _, .nan => .nan
    | .inf _, .inf _ => .nan
    | .inf n, .fin k _ _ => .inf (n != k)
    | .fin n _ _, .inf k => .fin (n != k) 0 0
    | .fin n x e, .fin k y g =>
      if y = 0 then (if x = 0 then .nan else .inf (n != k)) else quotVal (n != k) x e y g)

/-- Integer square root: bits from 2^i down. -/
def isqrt (n : Nat) : Nat → Nat → Nat
  | 0, r => r
  | i + 1, r => if (r + 2 ^ i) * (r + 2 ^ i) ≤ n then isqrt n i (r + 2 ^ i) else isqrt n i r

/-- A result at most 1 ulp from the exact value `v`, which is given with enough bits and a sticky bit to tell on which side of a
pattern it lies: one of the two patterns about it; where it is itself a pattern, that one or a neighbour; and the power of two that
lies two patterns above the lower one, where its ulp is twice theirs (R224). An infinity and a zero stay (Table 8-3). -/
def hwNear (fid : Nat) (x : W32) (v : Fv) : W32 :=
  let r := toF32 .rne v
  let mag : Nat := r.toNat % 2 ^ 31
  if mag = 0 ∨ 0x7F800000 ≤ mag then r
  else
    let o := Config.hwOffset fid x
    let below : Nat := if v.abs.lt (f32 r).abs then mag - 1 else mag
    let m : Int :=
      if 2 ^ 23 ≤ below ∧ below % 2 ^ 23 = 2 ^ 23 - 2 ∧ o / 6 % 2 = 1 then below + 2
      else if (f32 r).abs.lt v.abs then mag + o % 2 else if v.abs.lt (f32 r).abs then mag - o % 2 else (mag : Int) + (o % 3 - 1)
    BitVec.ofNat 32 ((r.toNat / 2 ^ 31) * 2 ^ 31 + min m.toNat 0x7F7FFFFF)

/-- 2^(2^-i) for i = 1 to 72, in units of 2^-126. -/
def exp2Roots : List Nat :=
  [120307984584002255772516886238812528463, 101166552963086648562748325914308868986, 92770138104229969497563536105904709191,
   88836988599470374367423455078235398360, 86933395123445232202203881353308079615, 85996949738172564171768559522682662778,
   85532516630937411297970388886411771535, 85301241503098762865897326549279384912, 85185838553084980536099371820841163238,
   85128195638972474702214890917752006659, 85099388810581749661846268168274475383, 85084989052108927188938164876622489033,
   85077790086622727983717703340771270415, 85074190832294632094132060897083537900, 85072391262231516639329921011144083465,
   85071491491474839743616328766080917758, 85071041609665177468203411266541532138, 85070816669652509869227752632443334129] ++
  [85070704199869216266378513330723255386, 85070647965033329428108240629805630936, 85070619847629325989011041772431934857,
   85070605788930809263128096394267685514, 85070598759582422148435058479522685096, 85070595244908446403129650876700903167,
   85070593487571512983484600246751816891, 85070592608903059886913660141258448094, 85070592169568836741941045380459816897,
   85070591949901726020282946696744784190, 85070591840068170872160948888270500360, 85070591785151393351276712787280686995,
   85070591757693004604128785427585302515, 85070591743963810233878369419185952084, 85070591737099213049584048332691919978,
   85070591733666914457644609518851759410, 85070591731950765161726820544280948586, 85070591731092690513780908665082554987] ++
  [85070591730663653189811198377505072947, 85070591730449134527827154646721755843, 85070591730341875196835335634581452673,
   85070591730288245531339476841824139859, 85070591730261430698591560123773693135, 85070591730248023282217604934330522193,
   85070591730241319574030628132004449826, 85070591730237967719937139928940291919, 85070591730236291792890395876932932535,
   85070591730235453829367023863310432735, 85070591730235034847605337859594477808, 85070591730234825356724494858510324088,
   85070591730234720611284073358161703164, 85070591730234668238563862608035756686, 85070591730234642052203757232984874443,
   85070591730234628959023704545462456070, 85070591730234622412433678201702002571, 85070591730234619139138665029821964743] ++
  [85070591730234617502491158443881993060, 85070591730234616684167405150912019026, 85070591730234616275005528504427034961,
   85070591730234616070424590181184543666, 85070591730234615968134121019563298203, 85070591730234615916988886438752675518,
   85070591730234615891416269148347364187, 85070591730234615878629960503144708524, 85070591730234615872236806180543380693,
   85070591730234615869040229019242716778, 85070591730234615867441940438592384820, 85070591730234615866642796148267218841,
   85070591730234615866243224003104635852, 85070591730234615866043437930523344357, 85070591730234615865943544894232698610,
   85070591730234615865893598376087375736, 85070591730234615865868625117014714299, 85070591730234615865856138487478383581]

/-- 2^f for f in units of 2^-72, in units of 2^-126. -/
def exp2Frac (f : Nat) : Nat :=
  (exp2Roots.zip (List.range 72)).foldl (fun a p => if f.testBit (71 - p.2) then a * p.1 / 2 ^ 126 else a) (2 ^ 126)

/-- 2^v: exact where v is an integer, else bits below and a sticky bit. -/
def exp2Val (v : Fv) : Fv :=
  match v with
  | .nan => .nan
  | .inf n => if n then .fin false 0 0 else .inf false
  | .fin n m e =>
    if m = 0 then .fin false 1 0
    else if 10 ≤ magLog2 m e then (if n then .fin false 0 0 else .inf false)
    else
      let k : Nat := (-(e + 72)).toNat
      let mag : Nat := if 0 ≤ e + 72 then m * 2 ^ (e + 72).toNat else m / 2 ^ k
      let rem : Bool := decide (e + 72 < 0) && m % 2 ^ k != 0
      let x : Int := if n then (if rem then -(mag : Int) - 1 else -(mag : Int)) else mag
      let sticky := if x % 2 ^ 72 = 0 && !rem then 0 else 1
      .fin false (2 * exp2Frac (x % 2 ^ 72).toNat + sticky) (x / 2 ^ 72 - 127)

/-- EXP2 (Tables 8-2, 8-3). -/
def hwExp2 (x : W32) : W32 := if (f32 x).isZero then one32 else hwNear 0 x (exp2Val (f32 x))

/-- Bits of the base-2 logarithm of y / 2^190 in [1, 2), n of them. -/
def log2Bits : Nat → Nat → Nat
  | 0, _ => 0
  | n + 1, y =>
    let z := y * y / 2 ^ 190
    if 2 ^ 191 ≤ z then 2 ^ n + log2Bits n (z / 2) else log2Bits n z

/-- LOG2 (Tables 8-2, 8-3): at most 1 ulp, or 2^-22 absolute for inputs in [0.5, 2]. -/
def hwLog2 (x : W32) : W32 :=
  match f32 x with
  | .nan => nan32
  | .inf n => if n then nan32 else posInf32
  | .fin n m e =>
    if m = 0 then negInf32
    else if n then nan32
    else
      let l := log2 m
      let y := m * 2 ^ (190 - l)
      let sticky : Int := if m = 2 ^ l then 0 else 1
      let v : Int := 2 * (((l : Int) + e) * 2 ^ 80 + (log2Bits 80 y : Nat)) + sticky
      if -(2 ^ 81) ≤ v ∧ v ≤ 2 ^ 81 then
        let w := toF32 .rne (Fv.ofInt (v + (Config.hwOffset 1 x % (2 ^ 60 + 1) - 2 ^ 59)) (-81))
        -- a pattern that rounding took beyond the bound is not a result
        if ((f32 w).add (Fv.ofInt v (-81)).neg).abs.lt (.fin false 1 (-22)) then w else toF32 .rne (Fv.ofInt v (-81))
      else hwNear 1 x (Fv.ofInt v (-81))

/-- RECIP (Tables 8-2, 8-3). -/
def hwRecip (x : W32) : W32 :=
  match f32 x with
  | .nan => nan32
  | .inf n => if n then 0x80000000 else 0
  | .fin n m e => if m = 0 then (if n then negInf32 else posInf32) else hwNear 2 x (quotVal n 1 0 m e)

/-- RSQRT (Tables 8-2, 8-3). -/
def hwRsqrt (x : W32) : W32 :=
  match f32 x with
  | .nan => nan32
  | .inf n => if n then nan32 else 0
  | .fin n m e =>
    if m = 0 then (if n then negInf32 else posInf32)
    else if n then nan32
    else
      let m' := if e % 2 = 0 then m else 2 * m
      let e' := if e % 2 = 0 then e else e - 1
      let k := log2 m' / 2 + 40
      let q := 2 ^ (2 * k) / m'
      let r := isqrt q 48 0
      let sticky := if r * r = q ∧ 2 ^ (2 * k) % m' = 0 then 0 else 1
      hwNear 3 x (.fin false (2 * r + sticky) (-(k : Int) - e' / 2 - 1))

/-- The composed functions of Table 8-2 (R225). -/
def fExp (x : W32) : W32 := hwExp2 (f32mul x log2e32)
def fSigmoid (x : W32) : W32 := hwRecip (f32add one32 (hwExp2 (f32mul (f32neg x) log2e32)))
def fTanh (x : W32) : W32 :=
  f32sub one32 (f32mul 0x40000000 (hwRecip (f32add (hwExp2 (f32mul (f32mul 0x40000000 x) log2e32)) one32)))
def fSilu (x : W32) : W32 := f32mul x (fSigmoid x)
def fGelu (x : W32) : W32 :=
  let x3 := f32mul (f32mul x x) x
  f32mul (f32mul 0x3F000000 x) (f32add one32 (fTanh (f32mul geluA32 (f32add x (f32mul geluB32 x3)))))
def fRelu (x : W32) : W32 := f32max x 0

end Sys2Proof.Machine
end

