-- ==== Sys2Proof/Machine/Vector.lean ====
section
/-! DEFINITION. The vector unit (spec/08_vector_unit.md): operands, elementwise functions, reductions, row operations, online
softmax, outputs, amax and monitor capture, and the vector steps of Table 11-9. -/
namespace Sys2Proof.Machine

/-! ### Fields of a vector step (R332) -/

def VecJob.func (j : VecJob) : Nat := W.fn j.w 0 6
def VecJob.ak (j : VecJob) : Nat := W.fn j.w 6 2
def VecJob.bk (j : VecJob) : Nat := W.fn j.w 8 2
def VecJob.dk (j : VecJob) : Bool := W.fnb j.w 10
def VecJob.sr (j : VecJob) : Bool := W.fnb j.w 11
def VecJob.imm (j : VecJob) : W32 := W.fimm j.w
def VecJob.expOf (j : VecJob) (i : Nat) : Int := nth 0 i j.exps
/-- Rows and row length of the step: the destination's (R333). -/
def VecJob.rows (j : VecJob) : Nat := if j.dk then 1 else D.rows j.tc
def VecJob.len (j : VecJob) : Nat := if j.dk then 64 else D.cols j.tc
/-- The row length of operand A where a reduction reads it. -/
def VecJob.srcLen (j : VecJob) : Nat :=
  if j.ak = 0 then (if W.fnb j.w 30 then D.rows j.ta else D.cols j.ta) else 64

/-! ### Operands (R219, R220, R226, R333) -/

/-- One input element: its 32 bits as an INT32 operation takes them, and its value as a float operation takes it. -/
structure VIn where
  bits : W32
  v    : Fv
deriving DecidableEq, Repr

def VIn.ofWord (w : W32) : VIn := ⟨w, f32 w⟩

/-- An element of the core's own accumulator window, row r and element e of a descriptor, both clamped (R268, R333). -/
def State.accIn (s : State) (d : Desc) (texp : Int) (r e : Nat) : VIn :=
  let w := BitVec.ofNat 32 (natOf (s.rdBytes
    (localOf (D.base d) + 64 * D.pitch d * clampTo r (D.rows d) + 4 * clampTo e (D.cols d)) 4))
  ⟨w, (if D.ety d = some tI32 then Fv.ofInt w.toInt 0 else f32 w).scaleBy (-texp)⟩

/-- Element (r, e) of an operand of a kind. -/
def State.vIn (s : State) (c : Core) (kind : Nat) (d : Desc) (texp : Int) (n : Nat) (x : W64) (imm : W32) (turn : Bool)
    (r e : Nat) : VIn :=
  match kind with
  | 0 =>
    let nrows := if turn then D.cols d else D.rows d
    let r := if nrows = 1 then 0 else r
    let p := if turn then (e, r) else (r, e)
    if s.ownAcc c d then s.accIn d texp p.1 p.2
    else
      let v := s.valAt d ((D.ety d).getD tF32) texp p.1 p.2
      ⟨BitVec.ofInt 32 v.toInt, v⟩
  | 1 => .ofWord ((s.vec c).w.get resDefault (64 * n + e % 64))
  | 2 => .ofWord (BitVec.ofNat 32 (fld x 0 32))
  | _ => .ofWord imm

def State.inA (s : State) (c : Core) (j : VecJob) (r e : Nat) : VIn :=
  s.vIn c j.ak j.ta (j.expOf 0) (W.ta j.w) j.xa j.imm (W.fnb j.w 30) r e
def State.inB (s : State) (c : Core) (j : VecJob) (r e : Nat) : VIn :=
  s.vIn c j.bk j.tb (j.expOf 1) (W.tb j.w) j.xb j.imm false r e
/-- The old content of the destination (FMA, SELECT, OSM_RESCALE). -/
def State.inD (s : State) (c : Core) (j : VecJob) (r e : Nat) : VIn :=
  s.vIn c (if j.dk then 1 else 0) j.tc (j.expOf 2) (W.tc j.w) 0 0 false (if j.rows = 1 then 0 else r) e

/-- An input as an FP32 word: rounded where its type holds more (R226). -/
def VIn.f (x : VIn) : W32 := toF32 .rne x.v

/-! ### Elementwise functions (Table 8-2, R224 to R226, R333) -/

/-- The result of one element: none where the destination keeps what it holds; and how often SAT advances. -/
def vopElem (func : Nat) (nc : NumCtl) (imm : W32) (a b d : VIn) : Option Fv × Nat :=
  let fl (w : W32) : Option Fv × Nat := (some (f32 w), 0)
  match func with
  | 0 => fl (f32add a.f b.f)
  | 1 => fl (f32sub a.f b.f)
  | 2 => fl (f32mul a.f b.f)
  | 3 => fl (f32fma a.f b.f d.f)
  | 4 => fl (f32max a.f b.f)
  | 5 => fl (f32min a.f b.f)
  | 6 => fl (f32abs a.f)
  | 7 => fl (f32neg a.f)
  | 8 => if f32pos b.f then fl a.f else (none, 0)
  | 9 => fl (hwExp2 a.f)
  | 10 => fl (hwLog2 a.f)
  | 11 => fl (hwRecip a.f)
  | 12 => fl (hwRsqrt a.f)
  | 13 => fl (fExp a.f)
  | 14 => fl (fSigmoid a.f)
  | 15 => fl (fTanh a.f)
  | 16 => fl (fSilu a.f)
  | 17 => fl (fGelu a.f)
  | 18 => fl (fRelu a.f)
  | 19 => let r := i32add nc a.bits b.bits.toInt; (some (Fv.ofInt r.1.toInt 0), r.2)
  | 20 => let r := i32add nc 0 (a.bits.toInt * b.bits.toInt); (some (Fv.ofInt r.1.toInt 0), r.2)
  | 21 => fl (f32fma (toF32 .rne (Fv.ofInt a.bits.toInt 0)) b.f imm)
  | _ => fl (f32add a.f b.f)

/-- Does a step use operand B as a value? -/
def usesB (op func : Nat) : Bool :=
  match op with
  | 0x40 => [0, 1, 2, 3, 4, 5, 8, 19, 20, 21, 22].contains func
  | 0x41 => func == 1
  | 0x42 => decide (3 ≤ func)
  | _ => false

/-! ### Reductions (R227, R228) -/

/-- Sum in the lanes and then through the tree, each step one rounding; `add` is the lane add. -/
def laneReduce (f : W32 → Nat → W32) (n : Nat) : W32 :=
  let lane (k : Nat) : W32 := (List.range (ceilDiv (n - k) 64)).foldl (fun a i => f a (64 * i + k)) 0
  f32tree 6 ((List.range 64).map lane)

/-- Σ x (R227). -/
def sumReduce (l : List W32) : W32 := laneReduce (fun a i => f32add a (nth 0 i l)) l.length
/-- Σ x·y by FMA (R227). -/
def dotReduce (l : List (W32 × W32)) : W32 := laneReduce (fun a i => let p := nth (0, 0) i l; f32fma p.1 p.2 a) l.length
/-- Maximum and minimum: of equal elements the one of lower index (R228). -/
def maxReduce : List W32 → W32
  | [] => negInf32
  | x :: l => l.foldl f32max (f32max x x)
def minReduce : List W32 → W32
  | [] => posInf32
  | x :: l => l.foldl f32min (f32min x x)

/-! ### Row operations (R230 to R237) -/

/-- The statistics of SOFTMAX (R231): one lane. -/
def smxLane (ts : List W32) : W32 × W32 :=
  ts.foldl (fun ms t =>
    if isNegInf t then ms
    else
      let e := hwExp2 (f32neg (f32abs (f32sub t ms.1)))
      if (f32 ms.1).lt (f32 t) then (t, f32fma ms.2 e one32) else (if (f32 t).isNan then nan32 else ms.1, f32add ms.2 e))
    (negInf32, 0)

/-- A node of the SOFTMAX tree. -/
def smxNode (x y : W32 × W32) : W32 × W32 :=
  let m := f32max x.1 y.1
  let w (v : W32) : W32 := if isNegInf v then 0 else hwExp2 (f32sub v m)
  (m, f32fma x.2 (w x.1) (f32mul y.2 (w y.1)))

def smxLevel : List (W32 × W32) → List (W32 × W32)
  | x :: y :: l => smxNode x y :: smxLevel l
  | l => l

/-- M and S of a row. -/
def smxStats (ts : List W32) : W32 × W32 :=
  let lanes := (List.range 64).map (fun k => smxLane ((List.range (ceilDiv (ts.length - k) 64)).map (fun i => nth 0 (64 * i + k) ts)))
  nth (negInf32, 0) 0 (Nat.repeat smxLevel 6 lanes)

/-- The outputs of SOFTMAX and whether every element was −infinity (R231, R233). -/
def smxRow (ts : List W32) : List W32 × Bool :=
  let ms := smxStats ts
  if isNegInf ms.1 then (ts.map (fun _ => 0), true)
  else if (f32 ms.1).isNan ∨ isPosInf ms.1 ∨ ts.any (fun t => (f32 t).isNan || isPosInf t) then (ts.map (fun _ => nan32), false)
  else
    let q := hwRecip ms.2
    (ts.map (fun t => f32mul (hwExp2 (f32sub t ms.1)) q), false)

/-- L as FP32. -/
def lenF (n : Nat) : W32 := toF32 .rne (Fv.ofInt n 0)

/-- μ and r of LAYERNORM (R234). -/
def lnStats (xs : List W32) (eps : W32) : W32 × W32 :=
  let x0 := nth 0 0 xs
  let ds := xs.map (fun x => f32sub x x0)
  let l := lenF xs.length
  let a := f32div (sumReduce ds) l
  let q := f32div (dotReduce (ds.map (fun d => (d, d)))) l
  let v := f32max (f32sub q (f32mul a a)) 0
  (f32add x0 a, hwRsqrt (f32add v eps))

/-- r of RMSNORM (R235). -/
def rmsStat (xs : List W32) (eps : W32) : W32 :=
  hwRsqrt (f32add (f32div (dotReduce (xs.map (fun x => (x, x)))) (lenF xs.length)) eps)

/-- What a row operation gives: outputs, additions to dγ and dβ as factors, and whether the row was empty. -/
structure RowOp where
  y     : List W32
  gam   : List (W32 × W32)
  bet   : List W32
  empty : Bool

/-- A row operation on a row x with its gradient dy, γ and β (R231 to R237). -/
def rowOp (func : Nat) (scale : W32) (xs dys gs bs : List W32) : RowOp :=
  let z := xs.zip (dys.zip gs)
  let mean (l : List W32) := f32div (sumReduce l) (lenF xs.length)
  let meanDot (l : List (W32 × W32)) := f32div (dotReduce l) (lenF xs.length)
  match func with
  | 0 => let r := smxRow xs; ⟨r.1, [], [], r.2⟩
  | 1 =>
    let st := lnStats xs scale
    ⟨(xs.zip (gs.zip bs)).map (fun p => f32fma (f32mul (f32sub p.1 st.1) st.2) p.2.1 p.2.2), [], [], false⟩
  | 2 =>
    let r := rmsStat xs scale
    ⟨(xs.zip gs).map (fun p => f32mul (f32mul p.1 r) p.2), [], [], false⟩
  | 3 =>
    let y := (smxRow xs).1
    let a := dotReduce (dys.zip y)
    ⟨(y.zip dys).map (fun p => f32mul (f32mul p.1 (f32sub p.2 a)) scale), [], [], false⟩
  | 4 =>
    let st := lnStats xs scale
    let ps := z.map (fun p => (f32mul (f32sub p.1 st.1) st.2, f32mul p.2.1 p.2.2))
    let a := mean (ps.map (·.2))
    let b := meanDot (ps.map (fun p => (p.2, p.1)))
    ⟨ps.map (fun p => f32mul st.2 (f32fma (f32neg p.1) b (f32sub p.2 a))), dys.zip (ps.map (·.1)), dys, false⟩
  | _ =>
    let r := rmsStat xs scale
    let ps := z.map (fun p => (f32mul p.1 r, f32mul p.2.1 p.2.2))
    let b := meanDot (ps.map (fun p => (p.2, p.1)))
    ⟨ps.map (fun p => f32mul r (f32fma (f32neg p.1) b p.2)), dys.zip (ps.map (·.1)), [], false⟩

/-! ### Capture (R243, R362) -/

/-- Inputs into an amax register. -/
def State.amaxIn (s : State) (c : Core) (n : Nat) (vs : List Fv) : State :=
  vs.foldl (fun s v =>
    let r := s.reg (rVecAmax c n)
    match v with
    | .nan => s.setReg (rVecAmax c n) (setFld r 32 1 1)
    | .inf _ => s.setReg (rVecAmax c n) (setFld (setFld r 33 1 1) 0 32 0x7F800000)
    | v =>
      let m := toF32 .rne v.abs
      if fld r 0 32 < m.toNat then s.setReg (rVecAmax c n) (setFld r 0 32 m.toNat) else s) s

/-- The unbiased exponent an element delivers: none for a zero (R362). -/
def expDelivered : Fv → Option Int
  | .fin _ m e => if m = 0 then none else some (magLog2 m e)
  | _ => some 128

/-- Deliver the exponents of inputs to a monitor whose source is VEXP (R624). -/
def State.monDeliver (s : State) (m : Nat) (vs : List Fv) : State :=
  if s.monSrc m = 1 then (vs.filterMap expDelivered).foldl (fun s x => s.monTake m x) s else s

/-- What a step's inputs of one row do to amax and monitor. -/
def State.capture (s : State) (c : Core) (j : VecJob) (vs : List Fv) : State :=
  let s := if W.fnb j.w 16 then s.amaxIn c (W.fn j.w 14 2) vs else s
  if W.fnb j.w 24 then s.monDeliver (monOfCore c (W.fn j.w 18 6)) vs else s

/-! ### Rows of a step -/

/-- What a row gives: values (none: keep), inputs met, SAT, and the state with records and counters. -/
structure RowOut where
  vals : List (Option Fv)
  ins  : List Fv
  sat  : Nat
  s    : State

/-- Is element e of row r masked by the LIMIT (R232)? -/
def VecJob.masked (j : VecJob) (r e : Nat) : Bool :=
  W.fnb j.w 25 && decide (j.xb.toInt + (if W.fnb j.w 26 then r else 0) < e)

/-- Is a step's result an INT32 value (R226)? -/
def VecJob.intOp (j : VecJob) : Bool := W.opcode j.w == 0x40 && (j.func == 19 || j.func == 20)

/-- RELU of the result before conversion (ACT, R332). -/
def actOf (on : Bool) (v : Fv) : Fv := if on && v.lt fvZero then fvZero else v

/-- An input as an integer step takes it (R226). -/
def VIn.int (x : VIn) : Fv := Fv.ofInt x.bits.toInt 0

/-- One row of VOP. -/
def State.rowVop (s : State) (c : Core) (j : VecJob) (r : Nat) : RowOut :=
  let es := (List.range j.len).map (fun e => (s.inA c j r e, s.inB c j r e, s.inD c j r e))
  let outs := es.map (fun e => vopElem j.func j.nc j.imm e.1 e.2.1 e.2.2)
  let ins := es.map (fun e => if j.intOp || j.func == 21 then e.1.int else e.1.v)
    ++ (if usesB 0x40 j.func then es.map (fun e => if j.intOp then e.2.1.int else e.2.1.v) else [])
    ++ (if j.func = 3 then es.map (·.2.2.v) else [])
  ⟨outs.map (fun o => o.1.map (actOf (W.fnb j.w 27))), ins, (outs.map (·.2)).sum, s⟩

/-- One row of VRED: element 0 alone is written (R333). -/
def State.rowVred (s : State) (c : Core) (j : VecJob) (r : Nat) : RowOut :=
  let n := j.srcLen
  let a := (List.range n).map (fun e => (s.inA c j r e).f)
  let b := (List.range n).map (fun e => (s.inB c j r e).f)
  let v := match j.func with
    | 0 => sumReduce a
    | 1 => dotReduce (a.zip b)
    | 2 => maxReduce a
    | _ => minReduce a
  let v := if W.fnb j.w 27 then fRelu v else v
  ⟨some (f32 v) :: List.replicate (j.len - 1) none, (a ++ (if j.func = 1 then b else [])).map f32, 0, s⟩

/-- Add a row of values into an FP32 vector in the pantry (R237). -/
def State.addVector (s : State) (c : Core) (d : Desc) (texp : Int) (f : W32 → Nat → W32) (n : Nat) : State :=
  let t := (D.ety d).getD tF32
  let old := (List.range n).map (fun e => toF32 .rne (s.elemOf d t texp 0 e))
  let new := (List.range n).map (fun e => (f32 (f (nth 0 e old) e)).scaleBy texp)
  let cv := convertRun ⟨false, false, false⟩ t false 0 new
  (s.writeRun c 8 false d t 0 (cv.elems.map some) (cv.scales.map some)).2

/-- One row of VROW. -/
def State.rowVrow (s : State) (c : Core) (j : VecJob) (r : Nat) : RowOut :=
  let n := j.len
  let smx := j.func = 0 ∨ j.func = 3
  let xs := (List.range n).map (fun e =>
    let x := (s.inA c j r e).f
    if j.masked r e then negInf32 else if smx then f32mul x j.imm else x)
  let dys := if 3 ≤ j.func then (List.range n).map (fun e => (s.inB c j r e).f) else []
  let par (on : Nat) (d : Desc) (x : Int) (dflt : W32) : List W32 := (List.range n).map (fun e =>
    if W.fnb j.w on then toF32 .rne (s.valAt d ((D.ety d).getD tF32) x 0 e) else dflt)
  let o := rowOp j.func j.imm xs dys (par 28 j.ta1 (j.expOf 3) one32) (par 29 j.ta2 (j.expOf 4) 0)
  let ins := ((List.range n).map (fun e => (s.inA c j r e).v)) ++ dys.map f32
  let s := if o.gam.isEmpty then s
    else s.addVector c j.tc1 (j.expOf 5) (fun a e => let p := nth (0, 0) e o.gam; f32fma p.1 p.2 a) n
  let s := if o.bet.isEmpty then s else s.addVector c j.tc2 (j.expOf 6) (fun a e => f32add a (nth 0 e o.bet)) n
  let s := if o.empty then s.bumpLo (rVecCnt0 c) 1 else s
  ⟨o.y.map (fun y => some (f32 (if W.fnb j.w 27 then fRelu y else y))), ins, 0, s⟩

/-- The state record of query row r (R238): the model takes it at the base of T(TB). -/
def VecJob.recAddr (j : VecJob) (r : Nat) : Nat := D.base j.tb + 16 * r
/-- Word k of a record. -/
def State.recWord (s : State) (a k : Nat) : W32 := BitVec.ofNat 32 (slot (s.unitWord a) 32 (a % 64 / 4 + k))

/-- One row of OSM (R239 to R241). -/
def State.rowOsm (s : State) (c : Core) (j : VecJob) (r : Nat) : RowOut :=
  let n := j.len
  let a := j.recAddr r
  let m := s.recWord a 0
  let sm := s.recWord a 1
  let cf := s.recWord a 2
  let ins := (List.range n).map (fun e => (s.inA c j r e).v)
  let act (w : W32) : Option Fv := some (f32 (if W.fnb j.w 27 then fRelu w else w))
  match j.func with
  | 0 =>
    let ts := (List.range n).map (fun e => if j.masked r e then negInf32 else f32mul (s.inA c j r e).f j.imm)
    let mn := f32max m (maxReduce ts)
    if isNegInf mn then
      ⟨ts.map (fun _ => act 0), ins, 0, s.put 8 a (bytesOf 4 m.toNat ++ bytesOf 4 sm.toNat ++ bytesOf 4 one32.toNat ++ bytesOf 4 0)⟩
    else
      let p := ts.map (fun t => hwExp2 (f32sub t mn))
      let k := if isNegInf m then 0 else hwExp2 (f32sub m mn)
      let sn := f32fma sm k (sumReduce p)
      ⟨p.map act, ins, 0, s.put 8 a (bytesOf 4 mn.toNat ++ bytesOf 4 sn.toNat ++ bytesOf 4 k.toNat ++ bytesOf 4 0)⟩
  | 1 =>
    let o := (List.range n).map (fun e =>
      let p := (s.inA c j r e).f
      if cf = 0 then p else f32fma cf (s.inD c j r e).f p)
    ⟨o.map act, ins ++ (if cf = 0 then [] else (List.range n).map (fun e => (s.inD c j r e).v)), 0, s⟩
  | _ =>
    if sm = 0 then ⟨(List.range n).map (fun _ => act 0), ins, 0, s.bumpLo (rVecCnt0 c) 1⟩
    else
      let q := hwRecip sm
      ⟨(List.range n).map (fun e => act (f32mul (s.inA c j r e).f q)), ins, 0, s⟩

/-- One row of QUANT (R242). -/
def State.rowQuant (s : State) (c : Core) (j : VecJob) (r : Nat) : RowOut :=
  let qs := signed 8 (j.imm.toNat % 256)
  let xs := (List.range j.len).map (fun e => (s.inA c j r e).v)
  ⟨xs.map (fun x => some (actOf (W.fnb j.w 27) (x.scaleBy qs))), xs, 0, s⟩

/-- One row of a step. -/
def State.vecRow (s : State) (c : Core) (j : VecJob) (r : Nat) : RowOut :=
  match W.opcode j.w with
  | 0x40 => s.rowVop c j r
  | 0x41 => s.rowVred c j r
  | 0x42 => s.rowVrow c j r
  | 0x43 => s.rowOsm c j r
  | _ => s.rowQuant c j r

/-! ### Outputs (R242, R244, R245) -/

/-- A group of up to 64 results converted: bits and scale bytes, none where the destination keeps what it holds (R46, R333). -/
structure KeepConv where
  elems  : List (Option Nat)
  scales : List (Option Nat)
  cnt    : NumCnt
  gen    : W32

/-- Convert a group of up to 64 results, each with the value that its place holds. What is kept is not converted: it takes no part in
the counts, and a group that is all kept takes no SR words (R43, R46). Every result that is written takes part, an FP32 result into
an FP32 destination too (DESIGN CHOICE: R43 does not say whether that is a conversion). A block of a scaled form that holds both is
formed of all its values, the kept ones rounded to nearest even (DESIGN CHOICE: one scale byte serves both). -/
def convertKept (nc : NumCtl) (t : EType) (sr : Bool) (gen : W32) (vs : List (Option Fv × Fv)) : KeepConv :=
  if vs.all (fun v => v.1.isNone) then ⟨vs.map (fun _ => none), List.replicate (ceilDiv vs.length 32) none, .zero, gen⟩
  else
    let rg := groupRnds sr gen
    let zs := (vs.zip rg.1).map (fun p => (p.1.1.isSome, p.1.1.getD p.1.2, if p.1.1.isSome then p.2 else .rne))
    if t.scaled then
      let bl := (chunks 32 3 zs).map (fun b =>
        if b.all (fun z => !z.1) then (none, b.map (fun _ => (none : Option Nat)), NumCnt.zero)
        else
          let r := convertBlock nc t.code (b.map (·.2.2)) (b.map (·.2.1))
          let cnt := if r.1 = 255 then r.2.2
            else ((b.filter (·.1)).map (fun z => (convert nc true t.code z.2.2 (z.2.1.scaleBy (127 - (r.1 : Int)))).2)).foldl NumCnt.add .zero
          (some r.1, r.2.1.map some, cnt))
      ⟨bl.flatMap (·.2.1), bl.map (·.1), (bl.map (·.2.2)).foldl NumCnt.add .zero, rg.2⟩
    else
      let rs := zs.map (fun z => if z.1 then let r := convert nc false t.code z.2.2 z.2.1; (some r.1, r.2) else (none, NumCnt.zero))
      ⟨rs.map (·.1), [], (rs.map (·.2)).foldl NumCnt.add .zero, rg.2⟩

/-- Convert a row, 64 elements a group in order (R43). -/
def convertKeptRun (nc : NumCtl) (t : EType) (sr : Bool) (gen : W32) (vs : List (Option Fv × Fv)) : KeepConv :=
  (chunks 64 vs.length vs).foldl (fun acc g =>
    let r := convertKept nc t sr acc.gen g
    ⟨acc.elems ++ r.elems, acc.scales ++ r.scales, acc.cnt.add r.cnt, r.gen⟩) ⟨[], [], .zero, gen⟩

/-- The results of a row with what their places hold, both times 2^E of the destination (R342). -/
def State.withOld (s : State) (c : Core) (j : VecJob) (r : Nat) (vs : List (Option Fv)) : List (Option Fv × Fv) :=
  (vs.zip (List.range vs.length)).map (fun p =>
    (p.1.map (fun v => v.scaleBy (j.expOf 2)), (s.inD c j r p.2).v.scaleBy (j.expOf 2)))

/-- Does a step round stochastically into a destination type? An INT32 result becomes FP32 by round-to-nearest-even (R226). -/
def VecJob.srInto (j : VecJob) (t : EType) : Bool := j.sr && !(j.intOp && t.code == .fp32)

/-- A run of results converted into a destination type. An integer step that names SR rounds to nearest into FP32 (R226), and takes
the words of its groups all the same (R43; DEDUCED: R226 fixes how such a result rounds, not what the operation draws). -/
def VecJob.conv (j : VecJob) (t : EType) (gen : W32) (vs : List (Option Fv × Fv)) : KeepConv :=
  let cv := convertKeptRun j.nc t (j.srInto t) gen vs
  if j.sr && !(j.srInto t) then { cv with gen := (convertKeptRun j.nc t true gen vs).gen } else cv

/-- A row into a W register. -/
def State.writeW (s : State) (c : Core) (j : VecJob) (vs : List (Option Fv)) : State :=
  (vs.zip (List.range 64)).foldl (fun s p => match p.1 with
    | none => s
    | some v =>
      let x := s.vec c
      let y := if j.intOp then BitVec.ofInt 32 v.toInt else toF32 .rne v
      s.setVec c { x with w := x.w.put resDefault (64 * (W.tc j.w) + p.2) y }) s

/-- A row into an untiled destination (R244); the flag tells that a word it keeps part of was not delivered. -/
def State.writeUntiled (s : State) (c : Core) (j : VecJob) (r : Nat) (vs : List (Option Fv)) : Bool × State :=
  let t := (D.ety j.tc).getD tF32
  let cv := j.conv t (s.gen c) (s.withOld c j r vs)
  ((s.setGen c cv.gen).countNum c cv.cnt).writeRun c 8 true j.tc t r cv.elems cv.scales

/-- The rows of a tiled output as they are collected: the elements and scale bytes of each row, and the results of each row
for a scaled type whose lines are columns. -/
structure TileRows where
  elems  : List (List Nat)
  scales : List (List Nat)
  vals   : List (List (Option Fv × Fv))

/-- Bits and scale bytes with what is kept filled in: the values that stood there, to the nearest. -/
def KeepConv.filled (cv : KeepConv) (t : EType) (vs : List (Option Fv × Fv)) : List Nat × List Nat :=
  let old := convertRun ⟨false, false, false⟩ t false 0 (vs.map (·.2))
  let fill (l : List (Option Nat)) (o : List Nat) : List Nat := (l.zip (List.range l.length)).map (fun p => p.1.getD (nth 0 p.2 o))
  (fill cv.elems old.elems, fill cv.scales old.scales)

/-- A row into the tile buffers. -/
def State.collectRow (s : State) (c : Core) (j : VecJob) (r : Nat) (vs : List (Option Fv)) (b : TileRows) : State × TileRows :=
  let t := (D.ety j.tc).getD tF32
  let vals := s.withOld c j r vs
  if t.scaled && D.gaxis j.tc then (s, { b with vals := b.vals ++ [vals] })
  else
    let cv := j.conv t (s.gen c) vals
    let f := cv.filled t vals
    ((s.setGen c cv.gen).countNum c cv.cnt, ⟨b.elems ++ [f.1], b.scales ++ [f.2], []⟩)

/-- Element bits of tile (i, k) by row and column. -/
def TileRows.bit (b : TileRows) (i k r e : Nat) : Nat := nth 0 (64 * k + e) (nth [] (64 * i + r) b.elems)

/-- Tile (i, k) of a tiled output: the tile as the compressor takes it, and the state. -/
def State.outTile (s : State) (c : Core) (j : VecJob) (b : TileRows) (i k : Nat) : State × OutTile :=
  let d := j.tc
  let t := (D.ety d).getD tF32
  let g := D.gaxis d
  let mk (es : List (List Nat)) (sc : List Nat) : OutTile :=
    ⟨t, g, tileExtent (D.rows d) i, tileExtent (D.cols d) k, D.idxPol d, D.uflags d, es, sc⟩
  if t.scaled && g then
    let line (l : Nat) : List (Option Fv × Fv) :=
      (List.range 64).map (fun p => nth (some fvZero, fvZero) (64 * k + l) (nth [] (64 * i + p) b.vals))
    let r := (List.range (tileExtent (D.cols d) k)).foldl (fun (acc : State × List (List Nat) × List Nat) l =>
      let cv := convertKept j.nc t (j.srInto t) (acc.1.gen c) (line l)
      let f := cv.filled t (line l)
      ((acc.1.setGen c cv.gen).countNum c cv.cnt, acc.2.1 ++ [f.1], acc.2.2 ++ f.2)) (s, [], [])
    (r.1, mk r.2.1 r.2.2)
  else
    let es := (List.range 64).map (fun l => (List.range 64).map (fun p => if g then b.bit i k p l else b.bit i k l p))
    let sc := (List.range 128).map (fun q => nth 127 (2 * k + q % 2) (nth [] (64 * i + q / 2) b.scales))
    (s, mk es sc)

/-- Tiles that wait enter the two tile buffers as these have room; the lanes stall meanwhile (R245). -/
def VecSt.fill (x : VecSt) : VecSt :=
  let n := 2 - x.bufs.length
  { x with bufs := x.bufs ++ x.stalled.take n, stalled := x.stalled.drop n }

/-- The encoded tiles of a tiled output, in the order of their completion (R245): they pass the tile buffers. -/
def State.pushTiles (s : State) (c : Core) (j : VecJob) (b : TileRows) : State :=
  let d := j.tc
  let n := D.tileCols d
  let total := D.tileRows d * n
  let s := (List.range total).foldl (fun s q =>
    let r := s.outTile c j b (q / n) (q % n)
    let prune := W.fnb j.w 13
    let z := r.2.compress (W.fnb j.w 12) prune j.cut
    let pay := D.base d + 64 * q * denseWords r.2.ty
    let buf : TileBuf := ⟨wordBytes z.payload, pay, r.2.header z prune pay, D.pairAddr d (q / n) (q % n),
      if q + 1 = total ∧ j.guard.wge then some j.guard.wf else none⟩
    let s := r.1.bumpLo (rTilecnt0 c) z.pruned
    let x := s.vec c
    s.setVec c { x with stalled := x.stalled ++ [buf] }) s
  s.setVec c (s.vec c).fill

/-! ### Running a step -/

/-- Count what reading r rows of e words of the own accumulator stores counts (R152, R268); the flag tells that one was not
delivered. -/
def State.countAcc (s : State) (c : Core) (d : Desc) (r e : Nat) : Bool × State :=
  let run := D.runOf d tF32 0 e
  let words := (List.range r).flatMap (fun k => run.1.map (fun w => localOf (D.base d) + 64 * (D.pitch d * clampTo k (D.rows d) + w)))
  let x := words.foldl (fun (x : Bool × State) a => let y := x.2.accCheck c 8 a 64; (x.1 || !y.1, y.2)) (false, s.portWaits c)
  (x.1, x.2.bumpHi (rPanCnt c 0) ((List.range r).map (fun k => clampedWords (D.rows d) k run)).sum)

/-- Count what reading a descriptor operand counts (R259, R268, R277); the flag tells that the unit stops. -/
def State.countOperand (s : State) (c : Core) (d : Desc) (rows len : Nat) (turn : Bool) : Bool × State :=
  let rows := if (if turn then D.cols d else D.rows d) = 1 then min 1 rows else rows
  let r := if turn then len else rows
  let e := if turn then rows else len
  if s.ownAcc c d then s.countAcc c d r e
  else if D.tiled d then
    let x := s.countTiles c 4 8 d 0 (min (D.tileRows d) (ceilDiv r 64)) 0 (min (D.tileCols d) (ceilDiv e 64))
    (x.1, x.2.bumpHi (rPanCnt c 0) (s.tileClamps d 0 r 0 e))
  else
    match D.ety d with
    | some t =>
      let x := s.countRows c 8 d t turn 0 r 0 e
      (x.1 != 0, x.2)
    | none => (false, s)

/-- Count what reading row r of the destination counts. -/
def State.countDest (s : State) (c : Core) (j : VecJob) (r : Nat) : Bool × State :=
  if j.dk then (false, s)
  else if D.tiled j.tc then (if r % 64 = 0 then s.countTiles c 4 8 j.tc (r / 64) 1 0 (D.tileCols j.tc) else (false, s))
  else
    match D.ety j.tc with
    | some t => let x := s.countRows c 8 j.tc t false r 1 0 j.len; (x.1 != 0, x.2)
    | none => (false, s)

/-- Reads in turn, until one stops the unit. -/
def countAll (s : State) : List (State → Bool × State) → Bool × State
  | [] => (false, s)
  | f :: fs => let x := f s; if x.1 then x else countAll x.2 fs

/-- What row r reads beside operands A and B: the destination it reads or keeps part of, γ and β, dγ and dβ, the state record. -/
def State.rowReads (s : State) (c : Core) (j : VecJob) (r : Nat) : Bool × State :=
  let vec (d : Desc) (s : State) : Bool × State := s.countOperand c d 1 j.len false
  match W.opcode j.w with
  | 0x40 => if j.func = 3 ∨ (j.func = 8 ∧ D.tiled j.tc) then s.countDest c j r else (false, s)
  | 0x41 => if D.tiled j.tc then s.countDest c j r else (false, s)
  | 0x42 => countAll s ((if W.fnb j.w 28 then [vec j.ta1] else []) ++ (if W.fnb j.w 29 then [vec j.ta2] else [])
      ++ (if 4 ≤ j.func then [vec j.tc1] else []) ++ (if j.func = 4 then [vec j.tc2] else []))
  | 0x43 =>
    let x := s.readWords 8 [j.recAddr r]
    if x.1 ≠ 0 then (true, x.2)
    else if j.func = 1 ∧ s.recWord (j.recAddr r) 2 ≠ 0 then x.2.countDest c j r else (false, x.2)
  | _ => (false, s)

/-- The vector unit ends as Table 11-15 gives, and the sequencer enters FAULTED (R607, R613). -/
def State.stopVec (s : State) (c : Core) : State :=
  (s.setVec c { s.vec c with jobs := [], bufs := [], stalled := [] }).readFault c

/-- Run a vector step whole (R223). -/
def State.runVec (s : State) (c : Core) (j : VecJob) : State :=
  let op := W.opcode j.w
  let s := if W.fnb j.w 16 && W.fnb j.w 17 then s.setReg (rVecAmax c (W.fn j.w 14 2)) 0 else s
  let len := if op = 0x41 then j.srcLen else j.len
  let u := countAll s ((if j.ak = 0 then [fun s => s.countOperand c j.ta j.rows len (W.fnb j.w 30)] else [])
    ++ (if usesB op j.func ∧ j.bk = 0 then [fun s => s.countOperand c j.tb j.rows len false] else []))
  if u.1 then u.2.stopVec c else
  let tiled := !j.dk && D.tiled j.tc
  let r := (List.range j.rows).foldl (fun (acc : Bool × State × TileRows) r =>
    let u := acc.2.1.rowReads c j r
    if acc.1 then acc else if u.1 then (true, u.2, acc.2.2) else
    let o := u.2.vecRow c j r
    let s := (o.s.bumpLo (rNumcnt0 c) o.sat).capture c j o.ins
    if j.dk then (false, s.writeW c j o.vals, acc.2.2)
    else if tiled then (false, s.collectRow c j r o.vals acc.2.2)
    else let w := s.writeUntiled c j r o.vals; (w.1, w.2, acc.2.2)) (false, u.2, ⟨[], [], []⟩)
  if r.1 then r.2.1.stopVec c
  else if tiled then (r.2.1.pushTiles c j r.2.2).guardDone c { j.guard with wge := false }
  else r.2.1.guardDone c j.guard

/-- Are the accumulator rows that a step reads of a descriptor operand complete (R222)? -/
def State.accOperandReady (s : State) (c : Core) (j : VecJob) (d : Desc) (turn : Bool) : Bool :=
  if s.ownAcc c d then
    let off := localOf (D.base d) % 0x200000
    match arrOf? (off / 0x40000) with
    | some a =>
      let lo := off % 0x40000 / 256
      let n := min (D.rows d) (if turn then max j.len j.srcLen else j.rows)
      let last := (off % 0x40000 + 64 * D.pitch d * (n - 1) + 4 * (D.cols d - 1)) / 256
      s.accReady c a j.seq lo (last + 1 - lo)
    | none => true
  else true

/-- The descriptor operands that a step reads, each with its order. -/
def VecJob.operands (j : VecJob) : List (Desc × Bool) :=
  let op := W.opcode j.w
  (if j.ak = 0 then [(j.ta, W.fnb j.w 30)] else []) ++ (if usesB op j.func ∧ j.bk = 0 then [(j.tb, false)] else [])
    ++ (if op = 0x42 ∧ W.fnb j.w 28 then [(j.ta1, false)] else []) ++ (if op = 0x42 ∧ W.fnb j.w 29 then [(j.ta2, false)] else [])

/-- The descriptors of a step's destinations. -/
def VecJob.dests (j : VecJob) : List Desc :=
  let op := W.opcode j.w
  (if j.dk then [] else [j.tc]) ++ (if op = 0x42 ∧ (j.func = 4 ∨ j.func = 5) then [j.tc1] else [])
    ++ (if op = 0x42 ∧ j.func = 4 then [j.tc2] else [])

/-- May the head of the vector queue run: the rows it reads are complete (R222), and every tile of the step before it has been written, so
that it reads the written words (R223: steps may overlap where that holds anyway; here they do not)? -/
def State.vecReady (s : State) (c : Core) (j : VecJob) : Bool :=
  let x := s.vec c
  x.bufs.isEmpty && x.stalled.isEmpty && j.operands.all (fun p => s.accOperandReady c j p.1 p.2)

/-- Run the head of the queue while it may run (R223). -/
def State.vecAdvance (s : State) (c : Core) : Nat → State
  | 0 => s
  | fuel + 1 =>
    let x := s.vec c
    match x.jobs with
    | [] => s
    | j :: rest => if s.vecReady c j then ((s.setVec c { x with jobs := rest }).runVec c j).vecAdvance c fuel else s

/-- Abort of the vector unit (Table 11-15, R246). -/
def VecSt.abort (x : VecSt) : VecSt := { x with jobs := [], bufs := [], stalled := [] }

/-! ### Decode of a vector step (R247) -/

/-- VEC_BADCNT and a VEC_BAD record. -/
def State.vecReject (s : State) (c : Core) : State := (s.bumpHi (rVecCnt0 c) 1).raise fVecBad 4 c.val []

/-- Does the base of a descriptor lie in an accumulator window? -/
def D.inWindow (d : Desc) : Bool := (accWindow (localOf (D.base d))).isSome

/-- Does a descriptor operand in an accumulator window break R247? A reserved type code follows R23. -/
def accBadOperand (d : Desc) : Bool :=
  if D.inWindow d then
    let off := localOf (D.base d) % 0x200000
    let last := off % 0x40000 + 64 * D.pitch d * (D.rows d - 1) + 4 * (D.cols d - 1)
    (match D.ety d with
      | some t => t != tF32 && t != tI32
      | none => false) || decide (0x40000 ≤ last) || decide (0x180000 ≤ off)
  else false

/-- Does an integer step refuse an untiled pantry operand (R226)? -/
def intBadOperand (d : Desc) : Bool :=
  !(D.inWindow d) && !(D.tiled d) && (match D.ety d with
    | some t => !t.isInt
    | none => false)

/-- Does an integer step refuse a TILED operand: has a tile of it, whose header decides its type (R340), a type that R226 does
not accept? -/
def State.intBadTiles (s : State) (d : Desc) : Bool :=
  !(D.inWindow d) && D.tiled d && (List.range (D.tileRows d * D.tileCols d)).any (fun k => match s.hdrType (D.hdrp d + 64 * k) with
    | some t => !t.isInt
    | none => false)

/-- The FUNC values that Table 11-9 lists for an opcode. -/
def funcCount (op : Nat) : Nat :=
  match op with
  | 0x40 => 23 | 0x41 => 4 | 0x42 => 6 | 0x43 => 3 | _ => 1

/-- The longest row (R230). -/
def maxRow : Nat := 4194304

/-- Is a vector step rejected under R247? -/
def vecBad (j : VecJob) : Bool :=
  let op := W.opcode j.w
  let int := op == 0x40 && (j.func == 19 || j.func == 20)
  (j.ak == 1 && decide (7 < W.ta j.w)) || (j.bk == 1 && decide (7 < W.tb j.w)) || (j.dk && decide (7 < W.tc j.w))
    || decide (maxRow < j.len) || (op == 0x41 && decide (maxRow < j.srcLen))
    || j.operands.any (fun p => accBadOperand p.1) || j.dests.any D.inWindow
    || (!j.dk && D.tiled j.tc && W.fnb j.w 12 && (D.ety j.tc).any (fun t => t.code == .int32))
    || ((int || (op == 0x40 && j.func == 21)) && j.ak == 0 && intBadOperand j.ta)
    || (int && j.bk == 0 && intBadOperand j.tb)

/-- The operand checks of R23, R264 and R267 for a descriptor operand; the own accumulator window is no pantry operand. -/
def State.vecOperandBad (s : State) (c : Core) (d : Desc) (turn : Bool) : Option State :=
  if s.ownAcc c d then (if (D.ety d).isNone then some (s.badType c 4) else none)
  else match s.operandBad c 4 d turn with
    | some t => some t
    | none => if D.tiled d && turn && s.tilesTurnBad d 0 (D.tileRows d) 0 (D.tileCols d) then some (s.panReject c 4) else none

/-- The checks of a destination. -/
def State.vecDestBad (s : State) (c : Core) (d : Desc) : Option State :=
  match D.ety d with
  | some t => (panBad d t true false).map (s.panReject c)
  | none => some (s.badType c 4)

/-- A vector step as it issues: its operands and settings as they stand (R320, R342). -/
def State.vecJob (s : State) (c : Core) (w : StepWord) : VecJob :=
  let q := s.seq c
  let ds := [W.ta w, W.tb w, W.tc w, W.ta w + 1, W.ta w + 2, W.tc w + 1, W.tc w + 2].map q.getT
  let d (i : Nat) : Desc := nth 0 i ds
  ⟨s.now c, w, d 0, d 1, d 2, d 3, d 4, d 5, d 6, q.getX (W.xa w), q.getX (W.xb w), s.numctl c, s.denseCut c, W.guard w,
    ds.map (fun d => (s.tensorExp c d).getD 0)⟩

/-- What the decode of a vector step finds wrong (R23, R247, R264). -/
def State.vecRefusal (s : State) (c : Core) (j : VecJob) : Option State :=
  let op := W.opcode j.w
  let func := W.fn j.w 0 6
  let int := op == 0x40 && (func == 19 || func == 20)
  if vecBad j || ((int || (op == 0x40 && func == 21)) && j.ak == 0 && s.intBadTiles j.ta)
      || (int && j.bk == 0 && s.intBadTiles j.tb) then some (s.vecReject c)
  else firstRefusal (j.operands.map (fun p => s.vecOperandBad c p.1 p.2) ++ j.dests.map (s.vecDestBad c))

/-- A vector step enters its queue, and the unit runs what it can (R223). -/
def State.vecEnqueue (s : State) (c : Core) (j : VecJob) : State :=
  let x := s.vec c
  (s.setVec c { x with jobs := x.jobs ++ [j] }).vecAdvance c 10

/-- Issue of a vector step: decode checks, then the queue of 8 (R247, R320, R322). -/
def issueVector (c : Core) (w : StepWord) (s : State) : Issue :=
  if funcCount (W.opcode w) ≤ W.fn w 0 6 then .bad 4
  else
    let j := s.vecJob c w
    match s.vecRefusal c j with
    | some s' => .ok s'
    | none =>
      if 8 ≤ (s.vec c).jobs.length then .hold 4 0
      else s.readScales c 4 (j.operands.map (·.1) ++ j.dests) (fun s => .ok (s.vecEnqueue c j))

end Sys2Proof.Machine
end

