-- ==== Sys2Proof/Machine/Settle.lean ====
section
/-! DEFINITION. What follows when a unit has moved on: vector steps whose interlock now holds run (R222), dispatch steps
whose work is done set their guards (R347), and an END whose steps have all completed makes its sequencer IDLE (R337). -/
namespace Sys2Proof.Machine

/-- Has an array no step queued or running? A completed load in the shadow plane is a step that has completed (R101). -/
def ArrSt.idle (x : ArrSt) : Bool := x.loadq.isEmpty && x.opq.isEmpty
/-- Has the sieve engine no job, dispatch or open merge buffer? -/
def SieveSt.idle (v : SieveSt) : Bool := v.jobs.isEmpty && v.disp.isNone && v.routed.isEmpty && v.merge.isEmpty && v.stalled.isEmpty && v.merging.isNone
/-- Has the vector unit no step and no unwritten tile? -/
def VecSt.idle (v : VecSt) : Bool := v.jobs.isEmpty && v.bufs.isEmpty && v.stalled.isEmpty
/-- Has an engine no stream? -/
def EngSt.idle (e : EngSt) : Bool := e.q.isEmpty && e.cur.isNone
/-- Have the steps issued to FENCE's unit b completed (Table 11-11, FENCE)? The arrays stand for their feeders' feeds. -/
def CoreSt.unitIdle (k : CoreSt) (b : Nat) : Bool :=
  if h : b < 6 then (k.getArr ⟨b, h⟩).idle && (List.finRange 6).all (fun f => !((k.getFeed f).any (fun j => j.members.testBit b)))
  else if b = 6 then k.sieve.idle
  else if b = 7 then k.vec.idle
  else if h : b - 8 < 4 then (k.getEng ⟨b - 8, h⟩).idle
  else if b = 12 then k.trk.isEmpty
  else (List.finRange 8).all (fun n => !((k.getBelay n).busy))

/-- Are the bytes visible that pops have sent to other devices and the companion? Their writes stand among the words from 2^65 on. -/
def CoreSt.farQuiet (k : CoreSt) : Bool := k.seq.got.all (fun g => decide (g.1 < 2 ^ 65))

/-- Has every step of the recipe completed, and are its writes visible (R337)? -/
def CoreSt.allIdle (k : CoreSt) : Bool := (List.range 14).all k.unitIdle && k.farQuiet

/-- END becomes effective once every step of the recipe has completed (R337). -/
def State.endCheck (s : State) (c : Core) : State :=
  match (s.seq c).ending with
  | none => s
  | some fl =>
    if (s.core c).allIdle then
      let s := match fl with
        | some f => s.setFlag c f true
        | none => s
      s.onSeq c (fun q => { q with st := .idle, ending := none })
    else s

/-- What follows once a unit of core c has moved on. -/
def State.settle (s : State) (c : Core) : State := ((s.vecAdvance c 8).dispSettle c).endCheck c

/-- What follows on every core after an event that several cores see. -/
def State.settleAll (s : State) : State := (List.finRange 48).foldl (fun s c => s.endCheck c) s

end Sys2Proof.Machine
end

