-- ==== Sys2Proof/Machine/StreamBase.lean ====
section
/-! DEFINITION. Stream programs word by word (spec/10_stream_engines.md R282, R283, Table 10-2), credits, and the end of a
stream (R307, R309, R310). -/
namespace Sys2Proof.Machine

/-! ### Words -/

def Sw.op (w : W64) : Nat := fld w 58 6
def Sw.opnd (w : W64) : Nat := fld w 55 3
/-- The coded opcodes. -/
def swEnd := 0
def swWait := 0x0A
def swCred := 0x0C
def swGo := 0x0D

/-- X register n as the start step found it. -/
def StrJob.x (j : StrJob) (n : Nat) : W64 := nth 0 n j.xs.toList

/-- Set a half of an address, or all of it from an X register. -/
def setAddr (j : StrJob) (w : W64) (a : W64) : W64 :=
  if bitOf w 53 then j.x (fld w 32 5)
  else if bitOf w 54 then setFld a 32 32 (fld w 0 32) else setFld a 0 32 (fld w 0 32)

/-- ADDR. -/
def StrFields.addr (f : StrFields) (j : StrJob) (w : W64) : StrFields :=
  match Sw.opnd w with
  | 0 => { f with src := { f.src with addr := setAddr j w f.src.addr } }
  | 1 => { f with dst := { f.dst with addr := setAddr j w f.dst.addr } }
  | 2 => { f with idx := setAddr j w f.idx }
  | 3 => { f with record := setAddr j w f.record }
  | 4 => { f with src := { f.src with hdr := setAddr j w f.src.hdr } }
  | 5 => { f with dst := { f.dst with hdr := setAddr j w f.dst.hdr } }
  | _ => f

/-- DESC for one operand. -/
def StrOp.desc (o : StrOp) (w : W64) (src : Bool) : StrOp :=
  { o with ety := fld w 50 5, layout := fld w 48 2, tiled := bitOf w 47, xin := src && bitOf w 46, pitch := fld w 16 30
           rw := fld w 4 12 + 1 }
/-- DESC. -/
def StrFields.desc (f : StrFields) (w : W64) : StrFields :=
  match Sw.opnd w with
  | 0 => { f with src := f.src.desc w true }
  | 1 => { f with dst := f.dst.desc w false }
  | _ => f

/-- LOOP. -/
def StrFields.loop (f : StrFields) (w : W64) : StrFields :=
  { f with counts := setAt (Sw.opnd w) (fld w 31 24 + 1) f.counts }

/-- STRIDE for one operand. -/
def StrOp.stride (o : StrOp) (w : W64) : StrOp := { o with strides := setAt (fld w 52 3) (signed 48 (fld w 0 48)) o.strides }
/-- STRIDE. -/
def StrFields.stride (f : StrFields) (w : W64) : StrFields :=
  match Sw.opnd w with
  | 0 => { f with src := f.src.stride w }
  | 1 => { f with dst := f.dst.stride w }
  | _ => f

/-- IDX. -/
def StrFields.index (f : StrFields) (w : W64) : StrFields :=
  { f with idxOn := true, w64 := bitOf w 57, mode := fld w 55 2, idxLev := fld w 52 3, extent := fld w 8 40 }
/-- FILL. -/
def StrFields.fillWord (f : StrFields) (w : W64) : StrFields := { f with fill := BitVec.ofNat 32 (fld w 0 32) }
/-- CVT. -/
def StrFields.cvt (f : StrFields) (w : W64) : StrFields :=
  { f with sr := bitOf w 57, target := bitOf w 56, pol := bitOf w 55, gaxis := bitOf w 54, idxPol := bitOf w 53
           uflags := fld w 45 8, extM1 := fld w 39 6 }

/-- What a word that sets fields does to them (R283). -/
def StrFields.apply (f : StrFields) (j : StrJob) (w : W64) : StrFields :=
  match Sw.op w with
  | 1 => f.addr j w
  | 2 => f.desc w
  | 3 => f.loop w
  | 4 => f.stride w
  | 5 => f.index w
  | 6 => f.fillWord w
  | 7 => f.cvt w
  | 8 => { f with wina := some w }
  | 9 => { f with winb := some w }
  | _ => f

/-- The fields after a run of words. -/
def fieldsAfter (j : StrJob) (ws : List W64) : StrFields := ws.foldl (fun f w => f.apply j w) .zero

/-- The record address and the flag that the stream's end names: from END and the ADDR words before it, or from the copy. -/
def StrRun.endFlag (r : StrRun) : Option Nat :=
  match r.job.copy with
  | some _ => none
  | none => r.words.getLast?.bind (fun w => if Sw.op w = swEnd ∧ bitOf w 6 then some (fld w 0 6) else none)
def StrRun.endRecord (r : StrRun) : Option W64 :=
  match r.job.copy with
  | some k => if k.recEn then some k.record else none
  | none => r.words.getLast?.bind (fun w => if Sw.op w = swEnd ∧ bitOf w 7 then some (fieldsAfter r.job r.words).record else none)

/-! ### Credits (R302) -/

/-- Credits that an engine holds. -/
def EngSt.held (x : EngSt) : Nat := match x.cur with
  | some r => if r.phase = .run then r.credits else 0
  | none => 0
/-- Credits not held. -/
def State.freeCredits (s : State) (c : Core) : Nat := 128 - ((List.finRange 4).map (fun e => (s.eng c e).held)).sum

/-- Replace the stream an engine runs. -/
def State.setRun (s : State) (c : Core) (e : Eng) (r : StrRun) : State := s.setEng c e { s.eng c e with cur := some r }

/-! ### The end of a stream -/

/-- Accesses of an engine that nothing waits for any longer: their responses are ignored. `p` picks them by address, or by
number for a write. -/
def State.strForget (s : State) (c : Core) (e : Eng) (p : Nat → Bool → Bool) : State :=
  let mine (w : TxnWho) : Bool := match w with
    | .stream k f a wr => k == c && f == e && p a wr
    | .trickle .. | .seq .. | .coll .. | .load _ => false
  let s := { s with bv := { s.bv with txns := s.bv.txns.filter (fun t => !(mine t.who)) } }
  (List.finRange 2).foldl (fun s h => s.onHalf h (fun x =>
    { x with reqs := x.reqs.map (fun r => if mine r.who then { r with who := .stream c e (2 ^ 70) true } else r) })) s

/-- The number of a set of parts. -/
def popcount (w : W64) : Nat := ((List.range 64).filter (fun i => bitOf w i)).length

/-- Fail a part with a reason, the device and the link of the failure; the first failed part is kept. -/
def StrRun.failPart (r : StrRun) (p reason dev link : Nat) : StrRun :=
  let r' := { r with fail := setFld r.fail p 1 1, ok := setFld r.ok p 1 0 }
  match r.first with
  | some q => if p < q then { r' with first := some p, reason := reason, failDev := dev, failLink := link } else r'
  | none => { r' with first := some p, reason := reason, failDev := dev, failLink := link }

/-- Is an access still outstanding? -/
def Got.isWaiting : Got → Bool
  | .waiting _ _ => true
  | _ => false

/-- The parts with an access outstanding. -/
def StrRun.openParts (r : StrRun) : List Nat :=
  (r.reads.filter (fun p => match r.cache.find? (fun e => e.1 == p.1) with
    | some e => e.2.isWaiting
    | none => true)).map (·.2)
  ++ r.sends.filterMap (fun q => (r.pend.find? (fun p => p.key == q.1)).map (·.part))
  ++ (r.acks.filter (fun e => e.2.isWaiting)).filterMap (fun e => (r.pend.find? (fun p => p.key == e.1)).map (·.part))

/-- Take in what has become of the stream's writes elsewhere: a write that has landed counts its bytes (R310), one that has failed
fails its part (R307). -/
def StrRun.absorb (r : StrRun) : StrRun :=
  let r' := r.acks.foldl (fun (r : StrRun) a =>
    match a.2, r.pend.find? (fun p => p.key == a.1) with
    | .failed reason link, some p => if p.part < 64 then r.failPart p.part reason p.dev link else r
    | .data _, some p => { r with bytes := r.bytes + p.bytes }
    | _, _ => r) r
  let settled (k : Nat) : Bool := r.acks.any (fun a => a.1 == k && !a.2.isWaiting)
  { r' with acks := r.acks.filter (fun a => a.2.isWaiting), pend := r.pend.filter (fun p => !(settled p.key)) }

/-- STATUS (R309): 0 OK, 1 PARTIAL, 2 FAILED. -/
def StrRun.status (r : StrRun) : Nat :=
  if r.timedOut ∨ r.idxFail then 2 else if r.fail = 0 then 0 else if r.ok = 0 then 2 else 1

/-- The stream of an engine ends: record, flag, guard, and its credits return (R307, R309, R310). The guard of a program's
start step stays where the stream is aborted; a copy's is set as END sets its flag (R334). -/
def State.strFinish (s : State) (c : Core) (e : Eng) (r : StrRun) (status : Nat) : State :=
  let waiting := r.openParts
  let r := r.absorb
  let reason := if status = 3 then 7 else if r.timedOut then 8 else if status = 0 then 0 else r.reason
  let first := if r.idxFail ∨ status = 0 then 0 else r.first.getD 0
  let r := if status = 3 then { r with ok := waiting.foldl (fun v p => setFld v p 1 0) r.ok } else r
  let rec64 := partRecord r.job.tag status r.folded r.units.length c.val e.val reason first r.ok r.fail r.bytes s.tb.time r.drops
    (r.resume.getD 0xFFFFFFFF) r.failDev r.failLink
  let s := match r.endRecord with
    | some a => if s.inOwnPantry c a.toNat 64 then s.put (4 + e.val) a.toNat rec64 else s
    | none => s
  let s := match r.endFlag with
    | some f => s.setFlag c f true
    | none => s
  let s := s.bumpHi (rStrCnt c 2) (popcount r.fail)
  let s := if status = 1 ∨ status = 2 then s.raise fStrPart 6 c.val [r.job.tag, first, reason] else s
  let s := s.onCore c (fun k => { k with admitq := k.admitq.filter (fun x => x != e) })
  let s := ((s.strForget c e (fun _ _ => true)).cohLeave (· == .unit c (4 + e.val))).setEng c e { s.eng c e with cur := none, tag := r.job.tag, lastStatus := status }
  if status ≠ 3 ∨ r.job.copy.isSome then s.guardDone c r.job.guard else s

/-- An engine abandons its work (Table 11-15): the stream it runs ends ABORTED, those that wait are gone. -/
def State.strAbort (s : State) (c : Core) (e : Eng) : State :=
  let s := match (s.eng c e).cur with
    | some r => s.strFinish c e r 3
    | none => s
  s.setEng c e { s.eng c e with q := [] }

/-! ### Register fields -/

/-- STATE of STR_ENGn. -/
def State.engState (s : State) (c : Core) (e : Eng) : Nat :=
  if (s.core c).getUnit ⟨8 + e.val, by omega⟩ == .draining then 5
  else match (s.eng c e).cur with
  | some r => (match r.phase with
    | .head => 2
    | .queued => 3
    | .run => 4)
  | none => if (s.eng c e).q.isEmpty then 0 else 1

end Sys2Proof.Machine
end

