-- ==== Sys2Proof/Machine/Control.lean ====
section
/-! DEFINITION. Enabling, draining and aborting units, starts, CLEAR_FAULT and slot flag writes (spec/11_recipes.md R317,
R318, R349, R352 to R356). -/
namespace Sys2Proof.Machine

/-! ### Steps that a unit cannot take (R355) -/

/-- The unit that CORE_EN enables for a step (R355). -/
def stepUnit (w : StepWord) : Option (Fin 13) :=
  match W.opcode w with
  | 0x00 | 0x01 | 0x03 | 0x04 | 0x05 | 0x06 => some ⟨W.fn w 0 3, by have h : W.fn w 0 3 < 2 ^ 3 := Nat.mod_lt _ (by decide); omega⟩
  | 0x20 | 0x21 | 0x22 | 0x23 => some 6
  | 0x40 | 0x41 | 0x42 | 0x43 | 0x44 => some 7
  | 0x60 | 0x61 => some ⟨8 + W.fn w 0 2, by have h : W.fn w 0 2 < 2 ^ 2 := Nat.mod_lt _ (by decide); omega⟩
  | _ => none

/-- Is the unit of a step unable to take it? -/
def State.unitOff (s : State) (c : Core) (w : StepWord) : Bool := match stepUnit w with
  | some u => (s.core c).getUnit u != .enabled
  | none => false

/-- The sequencer goes on to a step. -/
def State.advancePc (s : State) (c : Core) (pc : BitVec 20) (issued : Bool) : State :=
  s.onSeq c (fun q => { q with st := if q.st == .stalled then .running else q.st, pc := pc, stall := none
                               issued := q.issued + b2n issued, got := q.got.filter (fun g => decide (2 ^ 65 ≤ g.1)) })

/-- A step whose unit is DRAINING or DISABLED is dropped (R355); a dropped PASS counts as one its feed must not wait for. -/
def State.dropStep (s : State) (c : Core) (w : StepWord) : State :=
  let q := s.seq c
  let s := (s.bumpHi (rSeqCnt c 1) 1).raise fUnitOff 7 c.val [q.pc.toNat]
  let s := match W.opcode w, arrOf? (W.fn w 0 3) with
    | 0x01, some a => s.setArr c a { s.arr c a with rejected := insSeq (s.now c) (s.arr c a).rejected }
    | _, _ => s
  s.advancePc c (q.pc + 1) true

/-- A step that waits at issue for a place in the queue of a unit (not in that of the trickle path, whose stall is marked by flag 1),
where that unit no longer takes steps, is dropped (R101, R322, R355). -/
def State.dropStalled (s : State) (c : Core) : State :=
  match (s.seq c).stall with
  | some t => if t.why = 4 ∧ t.flag = 0 ∧ s.unitOff c t.w then s.dropStep c t.w else s
  | none => s

/-! ### Abort (R354, Table 11-15) -/

/-- A belay context of an aborted core: ABORTED, its flag set (R172). -/
def State.belayAbort (s : State) (c : Core) (n : Fin 8) : State :=
  if (s.belay c n).busy then s.belayEnd c n 5 0 0 else s

/-- The sequencer, feeders, trickle path and belay port of an aborted core; FAULTED it stays (R352). -/
def State.coreAbort (s : State) (c : Core) : State :=
  let s := (s.cohLeave (fun w => w == .unit c 12 || w == .unit c 13)).onCore c (fun k => { k with
    seq := { k.seq with st := if k.seq.st == .faulted then .faulted else .idle, starts := [], stall := none, ending := none, got := [] }
    feed := Vector.replicate 6 [], trk := []
    arr := k.arr.map (fun x => { x with rejected := [] }) })
  (List.finRange 8).foldl (fun s n => s.belayAbort c n) s

/-- One unit abandons its work. -/
def State.unitAbort (s : State) (c : Core) (u : Fin 13) : State :=
  if h : u.val < 6 then s.setArr c ⟨u.val, h⟩ (s.arr c ⟨u.val, h⟩).abort
  else if u.val = 6 then s.setSieve c (s.sieve c).abort
  else if u.val = 7 then s.setVec c (s.vec c).abort
  else if h : u.val - 8 < 4 then (s.strAbort c ⟨u.val - 8, h⟩).breakPort (coreProd c)
  else (s.coreAbort c).breakPort (coreProd c)

/-! ### CORE_EN (R353 to R356) -/

/-- The new state of a unit, and whether it is aborted, where a write asks for it on or off. A 1 written while it drains is ignored, an
ABORT with it is not (R354, R356). -/
def unitMove (st : UnitSt) (on abort : Bool) : UnitSt × Bool :=
  match st, on with
  | .enabled, true => (.enabled, false)
  | .enabled, false => if abort then (.disabled, true) else (.draining, false)
  | .draining, _ => if abort then (.disabled, true) else (.draining, false)
  | .disabled, true => (.enabled, false)
  | .disabled, false => (.disabled, false)

/-- A unit that becomes ENABLED has empty queues (R356): no pass waits to be named to a feed. -/
def CoreSt.fresh (k : CoreSt) (u : Fin 13) : CoreSt :=
  if h : u.val < 6 then k.setArr ⟨u.val, h⟩ { k.getArr ⟨u.val, h⟩ with rejected := [] }
  else if u.val = 12 then
    { k with seq := { k.seq with st := if k.seq.st == .faulted then .faulted else .idle, starts := [], stall := none, ending := none } }
  else k

/-- A write of CORE_EN for one unit: CORE off takes every unit with it. -/
def State.enUnit (s : State) (c : Core) (v : W64) (u : Fin 13) : State :=
  let st := (s.core c).getUnit u
  let on := bitOf v u.val && (u.val == 12 || bitOf v 12)
  let m := unitMove st on (bitOf v 13)
  let old := bitOf (s.reg (rEn c)) u.val
  let s := s.setRf (rEn c) u.val 1 (b2n (if st == .draining && bitOf v u.val then old else bitOf v u.val))
  let s := if m.2 then s.unitAbort c u else s
  s.onCore c (fun k =>
    let k := k.setUnit u m.1
    if st == .disabled && m.1 == .enabled then k.fresh u else k)

/-- A write of CORE_EN; in RECOVERY every core stays disabled (R529). -/
def State.coreEnWrite (s : State) (c : Core) (v : W64) : State :=
  if s.boot.st = 4 then s
  else (((List.finRange 13).foldl (fun s u => s.enUnit c v u) s).dropStalled c).settle c

/-- UNIT_DISABLE: a write that clears enable bits, without ABORT. -/
def execUnitDisable (c : Core) (v : W64) (s : State) : Host.Outcome State Fault Refusal := s.live <|
  .next (s.ifOn c.val (fun s => s.coreEnWrite c (setFld v 13 1 0)))
/-- ABORT: a write with ABORT set. -/
def execAbort (c : Core) (v : W64) (s : State) : Host.Outcome State Fault Refusal := s.live <|
  .next (s.ifOn c.val (fun s => s.coreEnWrite c (setFld v 13 1 1)))
/-- UNIT_ENABLE: a write that sets enable bits. -/
def execUnitEnable (c : Core) (v : W64) (s : State) : Host.Outcome State Fault Refusal := s.live <|
  .next (s.ifOn c.val (fun s => s.coreEnWrite c v))

/-- Has a draining unit completed its work? -/
def State.drained (s : State) (c : Core) (u : Fin 13) : Bool :=
  if u.val < 12 then (s.core c).unitIdle u.val else (s.core c).allIdle

/-- DRAIN_DONE: the unit reads DISABLED; a sequencer that drained is IDLE. -/
def execDrainDone (c : Core) (unit : Fin 13) (s : State) : Host.Outcome State Fault Refusal := s.live <|
  .next (if (s.core c).getUnit unit == .draining && s.drained c unit then
    (let s := s.onCore c (fun k => k.setUnit unit .disabled)
     if unit.val = 12 then
       s.onSeq c (fun q => { q with st := if q.st == .faulted then .faulted else .idle, stall := none, ending := none })
     else s)
   else s)

/-! ### Starts (R317, R318) -/

/-- What a topo start loads the generator with (R45). -/
def startSeed (dev : BitVec 16) (c : Core) (g : W32) : W32 :=
  let v := g ^^^ BitVec.ofNat 32 (dev.toNat * 256) ^^^ BitVec.ofNat 32 c.val
  if v = 0 then 0x9E3779B9 else v

/-- START_TAKE: the sequencer takes the oldest start request. -/
def execStartTake (c : Core) (s : State) : Host.Outcome State Fault Refusal := s.live <|
  let q := s.seq c
  match q.starts with
  | [] => .next s
  | r :: rest =>
    if q.st == .idle && (s.core c).getUnit 12 == .enabled && s.coreOn c then
      let x := ((q.x.set 1 r.arg).set 2 (BitVec.ofNat 64 (s.tb.pitch % 2 ^ 48))).set 3 (s.full 0)
      let s := s.setSeq c { q with st := .running, starts := rest, x := x, p := 0, l := Vector.replicate 8 0
                                   pc := BitVec.ofNat 20 r.addr, stall := none, ending := none }
      .next (match r.seed with
        | some g => s.setGen c (startSeed s.devId c g)
        | none => s)
    else .next s

/-! ### SEQ_ registers -/

/-- SEQ_CTL: CLEAR_FAULT leaves FAULTED as IDLE (R352). -/
def State.seqCtlWrite (s : State) (c : Core) (v : W64) : State :=
  let s := s.setReg (rSeqCtl c) (BitVec.ofNat 64 (fld v 0 16))
  if bitOf v 16 && (s.seq c).st == .faulted then s.onSeq c (fun q => { q with st := .idle, stall := none, ending := none }) else s

/-- CLEAR_FAULT: a write of SEQ_CTL with CLEAR_FAULT set. -/
def execClearFault (c : Core) (v : W64) (s : State) : Host.Outcome State Fault Refusal := s.live <|
  .next (s.ifOn c.val (fun s => s.seqCtlWrite c (setFld v 16 1 1)))

/-- SEQ_FLAGSET and SEQ_FLAGCLR (R349). -/
def State.flagSet (s : State) (c : Core) (v : W64) : State := s.onSeq c (fun q => { q with f := q.f ||| v })
def State.flagClr (s : State) (c : Core) (v : W64) : State := s.onSeq c (fun q => { q with f := q.f &&& ~~~v })

def execSeqFlagset (c : Core) (v : W64) (s : State) : Host.Outcome State Fault Refusal :=
  s.live <| .next (s.ifOn c.val (fun s => s.flagSet c v))
def execSeqFlagclr (c : Core) (v : W64) (s : State) : Host.Outcome State Fault Refusal :=
  s.live <| .next (s.ifOn c.val (fun s => s.flagClr c v))

/-- SEQ_STAT. -/
def State.seqStat (s : State) (c : Core) : Nat :=
  let q := s.seq c
  let st := match (s.core c).getUnit 12 with
    | .draining => 4
    | .disabled => 5
    | .enabled => (match q.st with
      | .idle => 0 | .running => 1 | .stalled => 2 | .faulted => 3)
  let w := match q.stall with
    | some w => (w.why, w.flag)
    | none => (0, 0)
  st + 2 ^ 3 * w.1 + 2 ^ 7 * (if 1 ≤ w.1 ∧ w.1 ≤ 3 then w.2 else 0) + 2 ^ 13 * q.pc.toNat + 2 ^ 33 * q.starts.length

end Sys2Proof.Machine
end

