-- ==== Sys2Proof/Machine/ExecArray.lean ====
section
/-! DEFINITION. The events of arrays, feeders and gathering contexts (spec/04_mac_array.md, spec/05_clusters_and_feeders.md).
An event whose condition the state does not meet has not happened and changes nothing. -/
namespace Sys2Proof.Machine

/-- LOAD_BEGIN (R105, R112): the load at the head of the queue reads its source; `waited` cycles it waited. -/
def execLoadBegin (c : Core) (a : Arr) (waited : Nat) (s : State) : Host.Outcome State Fault Refusal := s.live <|
  let x := s.arr c a
  match x.loadq with
  | [] => .next s
  | j :: rest =>
    if x.loadMayBegin then
      let s := s.bumpHi (rArrCnt0 c a) waited
      let r := s.readSrcs c j.layout j.srcs
      if r.2.1 then .next (r.2.2.stopArr c a)
      else
        let s := r.2.2
        let y := s.arr c a
        .next (s.setArr c a { y with loadq := { j with busy := true, built := some (buildPlanes j.layout r.1) } :: rest })
    else .next s

/-- LOAD_DONE (R98, R86, R107): the plane is loaded and the load leaves its queue. -/
def execLoadDone (c : Core) (a : Arr) (s : State) : Host.Outcome State Fault Refusal := s.live <|
  let x := s.arr c a
  match x.loadq with
  | j :: _ =>
    (match j.busy, j.built with
     | true, some ps =>
       let s := (s.setArr c a (x.finishLoad j ps)).guardDone c j.guard
       -- an FP32 load kept the passes behind it from being judged (R107)
       .next ((if j.layout = 6 then s.arrAdvance c a (x.opq.length + 1) else s).settle c)
     | _, _ => .next s)
  | [] => .next s

/-- PLANE_SWAP (R103). -/
def execPlaneSwap (c : Core) (a : Arr) (s : State) : Host.Outcome State Fault Refusal := s.live <|
  .next (s.setArr c a (s.arr c a).doSwap)

/-- FEED_START (R123 to R126): the feed at the head of feeder f runs once every member is ready for it. -/
def execFeedStart (c : Core) (f : Arr) (starve : Nat) (s : State) : Host.Outcome State Fault Refusal := s.live <|
  match (s.core c).getFeed f with
  | j :: _ => if s.feedReady c j then .next ((s.runFeed c f j starve).settle c) else .next s
  | [] => .next s

/-- FILL_DEADLINE (R133, R135): an OPEN fill has reached its deadline. -/
def execFillDeadline (c : Core) (g : Ctx) (s : State) : Host.Outcome State Fault Refusal := s.live <|
  .next (s.closeDue c g)

/-- FILL_WATCHDOG (R138): a CLOSED fill whose places have not all come. -/
def execFillWatchdog (c : Core) (g : Ctx) (f : Fin 2) (s : State) : Host.Outcome State Fault Refusal := s.live <|
  let y := (s.fg c g).fill f.val
  if y.st = .closed ∧ watchdogPast (s.slotWd c) y.closedAt s.tb.starts then .next (s.expireFill c g f.val) else .next s

/-- CORE_FGCTX_WRITE (R145). -/
def execCoreFgctxWrite (c : Core) (g : Ctx) (v : W64) (s : State) : Host.Outcome State Fault Refusal := s.live <|
  .next (s.ifOn c.val (fun s => s.fgctxWrite c g v))

/-- PAN_INVAL_GO (R278): with GO set, the words of granules FIRST to FIRST + COUNT_M1 become invalid. -/
def State.panInval (s : State) (c : Core) (v : W64) : State :=
  let s := s.setReg (rPanInval c) (v &&& 0xFFFFFF#64)
  if bitOf v 24 then
    let first := fld v 0 12
    let n := min (fld v 12 12 + 1) (4096 - first)
    s.onCore c (fun k => { k with valid := NSet.delRange (64 * first) (64 * n) k.valid })
  else s

/-- PAN_INVAL_GO. -/
def execPanInvalGo (c : Core) (v : W64) (s : State) : Host.Outcome State Fault Refusal := s.live <|
  .next (s.ifOn c.val (fun s => s.panInval c v))

end Sys2Proof.Machine
end

