-- ==== Sys2Proof/Machine/Nmg.lean ====
section
/-! DEFINITION. The near-memory gather engines (spec/14_memory_tiers.md R409 to R417). -/
namespace Sys2Proof.Machine

/-- The fields of a gather request (Table 14-5). -/
structure Nreq where
  index  : Nat
  offs   : Nat
  wts    : Nat
  table  : Nat
  nidx   : Nat
  nseg   : Nat
  extent : Nat
  rw     : Nat
  op     : Nat
  itype  : Nat
  idx64  : Bool
  otype  : Nat
  dcore  : Nat
  dword  : Nat
  opitch : Nat
  sword  : Nat
  flag   : Nat
  flagEn : Bool
  tag    : Nat
deriving DecidableEq, Repr

def Nreq.of (r : BitVec 512) : Nreq :=
  ⟨fld r 0 64, fld r 64 64, fld r 128 64, fld r 192 64, fld r 256 24 + 1, fld r 288 16 + 1, fld r 320 32, fld r 352 6 + 1,
   fld r 358 2, fld r 360 5, bitOf r 365, fld r 368 5, fld r 376 6, fld r 384 18, fld r 416 12, fld r 432 18, fld r 464 6,
   bitOf r 470, fld r 480 16⟩

/-- The five types of Table 14-5, unscaled. -/
def nmgType (v : Nat) : Option Code :=
  match EType.ofField v with
  | some t => if !t.scaled && [Code.fp32, .bf16, .fp16, .e4m3, .e5m2].contains t.code then some t.code else none
  | none => none

/-- Bytes of one index. -/
def Nreq.isz (n : Nreq) : Nat := if n.idx64 then 8 else 4
/-- Elements of a table row. -/
def Nreq.elems (n : Nreq) : Nat := n.rw * ((nmgType n.itype).getD .fp32).perWord
/-- Output rows. -/
def Nreq.outRows (n : Nreq) : Nat := if n.op = 0 then n.nidx else n.nseg

/-- Are n bytes at a full address aligned and in pantry windows of this device (R410)? -/
def State.nmgRange (s : State) (a n align : Nat) : Bool :=
  a % align == 0 && a / 2 ^ 48 == s.devId.toNat && decide (localOf a + n ≤ 0x30000000)

/-- The condition code of Table 14-6 of a BAD request, the lowest one; 0 where there is none (R411). -/
def State.nmgBad (s : State) (n : Nreq) : Nat :=
  match nmgType n.itype, nmgType n.otype with
  | some it, some ot =>
    let ow := dataWords ot (n.rw * it.perWord)
    if n.op = 3 then 1
    else if n.opitch < ow ∨ n.opitch = 0 then 2
    else if !(s.nmgRange n.index (n.nidx * n.isz) 64) || (n.op != 0 && !(s.nmgRange n.offs (4 * n.nseg) 4))
        || (n.op == 2 && !(s.nmgRange n.wts (4 * n.nidx) 4)) || n.table % 64 != 0 || decide (48 ≤ n.dcore)
        || decide (262144 < n.dword + (n.outRows - 1) * n.opitch + ow) then 3
    else if s.stackBytes < n.table + 64 * n.rw * n.extent then 4
    else 0
  | _, _ => 1

/-- Bytes k to k+m-1 of a little-endian run at a full pantry address. -/
def State.nmgNum (s : State) (a m : Nat) : Nat := (s.wordAt (localOf a) / 2 ^ (8 * (a % 64))) % 2 ^ (8 * m)

/-- Index i. -/
def State.nmgIndex (s : State) (n : Nreq) (i : Nat) : Int := signed (8 * n.isz) (s.nmgNum (n.index + n.isz * i) n.isz)
/-- Is an index kept (R412)? -/
def Nreq.keeps (n : Nreq) (i : Int) : Bool := decide (0 ≤ i) && decide (i < n.extent)

/-- Physical address of word w of table row r (R410). -/
def Nreq.rowWord (n : Nreq) (h r w : Nat) : Nat := stackAddr h (n.table + 64 * n.rw * r + 64 * w)

/-- The reason a table row cannot be read: 1 uncorrectable, 4 not populated, 0 none (R416). -/
def State.rowFail (s : State) (n : Nreq) (h r : Nat) : Nat :=
  (List.range n.rw).foldl (fun acc w =>
    let a := n.rowWord h r w
    if acc ≠ 0 then acc else if !s.populated a then 4 else if s.eccOf (eccUnit a) = .uncorrectable then 1 else 0) 0

/-- Read a table row once (R413): what its words count and report. -/
def State.rowRead (s : State) (n : Nreq) (h r : Nat) : State :=
  (List.range n.rw).foldl (fun s w =>
    let a := n.rowWord h r w
    if !s.populated a then s.noPop a else (s.memEcc a).2) s

/-- Element e of table row r. -/
def State.rowElem (s : State) (n : Nreq) (h r e : Nat) : Fv :=
  let t := (nmgType n.itype).getD .fp32
  EType.value ⟨t, false⟩ (slot (s.wordAt (n.rowWord h r (e / t.perWord))) t.width (e % t.perWord))

/-- Read the distinct kept rows of every window of 64 positions below `lim` (R413); dropped indices count (R412). -/
def State.nmgReads (s : State) (n : Nreq) (h lim : Nat) : State :=
  (List.range (ceilDiv lim 64)).foldl (fun s j =>
    let idx := (rangeFrom (64 * j) (min 64 (lim - 64 * j))).map (s.nmgIndex n)
    let rows := ((idx.filter n.keeps).map Int.toNat).eraseDups
    rows.foldl (fun s r => s.rowRead n h r) s) s

/-- An output row's words. -/
def Nreq.outWords (n : Nreq) (vs : List Fv) : List Nat :=
  let t := (nmgType n.otype).getD .fp32
  packWords t (vs.map (fun v => (convert ⟨false, false, false⟩ false t .rne v).1))

/-- Write an output row. -/
def State.nmgWrite (s : State) (n : Nreq) (j : Nat) (vs : List Fv) : State :=
  s.wrLocal (n.dcore * 0x1000000 + 64 * (n.dword + j * n.opitch)) (wordBytes (n.outWords vs))

/-- A sum in FP32 over the kept positions lo to hi-1 (R415). -/
def State.nmgSum (s : State) (n : Nreq) (h lo hi e : Nat) : Fv :=
  f32 ((rangeFrom lo (hi - lo)).foldl (fun acc i =>
    let x := s.nmgIndex n i
    if n.keeps x then
      let v := toF32 .rne (s.rowElem n h x.toNat e)
      if n.op = 2 then f32fma (BitVec.ofNat 32 (s.nmgNum (n.wts + 4 * i) 4)) v acc else f32add acc v
    else acc) 0)

/-- The positions output row j covers: itself for GATHER, its segment otherwise (R414). -/
def nmgSpan (op : Nat) (ends : List Nat) (j : Nat) : Nat × Nat :=
  if op = 0 then (j, j + 1) else (if j = 0 then 0 else nth 0 (j - 1) ends, nth 0 j ends)

/-- The pantry words that a request reads beside its rows: indices, weights of a weighted sum and segment ends (Table 14-5). -/
def Nreq.lists (n : Nreq) : List Nat :=
  let words (a k : Nat) : List Nat := (rangeFrom (a / 64) (ceilDiv (a % 64 + k) 64)).map (64 * ·)
  words n.index (n.isz * n.nidx) ++ (if n.op = 2 then words n.wts (4 * n.nidx) else []) ++ (if n.op = 0 then [] else words n.offs (4 * n.nseg))

/-- The words of the rows that a request names and keeps, in the order of its positions. -/
def State.nmgRows (s : State) (n : Nreq) (h : Nat) : List Nat :=
  ((((List.range n.nidx).map (s.nmgIndex n)).filter n.keeps).map Int.toNat).eraseDups.flatMap (fun r => (List.range n.rw).map (n.rowWord h r))

/-- The run of a good request: output rows whose reads succeed are written (R410 to R416). Where a pantry word of its lists is not
delivered (R613), or a core's domain is off (R635), every row fails (DESIGN CHOICE: R416 speaks of the table's rows). -/
def State.nmgGo (s : State) (h : Nat) (r : BitVec 512) : State :=
  let n := Nreq.of r
  let rd := s.readWords 15 n.lists
  let pre : Nat × State := (if rd.1 = 0 ∧ !((coreOf? n.dcore).any s.coreOn) then 3 else rd.1, rd.2)
  let s := pre.2
  let ee := if n.op = 0 then ([], 0) else effEnds n.nidx ((List.range n.nseg).map (fun k => s.nmgNum (n.offs + 4 * k) 4))
  let lim := if n.op = 0 then n.nidx else nth 0 (n.nseg - 1) ee.1
  let drops := ((List.range lim).filter (fun i => !(n.keeps (s.nmgIndex n i)))).length
  let reason (j : Nat) : Nat :=
    let p := nmgSpan n.op ee.1 j
    if pre.1 ≠ 0 then pre.1 else (rangeFrom p.1 (p.2 - p.1)).foldl (fun acc i =>
      let x := s.nmgIndex n i
      if acc = 0 ∧ n.keeps x then s.rowFail n h x.toNat else acc) 0
  let bad := (List.range n.outRows).filter (fun j => decide (reason j ≠ 0))
  let s0 := s
  let s := ((s.nmgReads n h lim).bumpLo (rNmgCnt h 0) drops).bumpLo (rNmgCnt h 2) ee.2
  let s := s.bumpHi (rNmgCnt h 1) bad.length
  let s := (List.range n.outRows).foldl (fun s j =>
    if reason j ≠ 0 then s
    else
      let p := nmgSpan n.op ee.1 j
      let val (e : Nat) : Fv :=
        if n.op = 0 then
          let x := s0.nmgIndex n j
          if n.keeps x then s0.rowElem n h x.toNat e else fvZero
        else s0.nmgSum n h p.1 p.2 e
      s.nmgWrite n j ((List.range n.elems).map val)) s
  let run : NmgRun := match bad with
    | [] => ⟨r, 0, 0, 0, 0, drops⟩
    | j :: _ => ⟨r, if bad.length = n.outRows then 2 else 1, reason j, j, bad.length, drops⟩
  let s := match bad with
    | [] => s
    | j :: _ => s.raise fNmgFail 9 h [n.tag, j]
  s.setNmgRun h (some run)

/-- The status record of Table 14-6. -/
def NmgRun.record (x : NmgRun) (time : W64) : List Byte :=
  bytesOf 4 ((Nreq.of x.req).tag + x.status * 2 ^ 16 + x.reason * 2 ^ 24) ++ bytesOf 4 x.first ++ bytesOf 4 x.failed
    ++ bytesOf 4 x.drops ++ bytesOf 8 time.toNat ++ padTo 40 []

/-- NMG_RUN: the engine takes the oldest request and runs it (R409), once the stack has been filled (R401) and no row of it waits for a
snoop (R506). -/
def execNmgRun (h : Stack) (ecc : List (BitVec 48 × Ecc)) (s : State) : Host.Outcome State Fault Refusal := s.live <|
  let s := s.strikes (ecc.map (fun p => (p.1.toNat, p.2)))
  match s.nmgRun h.val, s.nmgQueue h.val with
  | none, r :: rest =>
    if s.memc.hbmFilled && s.domOn (48 + h.val) then
      let code := s.nmgBad (.of r)
      if code ≠ 0 then .next ((s.setNmgQueue h.val rest).setNmgRun h.val (some ⟨r, 3, code, 0, 0, 0⟩))
      else
        let rows := s.nmgRows (.of r) h.val
        let w := s.anyWaits (.gather h.val) (rows.map (fun a => (a, 64))) false
        if w.1 then .next w.2
        else .next (((w.2.setNmgQueue h.val rest).nmgGo h.val r).cohDone (.gather h.val) (rows.map (· / 64)).eraseDups)
    else .next s
  | _, _ => .next s

/-- NMG_DONE: the status record and the flag, in a core whose domain is on (R635), and for a BAD request its count and record (R411,
R417). -/
def execNmgDone (h : Stack) (s : State) : Host.Outcome State Fault Refusal := s.live <|
  match s.nmgRun h.val with
  | none => .next s
  | some x =>
    let n := Nreq.of x.req
    let s := s.setNmgRun h.val none
    let s := match coreOf? n.dcore with
      | some c =>
        if !(s.coreOn c) then s else
        let s := s.wrLocal (pantryBase c + 64 * n.sword) (x.record s.tb.time)
        if n.flagEn then s.setFlag c n.flag true else s
      | none => s
    .next (if x.status = 3 then (s.bumpHi (rNmgCnt h.val 0) 1).raise fNmgBad 9 h.val [n.tag, x.reason] else s)

/-- HBM_NMGREQ: a request is delivered (R409). -/
def execHbmNmgreq (h : Stack) (r : BitVec 512) (s : State) : Host.Outcome State Fault Refusal := s.live <|
  .next (s.ifOn (48 + h.val) (fun s => (s.nmgPush h.val r).2))

end Sys2Proof.Machine
end

