-- ==== Sys2Proof/Machine/ExecMem.lean ====
section
/-! DEFINITION. The events of the memory tiers and of the queue pool (spec/14_memory_tiers.md, spec/15_queue_pool.md). -/
namespace Sys2Proof.Machine

/-- Does a local address belong to an arbiter? The mesh egress of a core carries every address. -/
def State.atCtl (s : State) (m : MemCtl) (a : Nat) : Bool :=
  match m with
  | .hbm h => inHbm a && hbmStack a == h.val
  | .lp c => inLp a && s.lpChan a == c.val
  | .mesh _ => true

/-- MEM_REQUEST: a request arrives at the arbiter of its words (R402). -/
def execMemRequest (m : MemCtl) (r : MemReq) (s : State) : Host.Outcome State Fault Refusal := s.live <|
  .next (if r.words = 0 ∨ !((List.range r.words).all (fun k => s.atCtl m (reqWord r k))) then s else s.setMemReqs m (s.memReqs m ++ [r]))

/-- May an arbiter grant: a tier serves requests once it has been filled (R401). -/
def State.serves (s : State) (m : MemCtl) : Bool :=
  match m with
  | .hbm _ => s.memc.hbmFilled
  | .lp _ => s.memc.lpFilled
  | .mesh _ => true

/-- What is left of a request after n words, if anything. -/
def restOf (r : MemReq) (n : Nat) : Option MemReq := if r.words ≤ n then none else some (reqRest r n)

/-- The words of a transfer that may wait at their lines (R506). -/
def memPieces (r : MemReq) (n : Nat) : List (Nat × Nat) := (List.range n).map (fun k => (reqWord r k, 64))
/-- Who a request is at the directory. -/
def memWho (m : MemCtl) (r : MemReq) : NzWho := .arbiter (ctlIdx m) r.who.toNat

/-- The request of highest score whose words need not wait (R402, R506); the others keep their places. n bounds the search. -/
def State.ready (s : State) (m : MemCtl) : Nat → List MemReq → Option MemReq × State
  | 0, _ => (none, s)
  | n + 1, l =>
    match s.pick m l with
    | none => (none, s)
    | some r =>
      let w := s.anyWaits (memWho m r) (memPieces r (transferWords m r)) r.data.isSome
      if w.1 then w.2.ready m n (replaceReq r none l) else (some r, w.2)
def State.readyReq (s : State) (m : MemCtl) : Option MemReq × State := s.ready m (s.memReqs m).length (s.memReqs m)

/-- Make a transfer: the word at its beginning may have been struck. -/
def State.grant (s : State) (m : MemCtl) (r : MemReq) (n : Nat) (ecc : Ecc) : State :=
  ((s.strike r.addr.toNat ecc).transfer m r n).cohDone (memWho m r) ((memPieces r n).map (fun p => p.1 / 64))

/-- The rest of the transfer that was stopped in a lane is made. -/
def State.grantRest (s : State) (m : MemCtl) (lane : Nat) (r : MemReq) (ecc : Ecc) : State := (s.setMemStopped lane none).grant m r r.words ecc

/-- MEM_GRANT: one transfer of the request of highest score, but first what is left of one that was stopped in its pseudo-channel, channel
or port (R402 to R406). -/
def execMemGrant (m : MemCtl) (ecc : Ecc) (s : State) : Host.Outcome State Fault Refusal := s.live <|
  if s.serves m then
    match s.readyReq m with
    | (some r, s) =>
      let lane := s.lane m r.addr.toNat
      (match s.memStopped lane with
       | some q => .next (s.grantRest m lane q ecc)
       | none =>
         let n := transferWords m r
         .next ((s.setMemReqs m (replaceReq r (restOf r n) (s.memReqs m))).grant m r n ecc))
    | (none, s) =>
      match (lanesOf m).findSome? (fun lane => (s.memStopped lane).map (fun q => (lane, q))) with
      | some (lane, q) => .next (s.grantRest m lane q ecc)
      | none => .next s
  else .next s

/-- MEM_PREEMPT: emergency work stops a granted transfer between whole words, after its first `words` (R406). -/
def execMemPreempt (m : MemCtl) (words : Nat) (s : State) : Host.Outcome State Fault Refusal := s.live <|
  if s.serves m then
    match s.readyReq m with
    | (some r, s) =>
      let n := transferWords m r
      let lane := s.lane m r.addr.toNat
      if words < n ∧ (s.memStopped lane).isNone then
        let s := (s.setMemReqs m (replaceReq r (restOf r n) (s.memReqs m))).grant m r words .ok
        .next ((s.setMemStopped lane (some (reqRest { r with words := n, data := r.data.map (fun d => d.take (64 * n)) } words))).countPreempt m)
      else .next s
    | (none, s) => .next s
  else .next s

/-- HBM_PERIODIC_CAL: emergency work of a pseudo-channel (R406, Table 23-9): it changes no data and no register. -/
def execHbmPeriodicCal (_pc : Fin 256) (s : State) : Host.Outcome State Fault Refusal := s.live <| .next s

/-- Bytes of a tier become zero. -/
def clearTier (inTier : Nat → Bool) (m : List Host.Cell) : List Host.Cell := m.filter (fun e => !(inTier e.1))

/-- The latest stamp of a list of requests. -/
def lastStamp (l : List MemReq) : Nat := (l.map (·.stamp)).foldl max 0

/-- Requests that waited for a fill are stamped when it completes (R401), `late` cycles after the last of them came. -/
def restamp (late lo hi : Nat) (m : SMap (List MemReq)) : SMap (List MemReq) :=
  let t := lastStamp ((m.filter (fun e => decide (lo ≤ e.1) && decide (e.1 < hi))).flatMap (·.2)) + late
  m.map (fun e => if lo ≤ e.1 ∧ e.1 < hi then (e.1, e.2.map (fun r => { r with stamp := t })) else e)

/-- Coherent reads that waited for a tier's fill go on (R401, R506). -/
def State.tierGo (s : State) (inTier : Nat → Bool) : State :=
  (((s.nz.waits.map (·.line)).filter (fun l => inTier (64 * l))).eraseDups).foldl (fun s l => s.dirResume l) s

/-- A tier holds zeros and serves requests (R401); the fills run from boot step 2 on (R527). -/
def State.fillDone (s : State) (t : Tier) : State :=
  if s.boot.phase = 0 then s else
  match t with
  | .hbm => if s.memc.hbmFilled then s else
      State.tierGo { s.tick with
        mem := clearTier inHbm s.mem
        ecc := s.ecc.filter (fun e => !(inHbm e.1))
        memc := { s.memc with hbmFilled := true, reqs := restamp (Config.fillLate s.free) 0 8 s.memc.reqs } } inHbm
  | .lpddr => if s.memc.lpFilled then s else
      State.tierGo { s.tick with
        mem := clearTier inLp s.mem
        ecc := s.ecc.filter (fun e => !(inLp e.1))
        memc := { s.memc with lpFilled := true, reqs := restamp (Config.fillLate s.free) 8 40 s.memc.reqs } } inLp

/-- HBM_PRIOCOMMIT (R10, R407). -/
def State.hbmCommit (s : State) (v : W64) : State := s.commitRegs v ((List.range 7).map rHbmPrio)
/-- LP_PRIOCOMMIT (R10, R407). -/
def State.lpCommit (s : State) (v : W64) : State := s.commitRegs v ((List.range 7).map rLpPrio)
/-- CORE_MPRIOCOMMIT (R10, R653). -/
def State.mprioCommit (s : State) (v : W64) : State := s.commitRegs v [rMprio]

def execHbmPriocommit (v : W64) (s : State) : Host.Outcome State Fault Refusal := s.live <| .next (s.hbmCommit v)
def execLpPriocommit (v : W64) (s : State) : Host.Outcome State Fault Refusal := s.live <| .next (s.lpCommit v)
def execCoreMpriocommit (v : W64) (s : State) : Host.Outcome State Fault Refusal := s.live <| .next (s.mprioCommit v)

/-- PACKET_PUSH: a packet of 1 to 4,096 B, or more cells of one whose producer still writes it, reaches a queue on a pool port (R421,
R425, R426, R433); port 39 is the die bridge. -/
def execPacketPush (q : QueueNo) (port : Fin 40) (data : List Byte) (written : Nat) (s : State) :
    Host.Outcome State Fault Refusal := s.live <|
  let d := dieOf q.val
  let prod := if port.val = 39 then 64 * (1 - d) + 39 else 64 * d + port.val
  .next (if data.length = 0 ∨ 4096 < data.length ∨ !(s.domOn (76 + d)) then s
    else (s.morePkt q.val prod data written).getD (s.pushPkt q.val prod data written))

/-- PACKET_POP: a consumer takes the oldest visible packet (R429, R430, R433); none visible: the pop waits. -/
def execPacketPop (q : QueueNo) (pop : PopCmd) (s : State) : Host.Outcome State Fault Refusal :=
  s.live <| .next (if s.domOn (76 + dieOf q.val) then ((s.strikeLink q.val pop.err).popPkt q.val pop.limit).2 else s)

/-- PACKET_BREAK: the oldest incomplete packet breaks (R434). -/
def execPacketBreak (q : QueueNo) (s : State) : Host.Outcome State Fault Refusal := s.live <| .next (s.breakPkt q.val)

/-- QP_QCFG_WRITE (R427, R428). -/
def execQpQcfgWrite (q : QueueNo) (v : W64) (s : State) : Host.Outcome State Fault Refusal := s.live <|
  .next (s.ifOn (76 + dieOf q.val) (fun s => s.qcfgWrite q.val v))

/-- QP_FLUSH: a write to QP_QCFGq with FLUSH set (R428). -/
def execQpFlush (q : QueueNo) (v : W64) (s : State) : Host.Outcome State Fault Refusal := s.live <|
  .next (s.ifOn (76 + dieOf q.val) (fun s => s.qcfgWrite q.val (v ||| 0x1000000000000000#64)))

end Sys2Proof.Machine
end

