-- ==== Sys2Proof/Machine/Larder.lean ====
section
/-! DEFINITION. Larder words (spec/19_boot_menus_larder.md R537 to R541; spec/23_integrity_selftest_monitors.md R609): the
stored pairs, who may write, the write queue, and what follows when a write is performed. -/
namespace Sys2Proof.Machine

/-! ### Stored words -/

/-- A larder word never written reads zero; its stored complement is all ones. -/
def lardDefault (_ : Nat) : W64 := 0
def lardCDefault (_ : Nat) : W64 := BitVec.allOnes 64

/-- Word n and its stored complement. -/
def State.lardRaw (s : State) (n : Nat) : W64 := s.boot.lard.get lardDefault n
/-- Does word n keep the value it had before OWN_CLEAR, until the next boot (R551)? -/
def State.lardKept (s : State) (n : Nat) : Bool := decide (1 ≤ n) && decide (n ≤ 8) && !s.boot.ownWas.isEmpty
def State.lardOk (s : State) (n : Nat) : Bool := s.lardKept n || s.lardRaw n == ~~~(s.boot.lardC.get lardCDefault n)

/-- What a mismatched word reads as (Table 23-2). -/
def lardFallback (n : Nat) : W64 :=
  if n = 0 then 0xFFFFFFFF
  else if 1 ≤ n ∧ n ≤ 8 then BitVec.allOnes 64
  else if n = 19 then 2
  else if 32 ≤ n ∧ n < 96 then Config.factoryTrim n
  else if n = 98 then 1000
  else 0

/-- Word n as its consumers read it (R609). -/
def State.lardVal (s : State) (n : Nat) : W64 :=
  if s.lardKept n then nth 0 (n - 1) s.boot.ownWas else if s.lardOk n then s.lardRaw n else lardFallback n

/-- Word n as it will stand once the writes that wait are performed: what a new value is formed from. -/
def State.lardNext (s : State) (n : Nat) : W64 := (((s.boot.lardq.filter (fun p => p.1 == n)).getLast?).map (·.2)).getD (s.lardVal n)

/-- Read a word as a consumer: a mismatch is counted and reported (R606, class 10). -/
def State.lardRead (s : State) (n : Nat) : W64 × State :=
  (s.lardVal n, if s.lardOk n then s else s.cmpMiss 10 n 0 16 0)

/-- The 64 bytes of eight words from n: none where one of them mismatches, so that no key matches (Table 23-2). -/
def State.lardDigest (s : State) (n : Nat) : Option (List Byte) :=
  if (rangeFrom n 8).all s.lardOk then some ((rangeFrom n 8).flatMap (fun k => bytesOf 8 (s.lardVal k).toNat)) else none

/-- The words of a digest. -/
def digestWords (n : Nat) (d : List Byte) : List (Nat × W64) :=
  (List.range 8).map (fun k => (n + k, BitVec.ofNat 64 (natOf ((d.drop (8 * k)).take 8))))

/-- Wear of a word, and WORN (R539). -/
def State.wear (s : State) (n : Nat) : W32 := s.boot.wear.get (fun _ => 0) n
def State.worn (s : State) (n : Nat) : Bool := decide (200000 < (s.wear n).toNat)

/-! ### Writers (Table 19-7, Table 23-7) -/

/-- Words the program may write (Table 19-7). DESIGN CHOICE: words 102 and 103, Reserved in Table 22-7, are stored and read back as
LARD_Wn gives them. -/
def lardProgram (n : Nat) : Bool := (decide (96 ≤ n) && decide (n < 104)) || decide (256 ≤ n)

/-- The number of a writer and the core it names. -/
def writerNo : Writer → Nat × Nat
  | .program c => (2, c.val)
  | .mesh c => (2, c.val)
  | .remote _ => (4, 0)
  | .companion => (3, 0)
  | .smbus => (5, 0)
  | .jtag => (6, 0)
  | .image => (1, 0)

/-- Is a writer from outside the enclave and basecamp allowed to write word n? -/
def lardAllows (w : Writer) (n : Nat) : Bool := lardProgram n && ((writerNo w).1 == 2)

/-! ### Writing -/

/-- Queue a write: beyond the eight entries it is held at its writer, behind the queue, in order (R538). -/
def State.lardQueue (s : State) (n : Nat) (v : W64) : State :=
  { s with boot := { s.boot with lardq := s.boot.lardq ++ [(n, v)] } }
def State.lardQueueAll (s : State) (l : List (Nat × W64)) : State := l.foldl (fun s p => s.lardQueue p.1 p.2) s

/-- A write that its writer may not make (R541). -/
def State.lardDeny (s : State) (n : Nat) (w : Writer) : State :=
  (s.bumpLo rLardCnt 1).raise fLardDeny 16 0 [n, (writerNo w).1, (writerNo w).2]

/-- A requester's write: queued, or denied (R541). -/
def State.lardWrite (s : State) (n : Nat) (v : W64) (w : Writer) : State :=
  if lardAllows w n then s.lardQueue n v else s.lardDeny n w

/-- Store a word with its complement and count the wear (R537, R539). -/
def State.lardStore (s : State) (n : Nat) (v : W64) : State :=
  { s with boot := { s.boot with
      lard := s.boot.lard.put lardDefault n v
      lardC := s.boot.lardC.put lardCDefault n (~~~v)
      wear := s.boot.wear.put (fun _ => 0) n (if s.wear n = 0xFFFFFFFF then 0xFFFFFFFF else s.wear n + 1) } }

/-- Is this device paired (R558), and with whom? -/
def State.paired (s : State) : Bool := bitOf (s.lardVal 9) 16
def State.twinId (s : State) : BitVec 16 := BitVec.ofNat 16 (fld (s.lardVal 9) 0 16)
/-- The pair epoch. -/
def State.pairEpoch (s : State) : W64 := s.lardVal 18

/-- The write of word 9 that enrols a twin makes the device paired: it attaches (R559, Table 21-2). -/
def State.enrolled (s : State) : State :=
  if s.pair.st = 0 ∧ s.paired ∧ s.boot.st = 3 then
    { s with pair := { s.pair with st := 1, ran := s.pitchMark, peerOk := true, misses := 0, heard := false } }
  else s

/-- LARD_WRITE. -/
def execLardWrite (n : LardNo) (v : W64) (who : Writer) (s : State) : Host.Outcome State Fault Refusal := s.live <|
  .next (s.lardWrite n.val v who)

/-- LARD_WRITE_DONE: the write in progress is persistent. -/
def execLardWriteDone (s : State) : Host.Outcome State Fault Refusal :=
  match s.boot.lardq with
  | [] => .next s
  | (n, v) :: rest =>
    let s := ({ s with boot := { s.boot with lardq := rest } }).lardStore n v
    .next (if n = 9 then s.enrolled else s)

end Sys2Proof.Machine
end

