-- ==== Sys2Proof/Machine/Pair.lean ====
section
/-! DEFINITION. Roped pairs (spec/21_roped_pairs.md): states, heartbeats, twin lost, attach, resync, rejoin and detach. -/
namespace Sys2Proof.Machine

/-! ### Fields -/

def State.pairLinkA (s : State) : Nat := s.rf rPairCfg 16 5
def State.pairLinkB (s : State) : Nat := s.rf rPairCfg 21 5
def State.missLim (s : State) : Nat := s.rf rPairCfg 26 4
def State.attachWait (s : State) : Nat := s.rf rPairCfg 31 16
def State.rejoinLead (s : State) : Nat := s.rf rPairCfg 47 8
def State.shardGen (s : State) : W32 := BitVec.ofNat 32 (s.rf rPairGen 0 32)
def State.mirrorGen (s : State) : W32 := BitVec.ofNat 32 (s.rf rPairGen 32 32)
def State.onPair (s : State) (f : PairSt → PairSt) : State := { s with pair := f s.pair }
/-- MIRROR_OK (R562). -/
def State.mirrorOk (s : State) : Bool := s.pair.twinGen == some s.mirrorGen

/-! ### Sending on the pair links (R558, R560) -/

/-- The pair links that carry pair traffic now. -/
def State.pairLinks (s : State) : List Link :=
  [s.pairLinkA, s.pairLinkB].eraseDups.filterMap linkOf? |>.filter (fun l => (s.link l).up && !(s.link l).pairBad)

/-- Send a HEART or PAIR packet on every pair link that is UP or DEGRADED; the layout of PAIR bodies is this model's. -/
def State.pairSend (s : State) (ptype : Nat) (body : List Byte) : State :=
  s.pairLinks.foldl (fun s l => s.linkSend l (s.mkPkt s.twinId ptype 0 1 body)) s

/-- The heartbeat body of Table 21-1. -/
def State.heartBody (s : State) : List Byte :=
  bytesOf 6 (s.tb.pitch % 2 ^ 48) ++ bytesOf 1 s.pair.st ++ [0] ++ bytesOf 8 s.pairEpoch.toNat ++ bytesOf 4 s.shardGen.toNat
    ++ bytesOf 4 s.mirrorGen.toNat ++ padTo 8 []

/-- PAIR bodies: 1 ATTACH, 2 detach request, 3 its acknowledgement, 4 rejoin announcement, 5 a transfer of a resync, 6 a
transfer that failed. -/
def State.sendAttach (s : State) : State :=
  s.pairSend 10 (bytesOf 8 1 ++ bytesOf 8 s.pairEpoch.toNat ++ bytesOf 4 s.shardGen.toNat ++ bytesOf 4 s.mirrorGen.toNat)

/-! ### Twin lost (R563, R564) -/

/-- A 64 B packet that basecamp pushes to queue 1. -/
def State.noticePkt (s : State) (v : Nat) : State := s.pushPkt 1 (campProd 1) (padTo 64 (bytesOf 8 v)) 1

/-- Enter SOLO: the epoch is raised and the loss reported; `full` adds the start requests and the packet. -/
def State.enterSolo (s : State) (full : Bool) : State :=
  let ok := s.mirrorOk
  let s := s.onPair (fun p => { p with st := 3, resync := 0, todo := [], rejoin := none, asked := none })
  let s := s.lardQueue 18 (s.lardNext 18 + 1)
  let s := if full then
      let cores := (List.finRange 48).filter (fun c => bitOf (s.reg rPairFailcores) c.val)
      let s := cores.foldl (fun s c =>
        s.requestStart c 3 ⟨s.rf rPairFailstep 0 20, BitVec.ofNat 64 s.twinId.toNat, none⟩) s
      s.noticePkt s.twinId.toNat
    else s
  s.raise fPairLost 18 0 [b2n ok]

/-- Leave the pair: word 9 bit 16 is cleared and the device is UNPAIRED (R572). -/
def State.unpair (s : State) : State :=
  (s.lardQueue 9 (setFld (s.lardNext 9) 16 1 0)).onPair (fun p => { p with st := 0, release := none, asked := none, resync := 0, todo := [], rejoin := none })

/-- The twin is lost (R561, R563, R564): an ATTACHING device then waits for a peer under R565. -/
def State.twinLost (s : State) : State :=
  match s.pair.st with
  | 2 => s.enterSolo true
  | 1 => s.onPair (fun p => { p with peerOk := false })
  | 5 => s.unpair
  | _ => s

/-! ### Resync (R568, R569) -/

/-- A resync ends without completing: the states stay, and the whole runs again at the next attach attempt. -/
def State.resyncFail (s : State) (link addr : Nat) : State :=
  if s.pair.resync = 0 then s
  else (((s.onPair (fun p => { p with resync := 0, todo := [], rejoin := none })).cohLeave (· == .camp 0)).bumpLo (rPairCnt 1) 1).raise fPairResync 18 0 [link, addr]

/-- The shard ranges in index order: base, length, and place in the mirror (R562). -/
def State.shardRanges (s : State) : List (Nat × Nat × Nat) :=
  ((List.range 8).foldl (fun (acc : Nat × List (Nat × Nat × Nat)) n =>
    let len := s.rf (rPairShlen n) 0 40
    (acc.1 + len, acc.2 ++ [(localOf (s.rf (rPairShbase n) 0 64), len, acc.1)])) (0, [])).2

/-- A copy cut into transfers of at most 2,048 B: source, destination in the twin, length. -/
def copyPieces (src dst len : Nat) : List (Nat × Nat × Nat) :=
  (List.range (ceilDiv len 2048)).map (fun i => (src + 2048 * i, dst + 2048 * i, min 2048 (len - 2048 * i)))

/-- What this device copies to its twin (R568): its own shard into the mirror there, and as the source of a FULL resync first
its mirror of the twin's shard into the ranges there; the twin's ranges lie where this device's lie. -/
def State.resyncPieces (s : State) : List (Nat × Nat × Nat) :=
  let m := localOf (s.rf rPairMbase 0 64)
  let own := s.shardRanges.flatMap (fun r => copyPieces r.1 (m + r.2.2) r.2.1)
  match s.pair.resync with
  | 1 => s.shardRanges.flatMap (fun r => copyPieces (m + r.2.2) r.1 r.2.1) ++ own
  | 3 => own
  | _ => []

/-- The number by which a PAIR packet names a pair link: 0 LINK_A, 1 LINK_B; and the link that a number names here. -/
def State.pairLinkNo (s : State) (l : Link) : Nat := b2n (l.val != s.pairLinkA)
def State.pairLinkOf (s : State) (i : Nat) : Nat := if i = 0 then s.pairLinkA else s.pairLinkB

/-- One transfer of a resync over a pair link: a PAIR packet of kind 5 with its destination, the link and the bytes. -/
def State.resyncSend (s : State) (l : Link) (p : Nat × Nat × Nat) : State :=
  let words := (List.range (p.2.2 / 64)).map (fun i => p.1 + 64 * i)
  let r := s.readWords 14 (words.map (fun a => (s.full a).toNat))
  if r.1 ≠ 0 then r.2.resyncFail l.val p.1
  else r.2.linkSend l (r.2.mkPkt s.twinId 10 0 1
    (bytesOf 8 5 ++ bytesOf 8 p.2.1 ++ bytesOf 8 (s.pairLinkNo l) ++ words.flatMap (fun a => bytesOf 64 (r.2.wordAt a))))

/-- The transfers of a resync that need not wait for words (R401, R506) are sent, on the pair links in turn (R568). -/
def State.resyncPump (s : State) : Nat → State
  | 0 => s
  | n + 1 =>
    let ls := s.pairLinks
    match s.pair.todo, ls[n % ls.length]? with
    | p :: ps, some l =>
      let w := s.anyWaits (.camp 0) (piecesOf p.1 p.2.2) false
      if w.1 then w.2
      else (((w.2.onPair (fun q => { q with todo := ps })).resyncSend l p).cohDone (.camp 0) (linesOf p.1 p.2.2)).resyncPump n
    | _, _ => s
def State.pairPump (s : State) : State := s.resyncPump s.pair.todo.length
/-- A resync starts. -/
def State.resyncGo (s : State) : State := (s.onPair (fun p => { p with todo := s.resyncPieces })).pairPump

/-- The first address that a resync loses with a link, as it was before: that of a transfer which the link held, or which was to come
next. -/
def State.resyncLost (s : State) (l : Link) : Nat :=
  let x := s.link l
  let held := (x.lostPkts ++ x.waitingPkts).filter (fun p => p.ptype == 10 && p.src == s.devId && natOf (p.body.take 8) == 5)
  match held.head?, s.pair.todo.head? with
  | some p, _ => natOf ((p.body.drop 8).take 8)
  | none, some p => p.2.1
  | none, none => 0

/-- Two SOLO twins meet (R571): the lower device ID stays SOLO as source. -/
def State.soloMeet (s : State) (epoch : W64) : State :=
  if s.devId.toNat < s.twinId.toNat then s.onPair (fun p => { p with st := 3, resync := 1 })
  else s.onPair (fun p => { p with st := 4, resync := 2, twinEpoch := epoch })

/-- Table 21-3: what an ATTACH message of the twin does. The epoch is raised on each entry to SOLO (note to R567). -/
def State.attachOutcome (s : State) (m : AttachMsg) : State :=
  let own := s.lardNext 18
  if own.toNat < m.epoch.toNat then s.onPair (fun p => { p with st := 4, resync := 2, twinEpoch := m.epoch })
  else if m.epoch.toNat < own.toNat then
    (if s.pair.st = 3 then s else s.lardQueue 18 (own + 1)).onPair (fun p => { p with st := 3, resync := 1 })
  else if s.pair.st = 3 ∧ s.pair.twinSt = some 3 then s.soloMeet m.epoch
  else if s.pair.st = 4 then s.onPair (fun p => { p with resync := 2, twinEpoch := m.epoch })
  else if m.shardGen = s.mirrorGen ∧ s.shardGen = m.mirrorGen then s.onPair (fun p => { p with st := 2, resync := 0, misses := 0 })
  else s.onPair (fun p => { p with st := 1, resync := 3 })

/-! ### Events -/

/-- Is this the device's twin on a link that carries pair traffic? -/
def State.fromTwin (s : State) (l : Link) (src : BitVec 16) : Bool :=
  s.isPairLink l.val && (s.link l).up && !(s.link l).pairBad && src == s.twinId && s.pair.st != 0

/-- An attach attempt (R566, R569): ATTACH goes to the twin. -/
def State.attachTry (s : State) : State := if s.pair.st = 0 ∨ s.pair.st = 5 then s else s.sendAttach

/-- HEARTBEAT_RECEIVE (R561, R569, R571). -/
def execHeartbeatReceive (l : Link) (hb : Heartbeat) (s : State) : Host.Outcome State Fault Refusal := s.live <|
  if s.fromTwin l hb.src then
    let s := s.onPair (fun p => { p with
      heard := true, twinGen := some hb.shardGen, srcGen := some hb.shardGen, twinSt := some hb.state.toNat, twinEpoch := hb.epoch })
    if s.pair.st = 3 ∧ hb.state = 3 ∧ s.pair.resync = 0 then .next (s.soloMeet hb.epoch).resyncGo
    else if s.pair.resync = 0 ∧ (s.pair.st = 1 ∨ s.pair.st = 3 ∨ s.pair.st = 4) then .next s.sendAttach
    else .next s
  else .next s

/-- ATTACH_WAIT_EXPIRY (R565). -/
def execAttachWaitExpiry (s : State) : Host.Outcome State Fault Refusal := s.live <|
  if s.boot.st = 3 ∧ s.pair.st = 1 ∧ !s.pair.peerOk ∧ s.pitchesPast s.pair.ran s.attachWait then .next (s.enterSolo false) else .next s

/-- ATTACH_MSG (R566). -/
def execAttachMsg (l : Link) (m : AttachMsg) (s : State) : Host.Outcome State Fault Refusal := s.live <|
  if s.fromTwin l m.src ∧ s.pair.resync = 0 ∧ (s.pair.st = 1 ∨ s.pair.st = 3 ∨ s.pair.st = 4) then
    let s := s.onPair (fun p => { p with srcGen := some m.shardGen, peerOk := true })
    let s := if s.pair.st = 1 then s else s.sendAttach
    .next (s.attachOutcome m).resyncGo
  else .next s

/-- RESYNC_DONE (R568, R570): the receiver's mirror has the sender's generation, and a source announces the rejoin pitch, in a MIRROR
resync the first of the two to be done. -/
def execResyncDone (s : State) : Host.Outcome State Fault Refusal := s.live <|
  if s.pair.resync = 0 ∨ s.pair.todo ≠ [] then .next s
  else
    let at' := s.tb.pitch + s.rejoinLead
    let s := if s.pair.resync = 1 then s else
      match s.pair.srcGen with
      | some g => s.setRf rPairGen 32 32 g.toNat
      | none => s
    .next (if s.pair.resync = 2 ∨ s.pair.rejoin.isSome then s
      else (s.onPair (fun p => { p with rejoin := some at' })).pairSend 10 (bytesOf 8 4 ++ bytesOf 8 at'))

/-- REJOIN_PITCH (R570). -/
def execRejoinPitch (s : State) : Host.Outcome State Fault Refusal := s.live <|
  match s.pair.rejoin with
  | some p =>
    if p ≤ s.tb.pitch ∧ s.pair.resync ≠ 0 then
      let s := if s.pair.st = 4 then s.lardQueue 18 s.pair.twinEpoch else s
      .next (s.onPair (fun p => { p with st := 2, resync := 0, rejoin := none, misses := 0 }))
    else .next s
  | none => .next s

/-- A write of DETACH (R572). -/
def State.detach (s : State) : State :=
  match s.pair.st with
  | 2 =>
    let at' := s.tb.pitch + s.rejoinLead
    (s.onPair (fun p => { p with asked := some s.pitchMark, release := some at' })).pairSend 10 (bytesOf 8 2 ++ bytesOf 8 at')
  | 3 => s.unpair
  | _ => s

/-- DETACH. -/
def execDetach (s : State) : Host.Outcome State Fault Refusal := s.live <| .next s.detach

/-- ATTACH (R569). -/
def execAttach (s : State) : Host.Outcome State Fault Refusal := s.live <| .next s.attachTry

/-- DETACH_ACK (R572). -/
def execDetachAck (s : State) : Host.Outcome State Fault Refusal := s.live <|
  if s.pair.st = 2 ∧ s.pair.asked.isSome then .next (s.onPair (fun p => { p with st := 5, asked := none })) else .next s

/-- PAIR_DETACH (R573): no acknowledgement within 8 pitches. -/
def execPairDetach (s : State) : Host.Outcome State Fault Refusal := s.live <|
  match s.pair.st, s.pair.asked with
  | 2, some p =>
    if s.pitchesPast p 8 then .next ((s.onPair (fun p => { p with asked := none, release := none })).raise fPairDetach 18 0 []) else .next s
  | _, _ => .next s

/-- RELEASE_PITCH (R572). -/
def execReleasePitch (s : State) : Host.Outcome State Fault Refusal := s.live <|
  match s.pair.st, s.pair.release with
  | 5, some p => if p ≤ s.tb.pitch then .next s.unpair else .next s
  | _, _ => .next s

/-- A PAIR packet that the link layer delivers: a detach request of the twin is acknowledged (R572), an announced rejoin pitch is
taken, of two that cross the later (R570), a transfer of a resync is written once its words need not wait (R401, R506) and one that fails ends the resync (R568,
R569); ATTACH and acknowledgements are the commands ATTACH_MSG and DETACH_ACK. -/
def State.pairPkt (s : State) (p : Pkt) : State :=
  let kind := natOf (p.body.take 8)
  let arg := natOf ((p.body.drop 8).take 8)
  if p.src ≠ s.twinId then s
  else if kind = 2 ∧ s.pair.st = 2 then
    (s.pairSend 10 (bytesOf 8 3 ++ bytesOf 8 arg)).onPair (fun q => { q with st := 5, release := some arg, asked := none })
  else if kind = 4 ∧ s.pair.resync ≠ 0 then s.onPair (fun q => { q with rejoin := some (max arg (q.rejoin.getD 0)) })
  else if kind = 5 ∧ s.pair.resync ≠ 0 then
    let link := natOf ((p.body.drop 16).take 8)
    let bs := p.body.drop 24
    let w := s.anyWaits (.camp 1) (piecesOf arg bs.length) true
    if w.1 then { w.2 with bv := { w.2.bv with arrived := w.2.bv.arrived ++ [p] } } else
    let r := w.2.wrFull 14 (s.full arg).toNat bs
    let r : Nat × State := (r.1, r.2.cohDone (.camp 1) (linesOf arg bs.length))
    if r.1 = 0 then r.2
    else (r.2.pairSend 10 (bytesOf 8 6 ++ bytesOf 8 arg ++ bytesOf 8 link)).resyncFail (s.pairLinkOf link) arg
  else if kind = 6 then s.resyncFail (s.pairLinkOf (natOf ((p.body.drop 16).take 8))) arg
  else s

end Sys2Proof.Machine
end

