-- ==== Sys2Proof/Machine/Weights.lean ====
section
/-! DEFINITION. Weight loads from the companion or another device (spec/19_boot_menus_larder.md R526, Table 19-4): the entries, and the
words that a load asks for. Boot itself stands in Machine/Boot.lean. -/
namespace Sys2Proof.Machine

/-- Fields of a weight load entry (Table 19-4). -/
def wlFld (e : List Byte) (o n : Nat) : Nat := natOf ((e.drop o).take n)
def wlKind (e : List Byte) : Nat := wlFld e 0 1
def wlSrc (e : List Byte) : Nat := wlFld e 8 8
def wlDst (e : List Byte) : Nat := wlFld e 16 8 % 2 ^ 48
def wlLen (e : List Byte) : Nat := wlFld e 24 8
def wlDigest (e : List Byte) : List Byte := (e.drop 64).take 64

/-- Does the destination wait for the LPDDR fill (R401)? -/
def State.wlWaits (s : State) (e : List Byte) : Bool := inLp (wlDst e) && !s.memc.lpFilled

/-- The addresses of the words that a COMPANION or PEER entry reads. -/
def wlWords (e : List Byte) : List Nat := (rangeFrom (wlSrc e / 64) (ceilDiv (wlSrc e % 64 + wlLen e) 64)).map (64 * ·)

/-- Ask for a word, unless it has come or is on its way. A read that failed because its path was not up is made again, as is any that
failed at another device (DESIGN CHOICE: R526 fails a load only by its digest or by LOAD_WAIT). -/
def State.wlAsk (s : State) (kind a : Nat) : State :=
  let again := match findGot a s.boot.got with
    | none => true
    | some (.failed r _) => kind == 2 || r == 2
    | some _ => false
  if !again then s
  else if kind = 1 then s.cmemAsk (.load a) (localOf a) none
  else s.remoteAsk (.load a) (BitVec.ofNat 64 a) none

/-- The COMPANION or PEER load in progress asks for its words: over the Nimzen link (R504), or in READ packets (R20). -/
def State.wlPump (s : State) : State :=
  match s.boot.phase, s.boot.weights with
  | 3, (_, e) :: _ =>
    if (wlKind e = 1 ∨ wlKind e = 2) ∧ !(s.wlWaits e) then (wlWords e).foldl (fun s a => s.wlAsk (wlKind e) a) s else s
  | _, _ => s

/-- The bytes of a load whose words have all come. -/
def State.wlData (s : State) (e : List Byte) : Option (List Byte) :=
  let ws := (wlWords e).filterMap (fun a => match findGot a s.boot.got with
    | some (.data v) => some v.toNat
    | _ => none)
  if ws.length = (wlWords e).length then some (((ws.flatMap (bytesOf 64)).drop (wlSrc e % 64)).take (wlLen e)) else none

end Sys2Proof.Machine
end

