-- ==== Sys2Proof/Machine/ExecLinks.lean ====
section
/-! DEFINITION. The events of the Borvik links (spec/17_borvik_links.md), but for those that reach an address. -/
namespace Sys2Proof.Machine

/-! ### What follows when a link leaves UP or DEGRADED -/

/-- Rings that send on the link fail (R484), a resync over it ends with the first address it lost (R569), packets still coming in on its
pool port break (R434), and units that waited may move on. `old` is the state in which it still ran. -/
def State.linkGone (old s : State) (l : Link) : State :=
  let s := old.collLinkFail s l
  let s := if s.isPairLink l.val then s.resyncFail l.val (old.resyncLost l) else s
  (s.breakPort (linkProd l.val)).settleAll.collAll

/-- Compare with the state before: did link l leave UP or DEGRADED? -/
def State.linkCheck (old s : State) (l : Link) : State := if (old.link l).up && !(s.link l).up then old.linkGone s l else s

/-- LINK_DOWN: loss of signal, or another reason that takes a running link DOWN (R477, R490). -/
def execLinkDown (l : Link) (reason : BitVec 4) (s : State) : Host.Outcome State Fault Refusal := s.live <|
  if (s.link l).up then .next (s.linkCheck (s.linkDown l reason.toNat) l) else .next s

/-! ### Flits and records -/

/-- A SEAL closes a record: hops whose flits R471 discarded fail (R484). -/
def State.closeReceived (s : State) (l : Link) (flit : BitVec 2048) : State :=
  let r := s.sealRecord l flit
  s.linkCheck (r.2.foldl (fun s h => s.cutFail l h) r.1) l

/-- FLIT_RECEIVE (R461, R462, R463, R471): a flit arrives at a link that is UP or DEGRADED. -/
def execFlitReceive (l : Link) (flit : BitVec 2048) (s : State) : Host.Outcome State Fault Refusal := s.live <|
  if (s.link l).up then
    let r := s.checkFlit l flit
    if r.1 then .next (if flitKind flit = 2 then r.2.closeReceived l flit else r.2.takeFlit l flit)
    else .next r.2
  else .next s

/-- SEAL_RECEIVE (R466): the SEAL that closes a record. -/
def execSealReceive (l : Link) (flit : BitVec 2048) (s : State) : Host.Outcome State Fault Refusal := s.live <|
  if (s.link l).up && flitKind flit == 2 then
    let r := s.checkFlit l flit
    .next (if r.1 then r.2.closeReceived l flit else r.2)
  else .next s

/-- RETRY_REQUEST (R463): the sender resends in order from the named flit. -/
def execRetryRequest (l : Link) (seq : BitVec 10) (s : State) : Host.Outcome State Fault Refusal := s.live <|
  if (s.link l).up && (s.link l).replay.any (fun f => f.seq == seq.toNat) then .next (s.linkCheck (s.resend l seq.toNat) l) else .next s

/-- ACK_TIMEOUT (R463): where no ACK has arrived for 2 µs, the sender resends from its oldest unacknowledged flit. -/
def execAckTimeout (l : Link) (s : State) : Host.Outcome State Fault Refusal := s.live <|
  let x := s.link l
  match x.replay with
  | f :: _ =>
    (match s.reachBy (x.ackAt.toNat + 2000) with
     | some t => if x.up then .next (t.linkCheck ((t.setLink l { x with ackAt := t.tb.time }).resend l f.seq) l) else .next s
     | none => .next s)
  | [] => .next s

/-- RECORD_CLOSE of a link (R465, R468 to R470). -/
def State.linkRecord (s : State) (l : Link) : State :=
  if (s.link l).up && !(s.calNow l.val) then s.linkCheck ((s.sendRecord l).autoRekey l) l else s

/-! ### Packets -/

/-- Does a device that does not serve answer a packet with NACK 3 (R567)? -/
def State.staleDenies (s : State) (p : Pkt) : Bool :=
  (s.pair.st == 1 || s.pair.st == 4) && (p.vc == 1 || p.vc == 2) && p.ptype != 9 && p.ptype != 10

/-- Count a refusal of R567. -/
def State.countDeny (s : State) : State := s.bumpHi (rPairCnt 0) 1

/-- A packet for this device is handed to what acts on it. -/
def State.deliver (s : State) (p : Pkt) : State :=
  if s.staleDenies p then (s.nack p 3 0).countDeny
  else if p.ptype = 5 ∧ p.vc = 0 then s.collPkt p
  else if p.ptype = 10 then s.pairPkt p
  else if belayRefusal p then s.belayRefused p
  else { s with bv := { s.bv with arrived := s.bv.arrived ++ [p] } }

/-- PACKET_FORWARD (R473 to R475): a packet of this device's own or one that a link delivered is delivered here or routed. -/
def execPacketForward (p : Pkt) (s : State) : Host.Outcome State Fault Refusal := s.live <|
  let own := s.bv.out.contains p
  let s := { s with bv := { s.bv with out := s.bv.out.erase p, arrived := s.bv.arrived.erase p } }
  if p.dest = s.devId then .next (s.deliver p)
  else if own || p.src == s.devId then .next (s.routePkt p)
  else .next (s.forward p)

/-! ### Link states (Table 17-7) -/

/-- The 1 ms of DOWN have passed (R490). -/
def State.linkTimer (s : State) (l : Link) : State :=
  let x := s.link l
  if x.st = 1 then (match s.linkOver 1 x.since with
    | some t => t.setLink l { x with st := 2, since := t.tb.time }
    | none => s)
  else s

/-- A link has trained: x8 at full rate, or a fallback the image allows (R459, R490). -/
def State.linkTrained (s : State) (l : Link) (x4 laneHi half : Bool) : State :=
  let x := s.link l
  let cfg := s.reg (rLcfg l.val)
  if x.st = 2 && (!x4 || bitOf cfg 1) && (!half || bitOf cfg 0) then
    s.setLink l { x with st := 3, since := s.tb.time, x4 := x4, laneHi := x4 && laneHi, half := half } else s

/-- Training has taken 500 ms, reason 4, or keying 20 ms, reason 5. -/
def State.linkTimeout (s : State) (l : Link) : State :=
  let x := s.link l
  if x.st = 2 ∨ x.st = 3 then (match s.linkOver x.st x.since with
    | some t => t.linkDown l (x.st + 2)
    | none => s)
  else s

/-- Is this device the end that encapsulates: the lower device ID, or of equal IDs the lower link number (R549)? -/
def State.lowerEnd (s : State) (l : Link) (peer : BitVec 16) (peerLink : Nat) : Bool :=
  decide (s.devId.toNat < peer.toNat) || (s.devId == peer && decide (l.val ≤ peerLink))
/-- What names the two ends in the transcript: public keys, device IDs and link numbers, those of the lower end first (R549; DEDUCED
order). -/
def State.ends (s : State) (l : Link) (peer : PeerOffer) (peerLink : Nat) : List Byte :=
  let a := (Config.idKey, bytesOf 2 s.devId.toNat, bytesOf 1 l.val)
  let b := (peer.key, bytesOf 2 peer.devId.toNat, bytesOf 1 peerLink)
  let p := if s.lowerEnd l peer.devId peerLink then (a, b) else (b, a)
  p.1.1 ++ p.2.1 ++ p.1.2.1 ++ p.2.2.1 ++ p.1.2.2 ++ p.2.2.2

/-- Fresh keys and an empty sender and receiver: a session begins (R487, R549). `ends` is the part of the transcript that names the
two ends and `up` says that this device's direction is "UP". -/
def LinkSt.newSession (x : LinkSt) (draw : Nat) (ends : List Byte) (up : Bool) (peer : BitVec 16) : LinkSt :=
  let t := Config.transcript ends draw
  { x with st := if x.x4 || x.half then 5 else 4, peer := peer, tries := 0, txKey := Config.sessionKey draw t up
           rxKey := Config.sessionKey draw t (!up), sig := Config.idSign t, ends := ends, upward := up, session := x.session + 1
           txSeq := 0, rxSeq := 0, rxAck := 1023, txRec := 0, rxRec := 0, recs := 0, credits := [192, 192, 192, 192]
           back := [0, 0, 0, 0], replay := [], resends := [], rx := [], cut := [], lost := false, fails := 0, parts := [] }

/-- The first KEYING on a pair link enrols the twin (R559). -/
def State.enrol (s : State) (l : Link) (peer : PeerOffer) : State :=
  if !s.paired && s.rf rPairCfg 30 1 == 1 && s.isPairLink l.val && s.rf rPairCfg 0 16 == peer.devId.toNat
      && !(s.boot.lardq.any (fun e => e.1 == 9)) then
    (s.lardQueueAll (digestWords 10 (Config.sha3 peer.key) ++ [(18, 0)])).lardQueue 9
      (BitVec.ofNat 64 (peer.devId.toNat + 2 ^ 16))
  else s

/-- The check of R565 on a pair link, and the ATTACH message that follows when it passes. -/
def State.pairCheck (s : State) (l : Link) (peer : PeerOffer) : State :=
  if s.isPairLink l.val && s.paired then
    let good := peer.devId == s.twinId && s.lardDigest 10 == some (Config.sha3 peer.key)
    let x := s.link l
    if good then
      let s := (s.setLink l { x with pairBad := false }).onPair (fun p => { p with peerOk := true })
      if s.pair.st = 1 then s.sendAttach else s
    else (s.setLink l { x with pairBad := true }).raise fPairId 18 0 [l.val]
  else s

/-- What waits for a link that is now UP: credits for previous stages behind it (R167), and a weight load (R526). -/
def State.linkUpGo (s : State) (l : Link) : State :=
  ((List.finRange 48).foldl (fun s c => (List.finRange 8).foldl (fun s n =>
    let b := (s.belay c n).ctl
    if b.prevKind = 2 ∧ b.prevLink = l.val then s.belayGive c n 2 else s) s) s).wlPump

/-- LINK_KEYING (R487, R488, R546, R548, R549). -/
def execLinkKeying (l : Link) (peer : PeerOffer) (s : State) : Host.Outcome State Fault Refusal := s.live <|
  let x := s.link l
  if x.st ≠ 3 then .next s
  else if s.sec.trngFail then .next (s.linkDown l 5)
  else
    let draw := s.free
    let s := s.tick
    let cfg := s.reg (rLcfg l.val)
    let ends := s.ends l peer (Config.peerLink draw)
    let bad := !(Config.certOk peer.key peer.cert) || !(Config.mldsaVerify peer.key (Config.transcript ends draw) peer.sig)
      || (bitOf cfg 3 && fld cfg 4 16 != peer.devId.toNat)
    if bad then
      .next (((s.setLink l { x with st := 6, peer := peer.devId }).bumpHi (rBvCnt 1) 1).raise fLinkPeer 13 l.val
        [l.val, peer.devId.toNat])
    else
      let s := s.setLink l (x.newSession draw ends (s.lowerEnd l peer.devId (Config.peerLink draw)) peer.devId)
      .next (((s.enrol l peer).pairCheck l peer).linkUpGo l)

/-- REKEY (R489): both directions take fresh keys from record boundaries that CTRL flits name; traffic continues. -/
def State.rekeyLink (s : State) (l : Link) : State :=
  if (s.link l).up then
    let t := s.askRekey l
    s.linkCheck (if (t.link l).up then t.sendCtrl l ctrlAskRekey else t) l
  else s

def execRekey (l : Link) (s : State) : Host.Outcome State Fault Refusal := s.live <|
  .next (s.ifOn (linkDom l.val) (fun s => s.rekeyLink l))

/-- RETRAIN (R490, Table 17-7): a link that is not OFF goes to TRAINING. -/
def State.retrainLink (s : State) (l : Link) : State :=
  let x := s.link l
  if x.st = 0 ∨ x.st = 2 then s
  else
    let t := if x.up then s.linkGone ((s.linkDrop l).setLink l { (s.linkDrop l).link l with st := 2 }) l else s
    t.setLink l { t.link l with st := 2, since := s.tb.time }

def execRetrain (l : Link) (s : State) : Host.Outcome State Fault Refusal := s.live <|
  .next (s.ifOn (linkDom l.val) (fun s => s.retrainLink l))

/-- WAKE_TX (R491): the pattern is seen by the other end only. -/
def execWakeTx (l : Link) (s : State) : Host.Outcome State Fault Refusal := s.live <| .next (s.ifOn (linkDom l.val) (fun s => s))

/-- May a link leave OFF: in use, powered, its pads released, and the device has its identity (R546, R592)? -/
def State.linkMayStart (s : State) (l : Link) : Bool :=
  bitOf (s.reg rBvCfg) (16 + l.val) && s.powered (linkDom l.val) && !(NSet.has (linkDom l.val) s.pwr.pads) && s.sec.ident
    && decide (3 ≤ s.boot.phase) && s.boot.st != 4

/-- A link leaves OFF where it may. -/
def State.linkStart (s : State) (l : Link) : State :=
  let x := s.link l
  if x.st = 0 ∧ s.linkMayStart l then s.setLink l { x with st := 2, since := s.tb.time } else s

/-- May a half leave OFF? -/
def State.halfMayStart (s : State) (h : Half) : Bool :=
  s.powered (halfDom h) && !(NSet.has (halfDom h) s.pwr.pads) && (bitOf (s.reg rNzCfg) h.val || s.boot.st == 4)

/-- A half leaves OFF where it may. -/
def State.halfStart (s : State) (h : Half) : State :=
  let x := s.half h
  if x.st = 0 ∧ s.halfMayStart h then s.setHalf h { x with st := 2, since := s.tb.time } else s

end Sys2Proof.Machine
end

