-- ==== Sys2Proof/Machine/Power.lean ====
section
/-! DEFINITION. Power domains, power states, waking and supply control (spec/22_power.md R575 to R604). -/
namespace Sys2Proof.Machine

def State.onPwr (s : State) (f : PwrSt → PwrSt) : State := { s with pwr := f s.pwr }

/-! ### Domains (Table 22-1) -/

def allDoms : NSet := List.range 80
/-- The domains a domain needs on. -/
def domNeeds (d : Nat) : List Nat :=
  if d < 48 then [79, 74 + d / 24, 76 + d / 24]
  else if d < 52 then [74] else if d < 56 then [75]
  else if d < 62 then [76] else if d < 68 then [77]
  else if d = 68 ∨ d = 70 ∨ d = 71 ∨ d = 78 then [76]
  else if d = 69 ∨ d = 72 ∨ d = 73 then [77]
  else []
/-- The step of Table 22-6 that switches a domain on. -/
def wakeStepOf (d : Nat) : Nat :=
  if d < 48 then 6 else if d < 56 then 4 else if d < 70 then 7 else if d < 74 then 4
  else if d = 76 ∨ d = 77 then 2 else if d = 78 then 5 else 3
/-- Rails (Table 22-9): 0, 1 VDD_CORE; 2, 3 VDD_PAN; 4, 5 VDD_IOD. -/
def railDoms (r : Nat) : List Nat :=
  let d := r % 2
  let cores := rangeFrom (24 * d) 24
  match r / 2 with
  | 0 => cores
  | 1 => cores ++ [74 + d]
  | _ => rangeFrom (56 + 6 * d) 6 ++ [68 + d, 70 + 2 * d, 71 + 2 * d, 76 + d] ++ (if d = 0 then [78] else [])

/-- VDD_CORE of an operating point in mV (Table 22-10). -/
def opMv (op : Nat) : Nat := nth 570 op [780, 700, 630]
/-- The voltage at which a rail works. -/
def State.railPoint (s : State) (r : Nat) : Nat := if r < 2 then opMv s.pwr.opNow else 750
def State.rail (s : State) (r : Nat) : Nat := nth 0 r s.pwr.rails

/-! ### Requests (R579 to R583) -/

def State.retGran (s : State) : Nat := s.rf rPwrRetcfg 0 13
def State.saveBase (s : State) : Nat := s.rf rPwrRetcfg 13 15 * 2 ^ 24

/-- A request is refused: domain and reason (R579, R581). -/
def State.pwrRefuse (s : State) (dom reason : Nat) : State :=
  let v : W64 := BitVec.ofNat 64 (dom + 2 ^ 7 * reason + 2 ^ 16 * (s.tb.pitch % 2 ^ 48))
  (((s.onPwr (fun p => { p with req := none })).setReg rPwrRefuse v).bumpLo (rPwrCnt 0) 1).raise fPwrRefused 19 0 [dom, reason]
/-- The controller itself refuses a request, one in progress going on. -/
def State.pwrReject (s : State) : State :=
  let r := s.pwr.req
  (s.pwrRefuse 127 6).onPwr (fun p => { p with req := r })

/-- The domains that PWR_REQDOM names. -/
def State.reqDoms (s : State) : NSet :=
  allDoms.filter (fun d => if d < 64 then bitOf (s.reg (rPwrReqdom 0)) d else bitOf (s.reg (rPwrReqdom 1)) (d - 64))

/-- Does Table 22-3 allow a request to sleep? -/
def sleepAllowed (st goal : Nat) : Bool :=
  if st ≤ 1 then decide (1 ≤ goal) && decide (goal ≤ 4) else st == 2 && decide (2 ≤ goal) && decide (goal ≤ 4)

/-- A request for IDLE, NAP, BIVOUAC or WATCH. -/
def State.pwrTake (s : State) (goal : Nat) (save : Bool) (len : Nat) (mask : NSet) : State :=
  if s.pwr.req.isSome || s.pwr.wake.isSome || !(sleepAllowed s.pwr.st goal) then s.pwrReject
  else
    let doms := (if goal ≤ 2 then mask else allDoms).filter s.powered
    s.onPwr (fun p => { p with req := some ⟨goal, doms, save && decide (3 ≤ goal), if len = 0 then none else some (s.tb.pitch + len), 0, [], s.tb.time⟩ })

/-- The answers to a query (Table 22-4). -/
inductive DomAns | accept | delay | refuse (reason : Nat)
deriving DecidableEq, Repr

/-- Is a domain needed by another that stays on? -/
def State.neededOn (s : State) (r : PwrReq) (d : Nat) : Bool :=
  r.goal != 1 && allDoms.any (fun e => s.powered e && !(NSet.has e r.doms) && (domNeeds e).contains d)

def delayIf (b : Bool) : DomAns := if b then .delay else .accept

/-- A half has requests outstanding. -/
def State.halfBusy (s : State) (h : Half) : Bool :=
  let x := s.half h
  !(x.reqs.isEmpty && x.arrived.isEmpty && x.pops.isEmpty && !(x.msgs.any (fun m => !m.again)))
    || s.nz.waits.any (fun w => w.who.ofHalf h) || s.nz.snoops.any (fun p => p.half == h.val)

/-- What domain d answers. -/
def State.domAnswer (s : State) (r : PwrReq) (d : Nat) : DomAns :=
  if s.neededOn r d then .refuse 4
  else if h : d < 48 then
    let k := s.core ⟨d, h⟩
    delayIf (!(k.seq.st == .idle && k.allIdle && k.seq.starts.isEmpty) || (List.finRange 6).any (fun a => (k.getArr a).bistRunning))
  else if d < 56 then delayIf (!((s.nmgQueue (d - 48)).isEmpty && (s.nmgRun (d - 48)).isNone))
  else if d < 68 then
    let i := d - 56
    if r.goal ≠ 1 ∧ (s.pair.st = 1 ∨ s.pair.st = 2) ∧ (s.pairLinkA / 2 = i ∨ s.pairLinkB / 2 = i) then .refuse 2
    else delayIf ((List.finRange 24).any (fun l => l.val / 2 == i && (s.winOpen l || !((s.link l).replay.isEmpty))))
  else if h : d - 68 < 2 then
    if s.dirUsed (d - 68) ≠ 0 then .refuse 3 else delayIf (s.halfBusy ⟨d - 68, h⟩)
  else if d = 78 then delayIf s.sec.busy.isSome
  else .accept

/-- Is the save area wholly populated (R583)? -/
def State.saveArea (s : State) : Bool :=
  inHbm s.saveBase && inHbm (s.saveBase + 0x2FFFFFFF) && s.populated s.saveBase && s.populated (s.saveBase + 0x2FFFFFFF)

/-- The first refusing domain and its reason; a domain that delays refuses where `limit` says so. -/
def State.firstRefusal (s : State) (r : PwrReq) (limit : Bool) : Option (Nat × Nat) :=
  match r.doms.findSome? (fun d => match s.domAnswer r d with
    | .refuse n => some (d, n)
    | .delay => if limit then some (d, 1) else none
    | .accept => none) with
  | some p => some p
  | none => if r.save && !s.saveArea then some (127, 5) else none

/-- The words of Table 22-7, read at commit. -/
def State.wakeWords (s : State) : List W64 := (rangeFrom 96 6).map s.lardVal

/-- The steps of Table 22-6 that a set of domains takes part in, the last first. -/
def offSteps (doms : NSet) : List Nat := [7, 6, 5, 4, 3, 2].filter (fun k => doms.any (fun d => wakeStepOf d == k))

/-- Pending self-tests of cores that will be off are refused (R619). -/
def State.bistRefuse (s : State) (c : Core) (a : Arr) : State :=
  ((s.setArr c a { s.arr c a with bistPending := false }).bumpLo (rFltCnt 3) 1).raise fBusy 21 c.val [c.val, a.val]
def State.bistRefuseAll (s : State) (doms : NSet) : State :=
  ((List.finRange 48).filter (fun c => NSet.has c.val doms)).foldl (fun s c =>
    ((List.finRange 6).filter (fun a => (s.arr c a).bistPending)).foldl (fun s a => s.bistRefuse c a) s) s

/-! ### Turning off (R583, R585, R595) -/

/-- The power controller reads the struck words of a core's granules below RET_GRAN: the words that it does not get (R613). It reads on
the port of the mesh, and such a word is saved as an invalid one (DESIGN CHOICE: R583 names no requester and no outcome). -/
def State.saveCheck (s : State) (c : Core) : List Nat × State :=
  let struck := s.ecc.filter (fun e => decide (pantryBase c ≤ e.1) && decide (e.1 < pantryBase c + 4096 * s.retGran))
  let hit := (struck.map (fun e => (e.1 - pantryBase c) / 64)).filter (s.wordValid c)
  hit.foldl (fun r w =>
    let e := r.2.sramEcc 5 c.val 1 (pantryBase c + 64 * w) 15
    (if e.1 then r.1 else w :: r.1, e.2)) ([], s)

/-- Save a core's granules below RET_GRAN with their valid bits (R583). -/
def State.saveCore (s : State) (c : Core) : State :=
  let n := 4096 * s.retGran
  let r := s.saveCheck c
  let s := r.2
  let keep := (s.core c).valid.filter (fun w => decide (w < 64 * s.retGran) && !(r.1.contains w))
  let s := { s with mem := Memory.copy s.mem (pantryBase c) (s.saveBase + c.val * 0x1000000) n
                    pwr := { s.pwr with saved := true, valid := s.pwr.valid ++ [(c.val, keep)] } }
  s.freshEcc (s.saveBase + c.val * 0x1000000) n

/-- A link of a domain that goes off: it reads OFF, and its pads are held (R592). -/
def State.linkOff (s : State) (l : Link) : State :=
  let t := if (s.link l).up then s.linkDrop l else s
  let t := t.setLink l { t.link l with st := 0 }
  if (s.link l).up then s.linkGone t l else t

/-- A domain goes off. -/
def State.domOff (s : State) (goal d : Nat) : State :=
  let s := s.onPwr (fun p => { p with off := NSet.add d p.off, gated := NSet.del d p.gated })
  if h : d < 48 then
    let keep := if goal = 2 then 64 * s.retGran else 0
    s.onCore ⟨d, h⟩ (fun k => { k with valid := k.valid.filter (fun w => decide (w < keep)) })
  else if d < 56 then { s with memc := { s.memc with selfRef := NSet.add d s.memc.selfRef } }
  else if d < 68 then
    ((List.finRange 24).filter (fun l => l.val / 2 == d - 56)).foldl (fun s l => s.linkOff l)
      (s.onPwr (fun p => { p with pads := NSet.add d p.pads }))
  else if h : d - 68 < 2 then (s.onPwr (fun p => { p with pads := NSet.add d p.pads })).halfTo ⟨d - 68, h⟩ 0
  else if d < 74 then { s with memc := { s.memc with selfRef := NSet.add d s.memc.selfRef } }
  else if d = 78 then { s with sec := { s.sec with nonce := none } }
  else s

/-- Where a rail goes when an entry to state `goal` lowers it: none where it stays. -/
def State.railLow (s : State) (goal r : Nat) : Option Nat :=
  if (railDoms r).all (fun d => !(s.powered d)) then
    (if r < 2 then some 0 else if goal = 2 then (if r < 4 then some 500 else none) else some 0)
  else none

/-- The lowering requests at the end of an entry (R585). -/
def State.lowerings (s : State) (goal : Nat) : List AvsReq :=
  (List.range 6).filterMap (fun r => (s.railLow goal r).bind (fun v => if s.rail r = v then none else some ⟨r, v, false, s.tb.time⟩))

/-! ### Waking (R587, R589) -/

/-- The first step after k in which a domain takes part: 8 is always run. -/
def nextWakeStep (doms : NSet) (k : Nat) : Nat :=
  ((rangeFrom (k + 1) 7).find? (fun j => decide (2 ≤ j) && decide (j ≤ 7) && doms.any (fun d => wakeStepOf d == j))).getD 8

/-- PWR_WAKE_SRC. -/
def State.wakeSrc (s : State) (source link half : Nat) (replay : Bool) : W64 :=
  BitVec.ofNat 64 (source + 16 * link + 2 ^ 9 * half + 2 ^ 10 * b2n replay + 2 ^ 16 * (s.tb.pitch % 2 ^ 48))

/-- A wake of some domains begins: rails are raised first. -/
def State.wakeBegin (s : State) (doms : NSet) (source link half : Nat) (replay restore : Bool) : State :=
  let src := s.wakeSrc source link half replay
  let raises := ((List.range 6).filter (fun r => (railDoms r).any (fun d => NSet.has d doms) && s.rail r != s.railPoint r)).map
    (fun r => (⟨r, s.railPoint r, true, s.tb.time⟩ : AvsReq))
  (s.setReg rPwrWake src).onPwr (fun p =>
    { p with wake := some ⟨if raises.isEmpty then nextWakeStep doms 1 else 1, doms, src, restore⟩
             avs := p.avs ++ raises, wakeAt := none })

/-- The wake from the present sleep. -/
def State.wakeNow (s : State) (source link half : Nat) (replay : Bool) : State :=
  if s.pwr.st = 2 then s.wakeBegin s.pwr.slept source link half replay false
  else s.wakeBegin s.pwr.deep source link half replay s.pwr.saved

/-- A wake source fires (R586, R587). -/
def State.wakeFire (s : State) (source link half : Nat) : State :=
  match s.pwr.req with
  | some r =>
    if 1 ≤ r.phase ∧ s.pwr.latched = none then s.onPwr (fun p => { p with latched := some (source, link, half) }) else s
  | none =>
    if s.pwr.wake.isSome then s
    else if s.pwr.st = 2 ∨ s.pwr.st = 3 ∨ (s.pwr.st = 4 ∧ source = 4) then s.wakeNow source link half false
    else s

/-- An entry completes (R585, R586). -/
def State.entryDone (s : State) (r : PwrReq) : State :=
  let s := s.onPwr (fun p => { p with
    st := r.goal, req := none, wakeAt := r.wake, sampled := s.tb.time
    slept := if r.goal = 2 then r.doms.foldl (fun l d => NSet.add d l) p.slept else p.slept
    deep := if 3 ≤ r.goal then r.doms else p.deep })
  let s := if 3 ≤ r.goal then { s with cores := s.cores.map (fun k => { k with valid := [] }) } else s
  match s.pwr.latched with
  | none => s
  | some w => ((s.onPwr (fun p => { p with latched := none })).bumpLo (rPwrCnt 1) 1).wakeNow w.1 w.2.1 w.2.2 true

/-- Once no voltage request is outstanding: the clock changes (R602), an entry completes, a wake goes on. -/
def State.avsDrained (s : State) : State :=
  if s.pwr.avs.isEmpty then
    let s := match s.pwr.opNext with
      | some op => s.onPwr (fun p => { p with opNow := op, opNext := none })
      | none => s
    match s.pwr.req, s.pwr.wake with
    | some r, _ => if r.phase = 3 then s.entryDone r else s
    | none, some w => if w.step = 1 then s.onPwr (fun p => { p with wake := some { w with step := nextWakeStep w.doms 1 } }) else s
    | none, none => s
  else s

/-- The off steps are done: rails are lowered, or the entry completes at once. -/
def State.offDone (s : State) (r : PwrReq) : State :=
  s.onPwr (fun p => { p with req := some { r with phase := 3, steps := [] }, avs := p.avs ++ s.lowerings r.goal }) |>.avsDrained

/-- A request is committed (R582). -/
def State.pwrCommitted (s : State) (r : PwrReq) : State :=
  if r.goal = 1 then
    s.onPwr (fun p => { p with req := none, gated := r.doms.foldl (fun l d => NSet.add d l) p.gated
                               st := if r.doms.isEmpty && p.gated.isEmpty then 0 else 1 })
  else
    let s := (s.bistRefuseAll r.doms).onPwr (fun p => { p with wcfg := s.wakeWords, saved := false, valid := [] })
    let steps := offSteps r.doms
    if r.save then s.onPwr (fun p => { p with req := some { r with phase := 1, steps := steps } })
    else if steps.isEmpty then s.offDone r
    else s.onPwr (fun p => { p with req := some { r with phase := 2, steps := steps } })

/-! ### Waking step by step -/

/-- A domain comes on. The WAKE_DET bits of its links clear (R491). -/
def State.domBack (s : State) (d : Nat) : State :=
  let s := s.onPwr (fun p => { p with off := NSet.del d p.off })
  let s := ((List.finRange 24).filter (fun l => linkDom l.val == d)).foldl (fun s l => s.setLink l { s.link l with wakeDet := false }) s
  { s with memc := { s.memc with selfRef := NSet.del d s.memc.selfRef } }

/-- The state of a core after a sleep (Table 22-8, R596). -/
def State.coreBack (s : State) (c : Core) : State :=
  let s := s.onCore c (fun k => { CoreSt.reset with unit := k.unit, valid := k.valid })
  let s := { s with mem := Memory.clear s.mem (accAddr c 0 0 0) 0x200000 }.freshEcc (accAddr c 0 0 0) 0x200000
  (s.setGen c 0x9E3779B9).setRf (rPepoch c) 0 32 s.pwr.epoch.toNat

/-- The queue pool of a die whose fabric was off: packets are discarded and counted (Table 22-8, R597). -/
def State.poolBack (s : State) (d : Nat) : State :=
  let lost := ((s.queues.filter (fun e => dieOf e.1 == d)).map (fun e => e.2.pkts.length)).sum
  ({ s with queues := s.queues.filter (fun e => dieOf e.1 != d) }).bumpLo (rPwrCnt 2) lost

/-- Step 8 (R591, R594 to R597, R634). -/
def State.wakeDone (s : State) (w : PwrWake) : State :=
  let was := s.pwr.st
  let s := s.onPwr (fun p => { p with
    wake := none, epoch := if 2 ≤ was then p.epoch + 1 else p.epoch
    st := if was ≤ 2 then 0 else if p.slept.isEmpty then 0 else 2
    slept := if was = 2 then [] else p.slept, deep := if 3 ≤ was then [] else p.deep
    saved := false, valid := [] })
  let s := ((List.finRange 48).filter (fun c => NSet.has c.val w.doms)).foldl (fun s c => s.coreBack c) s
  let s := if NSet.has 76 w.doms then s.poolBack 0 else s
  let s := if NSet.has 77 w.doms then s.poolBack 1 else s
  let s := s.onPair (fun p => { p with misses := if (p.st = 3 ∨ p.st = 4) ∧ 3 ≤ was then 0 else p.misses })
  let held := s.flt.wait
  let s := if s.domOn 76 then held.foldl (fun s r => s.offerRecord r) { s with flt := { s.flt with wait := [] } } else s
  let cores := (List.finRange 48).filter (fun c => bitOf (nth 0 0 s.pwr.wcfg) c.val && s.coreOn c)
  let s := cores.foldl (fun s c => s.requestStart c 4 ⟨fld (nth 0 1 s.pwr.wcfg) 0 20, w.src, none⟩) s
  s.noticePkt w.src.toNat

/-- One step of the wake ends (R589). Step 9 stands for the restore of step 6, which RESTORE_DONE ends. -/
def State.wakeStep (s : State) (w : PwrWake) : State :=
  if w.step = 8 then s.wakeDone w
  else
    let s := (w.doms.filter (fun d => wakeStepOf d == w.step)).foldl (fun s d => s.domBack d) s
    let next := if w.step = 6 ∧ w.restore then 9 else nextWakeStep w.doms w.step
    s.onPwr (fun p => { p with wake := some { w with step := next } })

/-- Copy a core's saved granules back with their valid bits; those that cannot be read are invalid (R590). -/
def State.restoreCore (s : State) (c : Core) (failed : List Nat) : State :=
  let n := 4096 * s.retGran
  let bits := ((s.pwr.valid.find? (fun e => e.1 == c.val)).map (·.2)).getD []
  let good := bits.filter (fun w => !(failed.contains (w / 64)))
  ({ s with mem := Memory.copy s.mem (s.saveBase + c.val * 0x1000000) (pantryBase c) n }.freshEcc (pantryBase c) n).onCore c (fun k => { k with valid := good })

/-- The words of the save area that an error has struck (R397, R398). -/
def State.saveErrs (s : State) : List Nat :=
  (s.ecc.filter (fun e => decide (s.saveBase ≤ e.1) && decide (e.1 < s.saveBase + 0x30000000)
    && decide ((e.1 - s.saveBase) % 0x1000000 < 4096 * s.retGran))).map (·.1)

/-- The core and granule of a word of the save area. -/
def State.saveGranule (s : State) (a : Nat) : Nat × Nat := ((a - s.saveBase) / 0x1000000, (a - s.saveBase) % 0x1000000 / 4096)

/-- The granules whose read fails: those the command names, and those with an uncorrectable word (R590). -/
def State.restoreFails (s : State) (named : List (Core × Nat)) : List (Nat × Nat) :=
  let found := (s.saveErrs.filter (fun a => s.eccOf (eccUnit a) == .uncorrectable)).map s.saveGranule
  ((named.map (fun f => (f.1.val, f.2))) ++ found).eraseDups

/-! ### Operating points (R602, R604) -/

/-- The point that OP and the temperature ask for. -/
def State.opGoal (s : State) : Nat := if s.pwr.therm then max (s.rf rPwrCfg 0 2) 2 else s.rf rPwrCfg 0 2

/-- Move to it: a higher clock after its voltage, a lower clock before. -/
def State.opMove (s : State) : State :=
  let g := s.opGoal
  if g = s.pwr.opNow then s.onPwr (fun p => { p with opNext := none })
  else
    let req (up : Bool) : List AvsReq := [⟨0, opMv g, up, s.tb.time⟩, ⟨1, opMv g, up, s.tb.time⟩]
    if g < s.pwr.opNow then s.onPwr (fun p => { p with opNext := some g, avs := p.avs ++ req true })
    else s.onPwr (fun p => { p with opNow := g, opNext := none, avs := p.avs ++ req false })

/-! ### Pads (R592) -/

/-- PWR_PAD_RELEASE: bit i of LINKPAIR for domain 56 + i, of NZ for domain 68 + h. -/
def State.padRelease (s : State) (v : W64) : State :=
  let s := s.onPwr (fun p => { p with pads := p.pads.filter (fun d =>
    !(s.powered d && (if d < 68 then bitOf v (d - 56) else bitOf v (12 + (d - 68))))) })
  let s := (List.finRange 24).foldl (fun s l => s.linkStart l) s
  (List.finRange 2).foldl (fun s h => s.halfStart h) s

end Sys2Proof.Machine
end

