-- ==== Sys2Proof/Machine/ExecPower.lean ====
section
/-! DEFINITION. The events of power control (spec/22_power.md). -/
namespace Sys2Proof.Machine

/-! ### Requests -/

/-- May a writer ask for ACTIVE (Table 22-5, source 7)? -/
def State.activeWriter (s : State) : Writer → Bool
  | .program c => s.coreOn c
  | .mesh c => s.coreOn c
  | .companion => true
  | .smbus => true
  | _ => false

/-- A request for ACTIVE (Table 22-3, R587, R600). -/
def State.pwrActive (s : State) (who : Writer) : State :=
  if s.pwr.req.isSome || s.pwr.wake.isSome || !(s.activeWriter who) then s.pwrReject
  else
    match s.pwr.st with
    | 2 => s.wakeNow 7 0 0 false
    | 1 => s.onPwr (fun p => { p with st := 0, gated := [] })
    | 0 => if s.pwr.left.isEmpty then s.pwrReject
           else (s.wakeBegin s.pwr.left 7 0 0 false false).onPwr (fun p => { p with left := [] })
    | _ => s.pwrReject

/-- A write to PWR_REQ. -/
def State.pwrWrite (s : State) (v : W64) (who : Writer) : State :=
  if fld v 0 3 = 0 then s.pwrActive who else s.pwrTake (fld v 0 3) (bitOf v 3) (fld v 4 32) s.reqDoms

def execPwrReqActive (who : Writer) (s : State) : Host.Outcome State Fault Refusal := s.live <| .next (s.pwrActive who)
def execPwrReqIdle (s : State) : Host.Outcome State Fault Refusal := s.live <| .next (s.pwrTake 1 false 0 s.reqDoms)
def execPwrReqNap (len : W32) (s : State) : Host.Outcome State Fault Refusal :=
  s.live <| .next (s.pwrTake 2 false len.toNat s.reqDoms)
def execPwrReqBivouac (save : Bool) (len : W32) (s : State) : Host.Outcome State Fault Refusal := s.live <|
  .next (s.pwrTake 3 save len.toNat s.reqDoms)
def execPwrReqWatch (save : Bool) (len : W32) (s : State) : Host.Outcome State Fault Refusal := s.live <|
  .next (s.pwrTake 4 save len.toNat s.reqDoms)

/-- The request that waits for answers. -/
def State.querying (s : State) : Option PwrReq := s.pwr.req.bind (fun r => if r.phase = 0 then some r else none)

/-- DOMAIN_QUERY (R580, R581). -/
def execDomainQuery (s : State) : Host.Outcome State Fault Refusal := s.live <|
  match s.querying with
  | some r => (match s.firstRefusal r false with
    | some p => .next (s.pwrRefuse p.1 p.2)
    | none => .next s)
  | none => .next s

/-- DELAY_LIM_EXPIRY (R580): DELAY_LIM µs after the request was taken, a domain that still delays refuses with reason 1. -/
def execDelayLimExpiry (s : State) : Host.Outcome State Fault Refusal := s.live <|
  match s.querying with
  | some r => (match s.reachBy (r.since.toNat + 1000 * s.rf rPwrCfg 2 10) with
    | some t => (match t.firstRefusal r true with
      | some p => .next (t.pwrRefuse p.1 p.2)
      | none => .next t)
    | none => .next s)
  | none => .next s

/-- PWR_COMMIT (R582): every domain has accepted. -/
def execPwrCommit (s : State) : Host.Outcome State Fault Refusal := s.live <|
  match s.querying with
  | some r => (match s.firstRefusal r true with
    | some p => if s.domAnswer r p.1 = .delay then .next s else .next (s.pwrRefuse p.1 p.2)
    | none => .next (s.pwrCommitted r))
  | none => .next s

/-- SAVE_DONE (R583). -/
def execSaveDone (s : State) : Host.Outcome State Fault Refusal := s.live <|
  match s.pwr.req with
  | some r =>
    if r.phase = 1 then
      let s := (List.finRange 48).foldl (fun s c => s.saveCore c) s
      .next (if r.steps.isEmpty then s.offDone r else s.onPwr (fun p => { p with req := some { r with phase := 2 } }))
    else .next s
  | none => .next s

/-- OFF_STEP (R585). -/
def execOffStep (s : State) : Host.Outcome State Fault Refusal := s.live <|
  match s.pwr.req with
  | some r =>
    (match r.phase, r.steps with
     | 2, k :: rest =>
       let s := (r.doms.filter (fun d => wakeStepOf d == k)).foldl (fun s d => s.domOff r.goal d) s
       .next (if rest.isEmpty then s.offDone r else s.onPwr (fun p => { p with req := some { r with steps := rest } }))
     | _, _ => .next s)
  | none => .next s

/-- AVS_ACK (R585, R589, R602). -/
def execAvsAck (s : State) : Host.Outcome State Fault Refusal := s.live <|
  match s.pwr.avs with
  | q :: rest => .next ((s.onPwr (fun p => { p with avs := rest, rails := setAt q.rail q.mv p.rails })).avsDrained)
  | [] => .next s

/-- The domains that stay off when a rail is not raised (R600). -/
def PwrWake.lost (w : PwrWake) (r : Nat) : NSet :=
  let direct := (railDoms r).filter (fun d => NSet.has d w.doms)
  w.doms.filter (fun d => direct.contains d || (domNeeds d).any direct.contains)

/-- The oldest voltage request is given up (R599 to R602). -/
def State.avsGiveUp (s : State) (q : AvsReq) (rest : List AvsReq) : State :=
  let s := ((s.onPwr (fun p => { p with avs := rest })).bumpHi (rPwrCnt 0) 1).raise fPwrAvs 19 0 [q.rail, q.mv]
  let s := if q.up && decide (q.rail < 2) then s.onPwr (fun p => { p with opNext := none }) else s
  let s := match s.pwr.wake with
    | some w => if q.up && w.step == 1 then
        let gone := w.lost q.rail
        s.onPwr (fun p => { p with wake := some { w with doms := w.doms.filter (fun d => !(gone.contains d)) }
                                   left := gone.foldl (fun l d => NSet.add d l) p.left })
      else s
    | none => s
  s.avsDrained

/-- AVS_TIMEOUT: AVS_TIMEOUT µs after a request was made (R599). -/
def execAvsTimeout (s : State) : Host.Outcome State Fault Refusal := s.live <|
  match s.pwr.avs with
  | q :: rest => .next ((s.reachBy (q.since.toNat + 1000 * s.rf rPwrCfg 12 10)).elim s (fun t => t.avsGiveUp q rest))
  | [] => .next s

/-! ### Wake sources (Table 22-5) -/

/-- Word 99 and its enables. -/
def State.wakeEn (s : State) (i : Nat) : Bool := bitOf (nth 0 3 s.pwr.wcfg) i

/-- WAKE_DET (R491, source 1): the detector of a link in an OFF domain. -/
def execWakeDet (l : Link) (s : State) : Host.Outcome State Fault Refusal := s.live <|
  if s.powered (linkDom l.val) then .next s
  else
    let s := s.setLink l { s.link l with wakeDet := true }
    .next (if s.wakeEn l.val then s.wakeFire 1 l.val 0 else s)

/-- WAKE_N_LOW (source 3). -/
def execWakeNLow (s : State) : Host.Outcome State Fault Refusal := s.live <| .next (if s.wakeEn 26 then s.wakeFire 3 0 0 else s)

/-- NZ_IDLE_EXIT (source 2). -/
def execNzIdleExit (h : Half) (s : State) : Host.Outcome State Fault Refusal := s.live <|
  .next (if s.wakeEn (24 + h.val) then s.wakeFire 2 0 h.val else s)

/-- WAKE_PITCH (source 4): the start of the wake pitch. -/
def execWakePitch (s : State) : Host.Outcome State Fault Refusal := s.live <|
  let due := match s.pwr.req with
    | some r => r.wake
    | none => s.pwr.wakeAt
  match due with
  | some p => if p ≤ s.tb.pitch then .next (s.wakeFire 4 0 0) else .next s
  | none => .next s

/-- Is a temperature outside TEMP_LO to TEMP_HI? -/
def State.tempOut (s : State) (t : BitVec 16) : Bool :=
  let w := nth 0 4 s.pwr.wcfg
  decide (signed 16 (fld w 0 16) < t.toInt) || decide (t.toInt < signed 16 (fld w 16 16))
/-- Is a rail below RAIL_LO? -/
def State.railOut (s : State) (aon vio : BitVec 16) : Bool :=
  let lo := fld (nth 0 5 s.pwr.wcfg) 0 16
  decide (aon.toNat < lo) || decide (vio.toNat < lo)

/-- TEMP_WAKE (source 5). -/
def execTempWake (temp : BitVec 16) (s : State) : Host.Outcome State Fault Refusal := s.live <|
  .next (if s.wakeEn 27 && s.tempOut temp then s.wakeFire 5 0 0 else s)

/-- RAIL_WAKE (source 6). -/
def execRailWake (aon vio : BitVec 16) (s : State) : Host.Outcome State Fault Refusal := s.live <|
  .next (if s.wakeEn 28 && s.railOut aon vio then s.wakeFire 6 0 0 else s)

/-- The first enabled source that a sample shows, with its link and half. -/
def State.sampleSource (s : State) (x : Sample) : Option (Nat × Nat × Nat) :=
  match (List.range 24).find? (fun l => bitOf x.links l && s.wakeEn l) with
  | some l => some (1, l, 0)
  | none =>
    match (List.range 2).find? (fun h => bitOf x.halves h && s.wakeEn (24 + h)) with
    | some h => some (2, 0, h)
    | none =>
      if x.wakeN && s.wakeEn 26 then some (3, 0, 0)
      else if s.wakeEn 27 && s.tempOut x.temp then some (5, 0, 0)
      else if s.wakeEn 28 && s.railOut x.aon x.vio then some (6, 0, 0)
      else none

/-- WATCH_PERIOD in ms (Table 22-7). -/
def State.watchPeriod (s : State) : Nat :=
  let p := fld (nth 0 2 s.pwr.wcfg) 0 14
  if 1 ≤ p ∧ p ≤ 10000 then p else 1000

/-- What a sample does. -/
def State.watchLook (s : State) (smp : Sample) : State :=
  let s := s.onPwr (fun p => { p with sampled := s.tb.time })
  match s.sampleSource smp with
  | some w => s.wakeNow w.1 w.2.1 w.2.2 false
  | none => s

/-- WATCH_SAMPLE: every WATCH_PERIOD (R578, R588). -/
def execWatchSample (smp : Sample) (s : State) : Host.Outcome State Fault Refusal := s.live <|
  if s.pwr.st = 4 ∧ s.pwr.wake = none ∧ s.pwr.req = none then
    .next ((s.reachBy (s.pwr.sampled.toNat + 1000000 * s.watchPeriod)).elim s (·.watchLook smp))
  else .next s

/-- WAKE_STEP (R589). -/
def execWakeStep (s : State) : Host.Outcome State Fault Refusal := s.live <|
  match s.pwr.wake with
  | some w => if 2 ≤ w.step ∧ w.step ≤ 8 then .next (s.wakeStep w) else .next s
  | none => .next s

/-- RESTORE_DONE (R590): `failed` are the granules whose read failed, as core and granule. -/
def execRestoreDone (failed : List (Core × Nat)) (s : State) : Host.Outcome State Fault Refusal := s.live <|
  match s.pwr.wake with
  | some w =>
    if w.step = 9 then
      let lost := s.restoreFails failed
      let s := s.saveErrs.foldl (fun s a => (s.memEcc a).2) s
      let s := (List.finRange 48).foldl (fun s c => s.restoreCore c ((lost.filter (fun f => f.1 == c.val)).map (·.2))) s
      let s := s.bumpHi (rPwrCnt 1) lost.length
      let s := match lost with
        | f :: _ => s.raise fPwrRestore 19 0 [f.1, f.2]
        | [] => s
      .next (s.onPwr (fun p => { p with wake := some { w with step := nextWakeStep w.doms 6 } }))
    else .next s
  | none => .next s

/-- PWR_PAD_RELEASE (R592). -/
def execPwrPadRelease (v : W64) (s : State) : Host.Outcome State Fault Refusal := s.live <| .next (s.padRelease v)

/-- UNGATE (R577): a gated domain ungates for work addressed to it. -/
def execUngate (d : Dom) (s : State) : Host.Outcome State Fault Refusal := s.live <|
  if NSet.has d.val s.pwr.gated then
    let left := NSet.del d.val s.pwr.gated
    .next ((s.setReg rPwrWake (s.wakeSrc 8 0 0 false)).onPwr (fun p =>
      { p with gated := left, st := if p.st = 1 && left.isEmpty then 0 else p.st }))
  else .next s

/-! ### Supply control -/

/-- OP_CHANGE (R602): a write of OP. -/
def execOpChange (op : BitVec 2) (s : State) : Host.Outcome State Fault Refusal := s.live <|
  .next (s.setRf rPwrCfg 0 2 op.toNat).opMove

/-- THERMAL_STEP (R604): the hottest temperature, in 1/16 °C. -/
def execThermalStep (temp : BitVec 16) (s : State) : Host.Outcome State Fault Refusal := s.live <|
  let lim : Int := s.rf rPwrCfg 22 8
  if !s.pwr.therm && decide (16 * lim ≤ temp.toInt) then .next (s.onPwr (fun p => { p with therm := true })).opMove
  else if s.pwr.therm && decide (temp.toInt ≤ 16 * (lim - 5)) then .next (s.onPwr (fun p => { p with therm := false })).opMove
  else .next s

end Sys2Proof.Machine
end

