-- ==== Sys2Proof/Machine/ExecSieve.lean ====
section
/-! DEFINITION. The events of the sieve engine and of the vector unit (spec/07_sieve_engine.md, spec/08_vector_unit.md). -/
namespace Sys2Proof.Machine

/-- DISP_RESUME (R184): a dispatch step that was held goes on; `waited` cycles it was held. -/
def execDispResume (c : Core) (waited : Nat) (s : State) : Host.Outcome State Fault Refusal := s.live <|
  match (s.sieve c).disp with
  | some d => .next ((((s.bumpLo (rSieveCnt c 4) waited).dispRun c d (dispFuel d)).sieveAdvance c 40).settle c)
  | none => .next s

/-- SIEVE_JOB_START (R184, R187, R190, R194, R199): the job at the head of the queue runs; the cycles lanes waited for
entries, banks and result tiles. -/
def execSieveJobStart (c : Core) (dealWait bankWait resWait : Nat) (s : State) : Host.Outcome State Fault Refusal := s.live <|
  let v := s.sieve c
  if v.headReady then
    match v.jobs with
    | j :: rest =>
      let s := ((s.bumpHi (rSieveCnt c 1) dealWait).bumpLo (rSieveCnt c 2) bankWait).bumpHi (rSieveCnt c 2) resWait
      .next ((((s.setSieve c { v with jobs := rest }).runSieveJob c j).sieveAdvance c 40).settle c)
    | [] => .next s
  else .next s

/-- MERGE_TILE_CLOSE (R82, R207, R209): the oldest open merge buffer passes the compressor and a tile that waits takes it; `waited`
cycles the tree waited for a buffer. -/
def execMergeTileClose (c : Core) (waited : Nat) (s : State) : Host.Outcome State Fault Refusal := s.live <|
  let v := s.sieve c
  match v.merge with
  | m :: rest =>
    let s := ((((s.bumpLo (rSieveCnt c 5) waited).setSieve c { v with merge := rest }).closeMerge c m).mergeFill c)
    if (s.sieve c).merge.isEmpty then
      let v := s.sieve c
      let s := match v.merging with
        | some g => (s.setSieve c { v with merging := none }).guardDone c g
        | none => s
      .next ((s.sieveAdvance c 40).settle c)
    else .next s
  | [] => .next s

/-- TILE_OUTPUT_WRITE (R245): the oldest tile buffer is written, payload first, then the header pair, then the flag; it frees for a tile
that the lanes wait with. -/
def execTileOutputWrite (c : Core) (s : State) : Host.Outcome State Fault Refusal := s.live <|
  let x := s.vec c
  match x.bufs with
  | b :: rest =>
    let s := ((s.setVec c { x with bufs := rest }.fill).put 8 b.payAddr b.payload).put 8 b.hdrAddr (pairBytes b.hdr)
    let s := match b.flag with
      | some f => s.setFlag c f true
      | none => s
    .next (s.settle c)
  | [] => .next s

/-- VEC_AMAX_WRITE (R248). -/
def execVecAmaxWrite (c : Core) (n : Fin 4) (v : W64) (s : State) : Host.Outcome State Fault Refusal := s.live <|
  .next (s.ifOn c.val (fun s => s.setReg (rVecAmax c n.val) (v &&& 0x3FFFFFFFF#64)))

end Sys2Proof.Machine
end

