-- ==== Sys2Proof/Machine/Governor.lean ====
section
/-! DEFINITION. The format governor (spec/12_training.md R362 to R371). -/
namespace Sys2Proof.Machine

/-- What a governor record decides (Table 12-5), as read. -/
structure GovRec where
  e       : Int
  fmt     : Nat
  runs    : Nat
  mon     : Nat
  acore   : Nat
  areg    : Nat
  head    : Int
  allow   : Nat
  backoff : Int
  uflim   : Nat
deriving DecidableEq, Repr

def GovRec.of (w : Nat) : GovRec :=
  let f (byte lo len : Nat) := (w / 2 ^ (8 * byte + lo)) % 2 ^ len
  ⟨signed 8 (f 0 0 8), f 1 0 8, f 4 0 32, f 8 0 6, f 9 0 6, f 9 6 2, f 10 0 3, f 10 4 3, f 11 0 7, f 12 0 16⟩

/-- Clamp to −127..127. -/
def clamp127 (v : Int) : Int := min 127 (max (-127) v)

/-- The three formats of R365, narrowest first: type code, bit of ALLOW, exponent of the largest finite value (none for
BF16), exponent of the smallest subnormal. -/
def govTypes : List (Nat × Nat × Option Int × Int) := [(3, 0, some 8, -9), (4, 1, some 15, -16), (1, 2, none, -133)]

/-- Elements whose exponent falls below esub under e (R365). -/
def govUnder (bins : List W32) (base e esub : Int) : Nat :=
  ((bins.zip (List.range bins.length)).map (fun p => if base + p.2 + e < esub then p.1.toNat else 0)).sum

/-- The format chosen: type code, E and UNDER of the narrowest allowed format that keeps enough, otherwise of the widest
allowed (R365). -/
def govPick (r : GovRec) (bins : List W32) (base ea : Int) (total : Nat) :
    List (Nat × Nat × Option Int × Int) → Nat × Int × Nat → Nat × Int × Nat
  | [], last => last
  | (t, bit, emax, esub) :: rest, last =>
    if r.allow.testBit bit then
      let e := match emax with
        | some m => clamp127 (m - ea - r.head)
        | none => 0
      let u := govUnder bins base e esub
      if u * 65536 ≤ r.uflim * total then (t, e, u) else govPick r bins base ea total rest (t, e, u)
    else govPick r bins base ea total rest last

/-- Bytes 0 to 7 and 16 to 27 of the record replaced (R364). -/
def govWord (w : Nat) (e : Int) (fmt status runs : Nat) (tail : Option (Nat × Nat × Nat)) : Nat :=
  let b : BitVec 512 := BitVec.ofNat 512 w
  let b := setFld (setFld (setFld (setFld (setFld b 0 8 (unsign 8 e)) 8 8 fmt) 16 8 status) 24 8 0) 32 32 (runs % 2 ^ 32)
  (match tail with
   | some (amax, under, total) => setFld (setFld (setFld b 128 32 amax) 160 32 under) 192 32 total
   | none => b).toNat

/-- The governor's result on a record that R370 does not refuse: the new 64 B word (R365 to R367). -/
def govern (w : Nat) (r : GovRec) (amax : W64) (bins : List W32) (base : Int) : Nat :=
  let total := (bins.map (·.toNat)).sum
  let a := BitVec.ofNat 32 (fld amax 0 32)
  if bitOf amax 32 || bitOf amax 33 then govWord w (max (r.e - r.backoff) (-127)) r.fmt 2 (r.runs + 1) none
  else if total = 0 ∨ fld a 0 31 = 0 then govWord w r.e r.fmt 1 (r.runs + 1) none
  else
    let ea := match f32 a with
      | .fin _ m e => magLog2 m e
      | _ => 128
    let p := govPick r bins base ea total govTypes (r.fmt, r.e, 0)
    govWord w p.2.1 p.1 0 (r.runs + 1) (some (a.toNat, p.2.2, total))

/-- The condition of R370 that refuses a run, in the order of its list; 0 where there is none. -/
def State.govBad (s : State) (d : Die) (v : W64) (r : GovRec) : Nat :=
  if 48 ≤ fld v 0 6 then 3
  else if r.allow = 0 then 1
  else if r.fmt ≠ 1 ∧ r.fmt ≠ 3 ∧ r.fmt ≠ 4 then 2
  else if 48 ≤ r.acore then 3
  else if s.monLinear (64 * d.val + r.mon) then 4
  else 0

/-- The queued runs of a die's governor. -/
def State.govQueue (s : State) (d : Nat) : List W64 := s.govq.get (fun _ => []) d
def State.setGovQueue (s : State) (d : Nat) (l : List W64) : State := { s with govq := s.govq.put (fun _ => []) d l }

/-- A write to MON_GOVRUNd (R363, R369). -/
def State.govRequest (s : State) (d : Die) (v : W64) : State :=
  if 16 ≤ (s.govQueue d.val).length then
    (s.bumpHi (rGovCnt d.val 0) 1).raise fGovLost 20 d.val [d.val, fld v 0 6, fld v 6 18]
  else s.setGovQueue d.val (s.govQueue d.val ++ [v])

/-- The flag a run sets (R368). -/
def State.govFlag (s : State) (v : W64) : State :=
  match coreOf? (fld v 0 6) with
  | some c => if bitOf v 30 then s.setFlag c (fld v 24 6) true else s
  | none => s

/-- CLR (R368): the amax register and the monitor's counts. -/
def State.govClear (s : State) (d : Die) (v : W64) (r : GovRec) : State :=
  if bitOf v 31 then
    let s := s.monClear (64 * d.val + r.mon)
    match coreOf? r.acore with
    | some c => s.setRf (rVecAmax c r.areg) 0 34 0
    | none => s
  else s

/-- One run (R365 to R370). A record that is not delivered is not written (R613; DESIGN CHOICE: the run then ends with no flag set,
since the mesh answered its read with NACK and the spec names no outcome of such a run). -/
def State.govRun (s : State) (d : Die) (v : W64) : State :=
  let base := fld v 0 6 * 0x1000000 + 64 * fld v 6 18
  let w := if fld v 0 6 < 48 then s.wordAt base else 0
  let u := if fld v 0 6 < 48 then s.readWords 15 [(s.full base).toNat] else (0, s)
  if u.1 ≠ 0 then u.2 else
  let s := u.2
  let r := GovRec.of w
  let bad := s.govBad d v r
  if bad ≠ 0 then
    ((s.bumpLo (rGovCnt d.val 1) 1).raise fGovBad 20 d.val [d.val, fld v 0 6, fld v 6 18, bad]).govFlag v
  else
    match coreOf? r.acore with
    | none => s
    | some ac =>
      let m := 64 * d.val + r.mon
      let z := govern w r (s.reg (rVecAmax ac r.areg)) (s.monShown m).bins (s.monBase m)
      (((s.bumpLo (rGovCnt d.val 0) 1).wrLocal base (bytesOf 64 z)).govFlag v).govClear d v r

/-- MON_GOVRUN. -/
def execMonGovrun (d : Die) (v : W64) (s : State) : Host.Outcome State Fault Refusal := s.live <|
  .next (s.ifOn 79 (fun s => s.govRequest d v))

/-- GOVERNOR_RUN: the oldest queued run (R363). -/
def execGovernorRun (d : Die) (s : State) : Host.Outcome State Fault Refusal := s.live <|
  match s.govQueue d.val with
  | v :: rest => .next ((s.setGovQueue d.val rest).govRun d v)
  | [] => .next s

end Sys2Proof.Machine
end

