-- ==== Sys2Proof/Machine/NzLink.lean ====
section
/-! DEFINITION. The Nimzen halves as links (R493, R494, R498, R499, R510, Table 17-7): records sent, training, keying and loss; and the
commands that links and halves share. -/
namespace Sys2Proof.Machine

/-- A half leaves UP or DEGRADED for DOWN: units that waited may move on. -/
def State.halfGone (s : State) (h : Half) : State := (s.halfTo h 1).settleAll.collAll.pairPump

/-! ### Sending records (R493, R494, R498) -/

/-- A message header and its complement; an empty place. -/
def nzHead (m : NzMsg) : List Byte :=
  let h := bytesOf 8 (m.op + 2 ^ 5 * m.slots + 2 ^ 12 * m.txid + 2 ^ 22 * m.arg)
  h ++ complBytes h
def nzNoHead : List Byte := padTo 8 [] ++ complBytes (padTo 8 [])
/-- The data slots of a message of the device. -/
def NzMsg.dataSlots (m : NzMsg) : List (List Byte) := takeD (padTo 64 []) m.slots (chunks 64 (m.data.length + 1) m.data |>.map (padTo 64))

/-- What a half has to send: bodies of CTRL flits, messages, and data slots of messages whose headers have gone. -/
structure NzLoad where
  ctl   : List (List Byte)
  out   : List NzMsg
  slots : List (List Byte)
deriving DecidableEq, Repr

/-- Pack up to n flits, as KIND and the 228 B behind the flit header (Table 18-2): two message headers and the next three data slots each.
A CTRL flit carries its body there alone (DESIGN CHOICE: the spec gives it none). -/
def nzPack : Nat → NzLoad → List (Nat × List Byte) × NzLoad
  | 0, w => ([], w)
  | n + 1, w =>
    match w.ctl with
    | c :: cs =>
      let r := nzPack n { w with ctl := cs }
      ((3, padTo 228 c) :: r.1, r.2)
    | [] =>
      if w.out.isEmpty && w.slots.isEmpty then ([], w)
      else
        let hs := w.out.take 2
        let q := w.slots ++ hs.flatMap NzMsg.dataSlots
        let r := nzPack n { w with out := w.out.drop 2, slots := q.drop 3 }
        ((1, padTo 228 ((takeD nzNoHead 2 (hs.map nzHead)).flatten ++ (q.take 3).flatten)) :: r.1, r.2)

/-- A flit body: KIND and its complement, and 228 B. -/
def nzFlitHead (kind : Nat) : List Byte := bytesOf 4 kind ++ complBytes (bytesOf 4 kind)
def nzFlit (kind : Nat) (bs : List Byte) : BitVec 1888 := BitVec.ofNat 1888 (natOf (nzFlitHead kind ++ padTo 228 bs))

/-- Fresh key and salt in one direction of a half (R489, R549). -/
def HalfSt.rekeyTx (x : HalfSt) (draw : Nat) : HalfSt :=
  { x with txKey := Config.sessionKey draw (Config.compTranscript draw) Config.halfUpward, txRec := 0 }
def HalfSt.rekeyRx (x : HalfSt) (draw : Nat) : HalfSt :=
  { x with rxKey := Config.sessionKey draw (Config.compTranscript draw) (!Config.halfUpward), rxRec := 0 }

/-- Close a record over up to 64 flits: their contents are sealed with the flit headers as additional data, and the flits are kept to be
resent unchanged (R498). A record that rekeys its direction is the last under its key (R489). -/
def HalfSt.closeRecord (x : HalfSt) (draw : Nat) : HalfSt :=
  let p := nzPack 64 ⟨x.ctl, x.out, x.slots⟩
  if p.1.isEmpty then x
  else
    let g := Config.gcmSeal x.txKey x.txRec (p.1.flatMap (fun f => nzFlitHead f.1)) (p.1.flatMap (·.2))
    let fs := (p.1.zip (chunks 228 (p.1.length + 1) (padTo (228 * p.1.length) g.1))).map (fun f => nzFlit f.1.1 f.2)
    let y : HalfSt := { x with ctl := p.2.ctl, out := p.2.out, slots := p.2.slots, txRec := x.txRec + 1, asks := 0
                               last := fs ++ [nzFlit 2 (padTo 16 g.2 ++ bytesOf 8 x.txRec)] }
    if p.1.any (fun f => f.1 == 3 && f.2.head? == some 2) then y.rekeyTx draw else y

/-- The half's direction is to take fresh keys; the half fails while the random source has failed (R489, R548). -/
def State.nzAskRekey (s : State) (h : Half) : State :=
  if (s.half h).ctl.contains ctrlRekey then s
  else if s.sec.trngFail then s.halfGone h else s.onHalf h (fun x => { x with ctl := x.ctl ++ [ctrlRekey] })

/-- RECORD_CLOSE of a half that no recalibration holds (R621). -/
def State.halfRecord (s : State) (h : Half) : State :=
  if (s.half h).up && !(s.calNow (24 + h.val)) then
    let t := s.tick.onHalf h (fun x => x.closeRecord s.free)
    if 2 ^ 31 ≤ (t.half h).txRec + 3 then t.nzAskRekey h else t
  else s

/-- The companion asks for the last record again; after four such requests the half goes DOWN (R498). -/
def State.nzResend (s : State) (h : Half) : State :=
  if 4 ≤ (s.half h).asks + 1 then s.halfGone h else s.onHalf h (fun x => { x with asks := x.asks + 1 })

/-! ### Training, keying and loss -/

/-- RETRAIN in NZ_HCTLh: a half that is not OFF goes to TRAINING. -/
def State.nzRetrain (s : State) (h : Half) : State :=
  if (s.half h).st = 0 ∨ (s.half h).st = 2 then s else (if (s.half h).up then s.halfGone h else s).halfTo h 2

/-- REKEY in NZ_HCTLh: both directions take fresh keys from record boundaries that CTRL flits name. -/
def State.nzRekey (s : State) (h : Half) : State :=
  if (s.half h).up then
    let t := s.nzAskRekey h
    if (t.half h).up then t.onHalf h (fun x => { x with ctl := x.ctl ++ [ctrlAskRekey] }) else t
  else s

def execNzRetrain (h : Half) (s : State) : Host.Outcome State Fault Refusal :=
  s.live <| .next (s.ifOn (halfDom h) (fun s => s.nzRetrain h))
def execNzRekey (h : Half) (s : State) : Host.Outcome State Fault Refusal :=
  s.live <| .next (s.ifOn (halfDom h) (fun s => s.nzRekey h))

/-- HALF_DOWN (R510). -/
def execHalfDown (h : Half) (s : State) : Host.Outcome State Fault Refusal :=
  s.live <| .next (if (s.half h).up then s.halfGone h else s)

/-- Does the companion's signature hold (R499)? -/
def State.compOk (s : State) (draw : Nat) (key sig : List Byte) : Bool :=
  Config.sha3 key == Config.compDigest s.boot.image && Config.mldsaVerify key (Config.compTranscript draw) sig

/-- NZ_KEYING: a half in KEYING keys. The device signs where it has its identity (R499, R546); in RECOVERY the companion need not
authenticate (R529). -/
def execNzKeying (h : Half) (compKey compSig : List Byte) (s : State) : Host.Outcome State Fault Refusal := s.live <|
  let x := s.half h
  if x.st ≠ 3 then .next s
  else if s.sec.trngFail then .next (s.halfTo h 1)
  else
    let draw := s.free
    let s := s.tick
    if bitOf (s.reg rNzCfg) 2 && s.boot.st != 4 && !(s.compOk draw compKey compSig) then
      .next ((s.halfTo h 6).raise fNzPeer 14 h.val [h.val])
    else
      let y : HalfSt := { x with st := if x.x8 || x.nrz then 5 else 4, fails := 0, rx := [], lost := false, asks := 0, last := []
                                 sig := if s.sec.ident then Config.idSign (Config.compTranscript draw) else [] }
      .next (s.setHalf h ((y.rekeyTx draw).rekeyRx draw)).wlPump

/-! ### Commands that links and halves share (R490, R498, R499) -/

/-- RECORD_CLOSE. -/
def execRecordClose (e : LinkEnd) (s : State) : Host.Outcome State Fault Refusal := s.live <|
  match e with
  | .link l => .next (s.linkRecord l)
  | .half h => .next (s.halfRecord h)

/-- LINK_RETRAIN_TIMER. -/
def execLinkRetrainTimer (e : LinkEnd) (s : State) : Host.Outcome State Fault Refusal := s.live <|
  match e with
  | .link l => .next (s.linkTimer l)
  | .half h => .next (if (s.half h).st = 1 then (s.linkOver 1 (s.half h).since).elim s (fun t => t.halfTo h 2) else s)

/-- TRAINING_DONE: of a half `x4` says x8 in place of x16 and `half` 32 GT/s in place of 64. -/
def execTrainingDone (e : LinkEnd) (x4 laneHi half : Bool) (s : State) : Host.Outcome State Fault Refusal := s.live <|
  match e with
  | .link l => .next (s.linkTrained l x4 laneHi half)
  | .half h => .next (if (s.half h).st = 2 then s.onHalf h (fun x => { x with st := 3, since := s.tb.time, x8 := x4, nrz := half }) else s)

/-- TRAINING_TIMEOUT: training after 500 ms, keying after 20 ms. -/
def execTrainingTimeout (e : LinkEnd) (s : State) : Host.Outcome State Fault Refusal := s.live <|
  match e with
  | .link l => .next (s.linkTimeout l)
  | .half h => .next (if (s.half h).st = 2 ∨ (s.half h).st = 3 then
      (s.linkOver (s.half h).st (s.half h).since).elim s (fun t => t.halfTo h 1) else s)

end Sys2Proof.Machine
end

