-- ==== Sys2Proof/Machine/Time.lean ====
section
/-! DEFINITION. GLOBAL_TIME and the states of the time base (spec/16_time_base_and_topo.md R439 to R450). -/
namespace Sys2Proof.Machine

/-! ### Fields -/

def State.timeSrc (s : State) : Nat := s.rf rTbCfg 0 2
/-- The link to the current parent. -/
def State.parentLink (s : State) : Option Link := linkOf? (if s.tb.onAlt then s.rf rTbCfg 7 5 else s.rf rTbCfg 2 5)

/-- GLOBAL_TIME steps forward to t (R441). -/
def State.stepTime (s : State) (t : Nat) : State :=
  (s.reach (BitVec.ofNat 64 t)).placePitch

/-- TB_BADCNT and a TB_BAD record (R443). -/
def State.tbBad (s : State) : State := (s.bumpHi (rTbCnt 1) 1).raise fTbBad 12 0 []

/-! ### The value of time -/

/-- A write to TB_TIMESET (R441, R443). -/
def State.timeset (s : State) (v : W64) : State :=
  if 1 < s.tb.st then s.tbBad
  else match s.timeSrc with
    | 0 => if v.toNat % 1000000000 = 0 then s.onTb (fun x => { x with st := 1, value := some v, applied := false }) else s.tbBad
    | 2 => if s.tb.time.toNat ≤ v.toNat then (s.stepTime v.toNat).onTb (fun x => { x with st := 5, depth := 0 }) else s.tbBad
    | _ => s.tbBad

/-- TB_TIMESET. -/
def execTbTimeset (v : W64) (s : State) : Host.Outcome State Fault Refusal := s.live <| .next (s.timeset v)

/-- The reference is lost (R442): what was measured before counts for no relock. -/
def State.refLost (s : State) : State :=
  if s.tb.st = 2 then ((s.onTb (fun x => { x with st := 3, held := x.time, edge := none, offs := [] })).bumpLo (rTbCnt 2) 1).raise fTimeHold 12 0 [] else s

/-- Nanoseconds from a time to the nearest whole second. -/
def offSecond (t : Nat) : Nat := min (t % 1000000000) (1000000000 - t % 1000000000)

/-- SYNC_IN_EDGE (R441, R442): GLOBAL_TIME reads `now` at the edge. -/
def execSyncInEdge (now : W64) (s : State) : Host.Outcome State Fault Refusal := s.live <|
  if s.mayBe now then
    let s := s.reach now
    if s.timeSrc ≠ 0 then .next s
    else
      match s.tb.st, s.tb.value with
      | 1, some v =>
        if now.toNat ≤ v.toNat then
          .next ((s.stepTime v.toNat).onTb (fun x => { x with value := none, applied := true, depth := 0 }))
        else .next (s.onTb (fun x => { x with value := none })).tbBad
      | 2, _ => .next (if 1000 < offSecond now.toNat then s.refLost else s)
      | 3, _ | 4, _ => .next (s.onTb (fun x => { x with edge := some (offSecond now.toNat) }))
      | _, _ => .next s
  else .next s

/-- Four offsets that agree with one another within 50 ns. -/
def agree (l : List Int) : Bool :=
  l.length == 4 && l.all (fun a => l.all (fun b => decide (a - b ≤ 50)))

/-- TIME_LOCK (R441): from ACQUIRING, or a relock from HOLDOVER or LOST, by an offset measured since: of the last SYNC_IN edge from a whole
second, or of the last exchange (Table 16-2). -/
def execTimeLock (s : State) : Host.Outcome State Fault Refusal := s.live <|
  let t := s.tb
  let lock (s : State) : State := s.onTb (fun x => { x with st := 2 })
  match s.timeSrc, t.st with
  | 0, 1 => .next (if t.applied then lock s else s)
  | 0, 3 | 0, 4 => .next (if t.edge.any (fun d => decide (d ≤ 50)) then lock s else s)
  | 1, 1 =>
    if agree t.offs then
      let mean := t.offs.sum / 4
      .next (lock (if 0 < mean then s.stepTime (t.time.toNat + mean.toNat) else s))
    else .next s
  | 1, 3 | 1, 4 => .next (if t.offs.head?.any (fun o => decide (o.natAbs ≤ 50)) then lock s else s)
  | _, _ => .next s

/-- REF_LOST (R442). -/
def execRefLost (why : RefLoss) (s : State) : Host.Outcome State Fault Refusal := s.live <|
  match why, s.timeSrc with
  | .link, 1 =>
    if s.tb.bad < 4 then .next s
    else if bitOf (s.reg rTbCfg) 12 && !s.tb.onAlt then .next (s.onTb (fun x => { x with onAlt := true, bad := 0, asked := none, offs := [] }))
    else .next s.refLost
  | .link, _ => .next s
  | _, 0 => .next s.refLost
  | _, _ => .next s

/-- HOLDOVER_EXPIRY (R441, R442): HOLD_LIM ms have passed in HOLDOVER. -/
def execHoldoverExpiry (s : State) : Host.Outcome State Fault Refusal := s.live <|
  if s.tb.st = 3 then
    match s.reachBy (s.tb.held.toNat + 1000000 * s.rf rTbCfg 33 16) with
    | some s => .next ((s.onTb (fun x => { x with st := 4 })).raise fTimeLost 12 0 [])
    | none => .next s
  else .next s

/-! ### Exchanges over links (R446, R447) -/

/-- Put a TIME flit in a link's send queue; its body's layout is this model's. -/
def State.sendTime (s : State) (l : Link) (body : List Byte) : State :=
  let x := s.link l
  s.setLink l { x with txq := x.txq ++ [⟨4, 0, false, false, padTo 244 body, none⟩] }

/-- TIME_REQUEST: the child asks; a request that has found no reply counts. -/
def execTimeRequest (t1 : W64) (s : State) : Host.Outcome State Fault Refusal := s.live <|
  if s.timeSrc = 1 ∧ s.mayBe t1 then
    match s.parentLink with
    | some l =>
      if (s.link l).up then
        let lost := s.tb.asked.isSome
        .next (((s.reach t1).onTb (fun x =>
          { x with asked := some t1, bad := if lost then x.bad + 1 else x.bad, offs := if lost then [] else x.offs })).sendTime l (bytesOf 8 t1.toNat))
      else .next ((s.reach t1).onTb (fun x => { x with asked := none, bad := x.bad + 1, offs := [] }))
    | none => .next s
  else .next s

/-- TIME_REQUEST_RECEIVE: the parent answers with its stamps, state and depth; it may have stamped t2 in an earlier pitch. -/
def execTimeRequestReceive (l : Link) (t2 t3 : W64) (s : State) : Host.Outcome State Fault Refusal := s.live <|
  if (s.link l).up ∧ s.mayBe t3 ∧ t2.toNat ≤ t3.toNat then
    .next ((s.reach t3).sendTime l (bytesOf 8 t2.toNat ++ bytesOf 8 t3.toNat ++ bytesOf 1 s.tb.st ++ bytesOf 1 s.tb.depth))
  else .next s

/-- The offset of an exchange in ns. -/
def timeOffset (t1 t2 t3 t4 : W64) : Int :=
  (((t2.toNat : Int) - t1.toNat) - ((t4.toNat : Int) - t3.toNat)) / 2

/-- Monitors of source 20 take the offset (Table 23-6). -/
def State.monOffset (s : State) (v : Int) : State :=
  (rangeFrom 128 64).foldl (fun s m => if s.monSrc m = 20 then s.monTake m v else s) s

/-- TIME_REPLY. -/
def execTimeReply (t1 t2 t3 t4 : W64) (state : BitVec 3) (depth : BitVec 4) (s : State) : Host.Outcome State Fault Refusal := s.live <|
  if s.tb.asked = some t1 ∧ s.timeSrc = 1 ∧ s.mayBe t4 then
    let s := (s.reach t4).onTb (fun x => { x with asked := none })
    if (state = 2 ∨ state = 5) ∧ depth ≠ 15 then
      let o := timeOffset t1 t2 t3 t4
      .next ((s.onTb (fun x => { x with
        offset := BitVec.ofInt 32 o, offs := (o :: x.offs).take 4, bad := 0, depth := depth.toNat + 1
        st := if x.st = 0 then 1 else x.st })).monOffset o)
    else .next ((s.onTb (fun x => { x with bad := x.bad + 1, offs := [], st := if x.st = 0 then 1 else x.st })).bumpHi (rTbCnt 1) 1)
  else .next s

/-- The next whole second of GLOBAL_TIME for which no pulse has begun. -/
def State.nextSecond (s : State) : Nat :=
  let t := s.tb.time.toNat
  if t % 1000000000 = 0 ∧ s.tb.pulse ≠ some (t / 1000000000) then t / 1000000000 else t / 1000000000 + 1

/-- SYNC_OUT_PULSE (R445): a whole second comes in LOCKED or FREE. -/
def execSyncOutPulse (s : State) : Host.Outcome State Fault Refusal := s.live <|
  if s.tb.st = 2 ∨ s.tb.st = 5 then
    match s.reachBy (1000000000 * s.nextSecond) with
    | some t => .next (t.onTb (fun x => { x with pulse := some s.nextSecond }))
    | none => .next s
  else .next s

/-- The level of SYNC_OUT (R445): high for 100 ns from a whole second in LOCKED or FREE. -/
def State.syncOut (s : State) : Bool :=
  (s.tb.st == 2 || s.tb.st == 5)
    && s.tb.pulse.any (fun n => decide (1000000000 * n ≤ s.tb.time.toNat) && decide (s.tb.time.toNat < 1000000000 * n + 100))

end Sys2Proof.Machine
end

