-- ==== Sys2Proof/Machine/Flash.lean ====
section
/-! DEFINITION. Reset, RECOVERY and the boot flash (spec/19_boot_menus_larder.md R518 to R524, R528, R529, R534 to R536;
spec/25_register_map.md R652; spec/20_security.md R550). -/
namespace Sys2Proof.Machine

def State.onBoot (s : State) (f : BootSt → BootSt) : State := { s with boot := f s.boot }
def State.onSec (s : State) (f : SecSt → SecSt) : State := { s with sec := f s.sec }

/-! ### The flash (R520) -/

/-- A byte of the flash; an erased byte reads 0xFF. -/
def flashErased (_ : Nat) : Byte := 0xFF
def State.flashGet (s : State) (a : Nat) : Byte :=
  if a < s.boot.size then s.boot.flash.get flashErased a else Config.flashByte s.free a
def State.flashBytes (s : State) (a n : Nat) : List Byte := (rangeFrom a n).map s.flashGet
/-- Store bytes; the flash has none at or above its density. -/
def State.flashPut (s : State) (a : Nat) (bs : List Byte) : State :=
  s.onBoot (fun b => { b with flash := (bs.zipIdx a).foldl (fun m p =>
    if p.2 < b.size then SMap.put flashErased p.2 p.1 m else m) b.flash })
/-- Make n bytes read 0xFF. -/
def State.flashErase (s : State) (a n : Nat) : State :=
  s.onBoot (fun b => { b with flash := b.flash.filter (fun e => !(decide (a ≤ e.1) && decide (e.1 < a + n))) })
/-- Bytes that a command left unfinished: free values. -/
def State.flashSmear (s : State) (a n : Nat) : State :=
  (s.flashPut a ((List.range n).map (fun i => Config.flashByte s.free i))).tick

/-- Slots: 0 A, 1 B. -/
def State.slotSize (s : State) : Nat := s.boot.size / 2
def State.slotBase (s : State) (k : Nat) : Nat := k * s.slotSize
/-- The slot that an offset falls in. -/
def State.slotOf (s : State) (a : Nat) : Nat := if a < s.slotSize then 0 else 1
/-- The slot booted or being booted; in STARTING and RECOVERY none is. -/
def State.bootedSlot (s : State) : Option Nat := if s.boot.st = 0 ∨ s.boot.st = 4 then none else some s.boot.slot

/-! ### The image (R521 to R524) -/

/-- A field of n bytes at offset o. -/
def imgFld (h : List Byte) (o n : Nat) : Nat := natOf ((h.drop o).take n)
def imgSections (h : List Byte) : Nat := imgFld h 10 2
def imgVersion (h : List Byte) : Nat := imgFld h 12 4
def imgLen (h : List Byte) : Nat := imgFld h 16 8
def imgKeyOff (h : List Byte) : Nat := imgFld h 24 8
def imgSigOff (h : List Byte) : Nat := imgFld h 32 8
def keyLen : Nat := 2592
def sigLen : Nat := 4627

/-- A section entry (Table 19-3): type, offset, length, target. -/
def imgSection (t : List Byte) (i : Nat) : Nat × Nat × Nat × Nat :=
  let e := (t.drop (32 * i)).take 32
  (imgFld e 0 1, imgFld e 8 8, imgFld e 16 8, imgFld e 24 8 % 2 ^ 48)
/-- The sections of an image from its section table. -/
def imgTable (n : Nat) (t : List Byte) : List (Nat × Nat × Nat × Nat) := (List.range n).map (imgSection t)

/-- Does a header of 128 B break Table 19-2? -/
def hdrBad (slot dev : Nat) (h : List Byte) : Bool :=
  (h.take 8 != [0x43, 0x4F, 0x52, 0x4C, 0x4F, 0x4E, 0x34, 0x38]) || imgFld h 8 2 != 1
    || (h.drop 64).take 64 != complBytes (h.take 64)
    || imgSections h == 0 || decide (64 < imgSections h)
    || decide (slot < imgLen h) || decide (imgSigOff h < imgKeyOff h + keyLen) || imgSigOff h + sigLen != imgLen h
    || imgFld h 42 1 / 2 != 0 || imgFld h 43 21 != 0
    || (imgFld h 42 1 % 2 == 0 && imgFld h 40 2 != dev)

/-- Does a section entry break Table 19-3? -/
def secBad (keyOff : Nat) (e : List Byte) : Bool :=
  let ty := imgFld e 0 1
  let tgt := imgFld e 24 8
  ty == 0 || decide (7 < ty) || imgFld e 1 7 != 0 || decide (keyOff < imgFld e 8 8 + imgFld e 16 8)
    || (if ty = 3 then decide (0x30000000 < tgt % 2 ^ 48 + imgFld e 16 8) || decide (0x30000000 ≤ tgt % 2 ^ 48) else tgt != 0)

/-- Do two ranges overlap? -/
def overlap (a b : Nat × Nat × Nat × Nat) : Bool :=
  decide (a.2.1 < b.2.1 + b.2.2.1) && decide (b.2.1 < a.2.1 + a.2.2.1) && a.2.2.1 != 0 && b.2.2.1 != 0
def anyOverlap : List (Nat × Nat × Nat × Nat) → Bool
  | [] => false
  | a :: l => l.any (overlap a) || anyOverlap l

/-- Is a slot malformed (R524)? -/
def State.slotBad (s : State) (k : Nat) : Bool :=
  let h := s.flashBytes (s.slotBase k) 128
  hdrBad s.slotSize s.devId.toNat h ||
    (let t := s.flashBytes (s.slotBase k + 128) (32 * imgSections h)
     let es := imgTable (imgSections h) t
     (List.range (imgSections h)).any (fun i => secBad (imgKeyOff h) ((t.drop (32 * i)).take 32)) || anyOverlap es
       || [1, 4, 5, 7].any (fun ty => decide (1 < (es.filter (fun e => e.1 == ty)).length)))

/-- The owner key and the signature of an image, and its digest (R523). -/
def imgKey (img : List Byte) : List Byte := (img.drop (imgKeyOff img)).take keyLen
def imgSig (img : List Byte) : List Byte := (img.drop (imgSigOff img)).take sigLen
def imgDigest (img : List Byte) : List Byte := Config.sha3 (img.take (imgSigOff img))

/-- The checks of Table 20-3 over key, digest, signature and VERSION of an image: 0, or the reason. Larder words that mismatch are
reported (R609). -/
def State.imageCheck (s : State) (key digest sig : List Byte) (version : Nat) : Nat × State :=
  let s := if s.sec.owned then (rangeFrom 1 8).foldl (fun s n => (s.lardRead n).2) s else s
  if s.sec.owned && s.lardDigest 1 != some (Config.sha3 key) then (3, s)
  else if !(Config.mldsaVerify key digest sig) then (3, s)
  else
    let r := s.lardRead 0
    (if version < fld r.1 0 32 then 4 else 0, r.2)

/-! ### Resets (R652, Table 25-5) -/

/-- The write in progress is kept or lost; queued writes are lost (R538, R540). -/
def State.lardReset (s : State) : State :=
  match s.boot.lardq with
  | [] => s
  | (n, v) :: _ => if Config.lardKeep s.free then s.tick.lardStore n v else s.tick

/-- A flash command that a reset cuts off. -/
def State.flashReset (s : State) : State :=
  match s.boot.cmd with
  | some c => if c.code = 1 then s.flashSmear c.addr 0x10000 else if c.code = 2 then s.flashSmear c.addr 64 else s
  | none => s

/-- Every register and every queue at its reset value; MRAM, the flash and the commands that wait stay. -/
def State.clearAll (s : State) : State :=
  let s := s.lardReset.flashReset
  { State.reset with
    pending := s.pending, part := s.part, free := s.free
    boot := { BootSt.reset with flash := s.boot.flash, size := s.boot.size, lard := s.boot.lard, lardC := s.boot.lardC, wear := s.boot.wear } }

/-- RESET_N (Table 25-5): PW_FAILS and PW_LOCK stay, and THERMTRIP_N stays low (R673). -/
def State.resetN (s : State) : State :=
  let t := s.clearAll
  { t with sec := { t.sec with pwFails := s.sec.pwFails, pwLock := s.sec.pwLock }, pwr := { t.pwr with trip := s.pwr.trip } }

/-- POR_N_ASSERT. -/
def execPorNAssert (s : State) : Host.Outcome State Fault Refusal := .next s.clearAll
/-- RESET_N_ASSERT. -/
def execResetNAssert (s : State) : Host.Outcome State Fault Refusal := .next s.resetN

/-! ### RECOVERY (R529) -/

/-- Every core disabled, its work abandoned. -/
def State.disableAll (s : State) : State :=
  (List.finRange 48).foldl (fun s c =>
    (s.onCore c (fun k => { CoreSt.reset with unit := Vector.replicate 13 .disabled, valid := k.valid })).setReg (rEn c) 0) s

/-- The device stops in RECOVERY: cores disabled, the topo does not run, links are OFF, the halves may train. -/
def State.recover (s : State) : State :=
  let s := s.disableAll.onBoot (fun b => { b with st := 4, phase := 4, slot := 0, version := 0, left := [], weights := [], got := [], len := 0 })
  let s := s.onTb (fun t => { t with running := false, due := [], wins := [] })
  let s := (List.finRange 24).foldl (fun s l => s.linkOff l) s
  (List.finRange 2).foldl (fun s h => s.halfStart h) s

/-- A slot failed with a reason (R528). -/
def State.slotReason (s : State) (k reason : Nat) : State :=
  s.onBoot (fun b => if k = 0 then { b with failA := reason } else { b with failB := reason })

/-- No slot is left: RECOVERY with a BOOT_FAIL record. -/
def State.bootFail (s : State) : State := s.recover.raise fBootFail 15 0 []

/-! ### Flash commands (R534, R535) -/

/-- A refused command. -/
def State.flashRefuse (s : State) : State := (s.bumpLo rBootCnt 1).raise fBootBad 15 0 []

/-- The unit that a command's address is aligned to: a sector, 64 B, 64 B, and for VERIFY any address. -/
def flashUnit (code : Nat) : Nat := if code = 1 then 0x10000 else if code = 4 then 1 else 64

/-- A command of BOOT_PCMD at the address in BOOT_PADDR. -/
def State.flashCmd (s : State) (code : Nat) : State :=
  let a := s.rf rBootPaddr 0 30
  if s.boot.cmd.isSome || code == 0 || decide (4 < code) || a % flashUnit code != 0 || s.bootedSlot == some (s.slotOf a) then s.flashRefuse
  else
    let data := (List.range 8).flatMap (fun k => bytesOf 8 (s.reg (rBootPdata k)).toNat)
    s.onBoot (fun b => { b with cmd := some ⟨code, a, data⟩ })

/-- The commands as the companion gives them: BOOT_PADDR and then BOOT_PCMD. -/
def State.flashAt (s : State) (paddr : BitVec 30) (code : Nat) : State := (s.setReg rBootPaddr (paddr.setWidth 64)).flashCmd code

/-- ERASE. -/
def execErase (paddr : BitVec 30) (s : State) : Host.Outcome State Fault Refusal := s.live <| .next (s.flashAt paddr 1)
/-- PROGRAM. -/
def execProgram (paddr : BitVec 30) (s : State) : Host.Outcome State Fault Refusal := s.live <| .next (s.flashAt paddr 2)
/-- BOOT_READ. -/
def execBootRead (paddr : BitVec 30) (s : State) : Host.Outcome State Fault Refusal := s.live <| .next (s.flashAt paddr 3)
/-- VERIFY. -/
def execVerify (paddr : BitVec 30) (s : State) : Host.Outcome State Fault Refusal := s.live <| .next (s.flashAt paddr 4)

/-- What VERIFY finds. -/
def State.verifySlot (s : State) (k : Nat) : Nat × State :=
  let ok := Config.flashRead s.free
  let s := s.tick
  if !ok then (6, s)
  else if s.slotBad k then (2, s)
  else
    let img := s.flashBytes (s.slotBase k) (imgLen (s.flashBytes (s.slotBase k) 128))
    s.imageCheck (imgKey img) (imgDigest img) (imgSig img) (imgVersion img)

/-- The effect of a command that the flash completed. -/
def State.flashEnd (s : State) (c : FlashRun) : State :=
  match c.code with
  | 1 => s.flashErase c.addr 0x10000
  | 2 => s.flashPut c.addr c.data
  | 3 => (List.range 8).foldl (fun s k => s.setReg (rBootPdata k) (BitVec.ofNat 64 (natOf (s.flashBytes (c.addr + 8 * k) 8)))) s |>.tick
  | _ =>
    let r := s.verifySlot (s.slotOf c.addr)
    r.2.onBoot (fun b => { b with vresult := r.1 })

/-- FLASH_CMD_DONE: the command completes, or the flash has not completed it within 5 s. A reset that waited follows
(R536). -/
def execFlashCmdDone (ok : Bool) (s : State) : Host.Outcome State Fault Refusal := s.live <|
  match s.boot.cmd with
  | none => .next s
  | some c =>
    let s := if ok then s.flashEnd c else s.flashReset
    let s := s.onBoot (fun b => { b with cmd := none, perr := !ok })
    .next (if s.boot.wantReset then s.resetN else s)

/-- RESET in BOOT_CTL (R536): at once, or once a command that writes or reads has ended. -/
def State.bootReset (s : State) : State :=
  match s.boot.cmd with
  | none => s.resetN
  | some c => if c.code = 4 then s.resetN else s.onBoot (fun b => { b with wantReset := true })

/-- BOOT_RESET. -/
def execBootReset (s : State) : Host.Outcome State Fault Refusal := s.live <| .next s.bootReset

end Sys2Proof.Machine
end

