-- ==== Sys2Proof/Machine/Security.lean ====
section
/-! DEFINITION. The security enclave and its mailbox (spec/20_security.md R542 to R548, R550 to R557). -/
namespace Sys2Proof.Machine

/-! ### The mailbox buffer -/

def State.secBuf (s : State) (a : Nat) : Byte := s.sec.buf.get (fun _ => 0) a
def State.secBytes (s : State) (a n : Nat) : List Byte := (rangeFrom a n).map s.secBuf
def State.secStore (s : State) (a : Nat) (bs : List Byte) : State :=
  s.onSec (fun x => { x with buf := (bs.zipIdx a).foldl (fun m p => SMap.put (fun _ => (0 : Byte)) p.2 p.1 m) x.buf })

/-- Words 19's bits: a password is enabled, debug is never to open. -/
def State.pwEn (s : State) : Bool := bitOf (s.lardVal 19) 0
def State.never (s : State) : Bool := bitOf (s.lardVal 19) 1

/-- The stored form of a password (R555). -/
def pwForm (pw : List Byte) : List Byte := Config.sha3 (Config.ascii "GLX48-PW" ++ Config.sha3 Config.idKey ++ pw)
/-- The password in SEC_BUF, of the length that ARG gives. -/
def State.pwBytes (s : State) (len : Nat) : List Byte := s.secBytes 0 len
/-- Is a password well-formed? -/
def State.pwGood (s : State) (len : Nat) : Bool :=
  decide (8 ≤ len) && decide (len ≤ 16) && (s.pwBytes len).all (fun b => decide (0x21 ≤ b.toNat) && decide (b.toNat ≤ 0x7E))

/-! ### Starting a command (R543, R544, Table 20-1) -/

/-- Why a command is refused: 0 where it is not. -/
def State.secRefusal (s : State) (code arg : Nat) : Nat :=
  if code = 0 ∨ 12 < code then 2
  else if code = 5 ∧ s.sec.pwLock then 5
  else if (code = 5 ∨ code = 6) ∧ !(s.pwGood arg) then 2
  else match code with
  | 1 | 2 => if s.sec.ident then 0 else if s.sec.pufFail then 7 else 3
  | 3 => if s.sec.trngFail then 8 else 0
  | 4 => if !s.sec.owned || s.never then 3 else if s.sec.nonce.isNone then 6 else 0
  | 5 => if !s.pwEn || s.never then 3 else 0
  | 6 | 7 | 12 => if s.sec.debug then 0 else 3
  | 9 => if s.sec.owned || s.boot.st != 3 then 3 else 0
  | 10 => if !s.sec.owned then 3 else if s.sec.nonce.isNone then 6 else 0
  | _ => 0

/-- A command or a write that is not performed. -/
def State.secRefuse (s : State) (result : Nat) : State :=
  (s.bumpLo (rSecCnt 0) 1).onSec (fun x => { x with result := result })

/-- Can a path reach the SEC_ page (R542)? The page follows R646 while domain 78 is off. -/
def State.secReach (s : State) (p : SecPath) : Bool := s.domOn 78 && !(p == .program && s.boot.st == 4)

/-- A write of a command code. DEBUG_OPEN and OWN_CLEAR consume the nonce. -/
def State.secCmd (s : State) (p : SecPath) (code arg : Nat) : State :=
  if !(s.secReach p) then (if s.domOn 78 then s else s.bumpLo rMapcnt1 1)
  else if s.sec.busy.isSome then s.secRefuse 1
  else
    let s := if code = 4 ∨ code = 5 then (s.lardRead 19).2 else s
    let r := s.secRefusal code arg
    if r ≠ 0 then (s.secRefuse r).onSec (fun x => { x with lastCmd := code })
    else
      let uses := code == 4 || code == 10
      s.onSec (fun x => { x with lastCmd := code, busy := some ⟨code, p, arg, if uses then x.nonce else none, s.tb.time⟩
                                 nonce := if uses then none else x.nonce })

def execGetId (p : SecPath) (s : State) : Host.Outcome State Fault Refusal := s.live <| .next (s.secCmd p 1 0)
def execAttest (p : SecPath) (s : State) : Host.Outcome State Fault Refusal := s.live <| .next (s.secCmd p 2 0)
def execChallenge (p : SecPath) (s : State) : Host.Outcome State Fault Refusal := s.live <| .next (s.secCmd p 3 0)
def execDebugOpen (p : SecPath) (s : State) : Host.Outcome State Fault Refusal := s.live <| .next (s.secCmd p 4 0)
def execPwTry (p : SecPath) (arg : BitVec 5) (s : State) : Host.Outcome State Fault Refusal :=
  s.live <| .next (s.secCmd p 5 arg.toNat)
def execPwSet (p : SecPath) (arg : BitVec 5) (s : State) : Host.Outcome State Fault Refusal :=
  s.live <| .next (s.secCmd p 6 arg.toNat)
def execPwClear (p : SecPath) (s : State) : Host.Outcome State Fault Refusal := s.live <| .next (s.secCmd p 7 0)
def execCommitVersion (p : SecPath) (s : State) : Host.Outcome State Fault Refusal := s.live <| .next (s.secCmd p 8 0)
def execOwnSet (p : SecPath) (s : State) : Host.Outcome State Fault Refusal := s.live <| .next (s.secCmd p 9 0)
def execOwnClear (p : SecPath) (s : State) : Host.Outcome State Fault Refusal := s.live <| .next (s.secCmd p 10 0)
def execDebugClose (p : SecPath) (s : State) : Host.Outcome State Fault Refusal := s.live <| .next (s.secCmd p 11 0)
def execNever (p : SecPath) (s : State) : Host.Outcome State Fault Refusal := s.live <| .next (s.secCmd p 12 0)

/-! ### The end of a command -/

def secPathNo : SecPath → Nat
  | .program => 0 | .smbus => 1 | .jtag => 2

/-- A failed verification (R553, R555). -/
def State.authFail (s : State) (c : SecRun) : State × Nat :=
  ((s.bumpHi (rSecCnt 0) 1).raise fSecAuth 17 0 [c.code, Config.pathNo (secPathNo c.path)], 4)

/-- The message that the owner signs (R553). -/
def State.debugMsg (s : State) (purpose : Nat) (nonce : BitVec 256) : List Byte :=
  Config.ascii "GLX48-DBG" ++ [BitVec.ofNat 8 purpose] ++ bytesOf 2 s.devId.toNat ++ Config.sha3 Config.idKey ++ bytesOf 32 nonce.toNat

/-- Does the owner's proof in SEC_BUF pass (R553)? -/
def State.ownerProof (s : State) (purpose : Nat) (nonce : BitVec 256) : Bool :=
  let key := s.secBytes 0 keyLen
  s.lardDigest 1 == some (Config.sha3 key) && Config.mldsaVerify key (s.debugMsg purpose nonce) (s.secBytes keyLen sigLen)

/-- The report body of Table 20-4. -/
def State.attestBody (s : State) : List Byte :=
  let flags := b2n s.sec.owned + 2 * b2n s.sec.debug + 4 * b2n s.pwEn + 8 * b2n s.never + 16 * b2n s.boot.wfail + 32 * b2n s.paired
    + 64 * b2n (s.boot.st == 4)
  let words (n : Nat) := (rangeFrom n 8).flatMap (fun k => bytesOf 8 (s.lardVal k).toNat)
  Config.ascii "GLX48ATT" ++ bytesOf 2 1 ++ bytesOf 2 s.devId.toNat ++ bytesOf 1 (match s.part with | .glx384 => 0 | .glx288 => 1)
    ++ bytesOf 1 0xB0 ++ bytesOf 1 flags ++ bytesOf 1 s.tb.st ++ bytesOf 8 s.tb.time.toNat ++ bytesOf 8 (s.tb.pitch % 2 ^ 48)
    ++ bytesOf 4 (s.rf rTbEpoch 0 32) ++ bytesOf 4 s.boot.version.toNat ++ bytesOf 4 (fld (s.lardVal 0) 0 32) ++ bytesOf 4 s.boot.slot
    ++ bytesOf 16 (fld (s.lardVal 9) 0 16) ++ s.secBytes 0 32 ++ padTo 32 [] ++ padTo 64 (Config.sha3 Config.idKey) ++ words 1
    ++ padTo 64 s.boot.image ++ padTo 64 (if s.boot.digests.isEmpty then [] else Config.sha3 s.boot.digests) ++ words 10 ++ padTo 64 []

/-- OWN_CLEAR writes zeros for the next boot; until then words 1 to 8 keep the value in force (R551). -/
def State.ownKeep (s : State) : State := s.onBoot (fun b => { b with ownWas := (rangeFrom 1 8).map s.lardVal })

/-- The effect of a command and its RESULT. -/
def State.secEnd (s : State) (c : SecRun) : State × Nat :=
  match c.code with
  | 1 => (s.secStore 0 (padTo keyLen Config.idKey ++ padTo sigLen (Config.idCert s.part)), 0)
  | 2 =>
    let body := s.attestBody
    ((s.secStore 0 (body ++ padTo sigLen (Config.idSign (Config.sha3 body)))).bumpLo (rSecCnt 1) 1, 0)
  | 3 => (s.tick.onSec (fun x => { x with nonce := some (Config.nonce s.free), drawn := s.tb.time }), 0)
  | 4 => if s.ownerProof 1 (c.nonce.getD 0) then (s.onSec (fun x => { x with debug := true }), 0) else s.authFail c
  | 5 =>
    if s.lardDigest 20 == some (pwForm (s.pwBytes c.arg)) then (s.onSec (fun x => { x with debug := true }), 0)
    else
      let r := (s.onSec (fun x => { x with pwFails := x.pwFails + 1 })).authFail c
      if 8 ≤ s.sec.pwFails + 1 then ((r.1.onSec (fun x => { x with pwLock := true })).raise fSecLock 17 0 [], r.2) else r
  | 6 => (s.lardQueueAll (digestWords 20 (pwForm (s.pwBytes c.arg)) ++ [(19, s.lardNext 19 ||| 1)]), 0)
  | 7 => (s.lardQueueAll (digestWords 20 [] ++ [(19, s.lardNext 19 &&& ~~~1)]), 0)
  | 8 => (if fld (s.lardNext 0) 0 32 < s.boot.version.toNat then s.lardQueue 0 (s.boot.version.setWidth 64) else s, 0)
  | 9 => (s.lardQueueAll (digestWords 1 s.boot.owner), 0)
  | 10 => if s.ownerProof 2 (c.nonce.getD 0) then (s.ownKeep.lardQueueAll (digestWords 1 []), 0) else s.authFail c
  | 11 => (s.onSec (fun x => { x with debug := false }), 0)
  | _ => ((s.lardQueue 19 (s.lardNext 19 ||| 2)).onSec (fun x => { x with debug := false }), 0)

/-- When a running command ends: PW_TRY exactly 1 ms after its start (Table 20-1). -/
def State.secEnds (s : State) (c : SecRun) : Option State := if c.code = 5 then s.reachBy (c.since.toNat + 1000000) else some s

/-- SEC_CMD_DONE: a running command ends (R544). -/
def execSecCmdDone (s : State) : Host.Outcome State Fault Refusal := s.live <|
  match s.sec.busy.bind (fun c => (s.secEnds c).map (fun t => (c, t))) with
  | none => .next s
  | some (c, t) =>
    let r := t.secEnd c
    .next (r.1.onSec (fun x => { x with busy := none, result := r.2 }))

/-- NONCE_EXPIRY: 60 s after it was drawn (R552). -/
def execNonceExpiry (s : State) : Host.Outcome State Fault Refusal := s.live <|
  match s.sec.nonce.bind (fun _ => s.reachBy (s.sec.drawn.toNat + 60000000000)) with
  | some t => .next (t.onSec (fun x => { x with nonce := none }))
  | none => .next s

/-- TRNG_FAIL (R548): at boot step 2, before the HBM fill is complete, the device goes no further. -/
def execTrngFail (s : State) : Host.Outcome State Fault Refusal := s.live <|
  if s.boot.phase = 1 ∧ !s.memc.hbmFilled then .next (s.onSec (fun x => { x with trngFail := true, dead := true }))
  else if s.boot.phase = 0 then .next s
  else .next ((s.onSec (fun x => { x with trngFail := true })).raise fSecTrng 17 0 [])

/-! ### Register access -/

/-- A write of 8 bytes of SEC_BUF (R543). -/
def State.secBufWrite (s : State) (a : Nat) (v : W64) : State :=
  if s.sec.busy.isSome then s.secRefuse 1 else s.secStore a (bytesOf 8 v.toNat)

end Sys2Proof.Machine
end

