-- ==== Sys2Proof/Machine/SelfTest.lean ====
section
/-! DEFINITION. Self-test, recalibration, fields of the image, monitors and the supply and temperature limits
(spec/23_integrity_selftest_monitors.md R608, R617 to R627; spec/26_package_and_electrical.md R670, R671, R673). -/
namespace Sys2Proof.Machine

/-! ### Array self-test (R618 to R620) -/

/-- FLT_BISTREQ: bit a of the mask makes a test pending on array a. -/
def State.bistReq (s : State) (v : W64) : State :=
  match coreOf? (fld v 0 6) with
  | none => s
  | some c => (List.finRange 6).foldl (fun s a =>
      if bitOf v (6 + a.val) then
        (if (s.arr c a).bistPending then s.bumpLo (rFltCnt 3) 1
         else s.setArr c a { s.arr c a with bistPending := true, bistSince := s.pitchMark })
      else s) s

def execFltBistreq (v : W64) (s : State) : Host.Outcome State Fault Refusal := s.live <| .next (s.bistReq v)

/-- Is an array idle for a test? -/
def State.bistIdle (s : State) (c : Core) (a : Arr) : Bool :=
  let x := s.arr c a
  (s.core c).getUnit ⟨a.val, by omega⟩ == .disabled || (x.loadq.isEmpty && x.opq.isEmpty && x.loaded.isNone && !x.swap)

/-- BIST_START: at the first cycle in which the array is idle. -/
def execBistStart (c : Core) (a : Arr) (s : State) : Host.Outcome State Fault Refusal := s.live <|
  let x := s.arr c a
  .next (if x.bistPending && !x.bistRunning && s.coreOn c && s.bistIdle c a then
    s.setArr c a { x with bistPending := false, bistRunning := true } else s)

/-- An array that failed its test: its enable bit clears and it reads DISABLED; what waited for it is dropped. -/
def State.bistFail (s : State) (c : Core) (a : Arr) : State :=
  let s := s.onCore c (fun k => (k.setArr a (k.getArr a).abort).setUnit ⟨a.val, by omega⟩ .disabled)
  ((s.setRf (rEn c) a.val 1 0).setRf (rBistStat c) (12 + a.val) 1 1).raise fBistFail 21 c.val [c.val, a.val]

/-- BIST_DONE: both planes read NONE. -/
def execBistDone (c : Core) (a : Arr) (pass : Bool) (s : State) : Host.Outcome State Fault Refusal := s.live <|
  let x := s.arr c a
  if x.bistRunning then
    let s := s.setArr c a { x with bistRunning := false, p0 := .none, p1 := .none, fp32 := false, loaded := none, taken := false, swap := false }
    .next (if pass then (s.arrAdvance c a 5).settle c else (s.bistFail c a).settle c)
  else .next s

/-- BIST_REFUSE: after BIST_WAIT pitches, or once the core's domain is turning off. -/
def execBistRefuse (c : Core) (a : Arr) (s : State) : Host.Outcome State Fault Refusal := s.live <|
  let x := s.arr c a
  .next (if x.bistPending && !x.bistRunning && (s.pitchesPast x.bistSince (s.rf rFltCtl 1 16) || s.entering c.val) then
    s.bistRefuse c a else s)

/-! ### SerDes recalibration (R621) -/

/-- FLT_CALREQ. -/
def State.calReq (s : State) (v : W64) : State := { s with flt := { s.flt with cal := s.flt.cal ||| v.setWidth 26 } }

def execFltCalreq (v : W64) (s : State) : Host.Outcome State Fault Refusal := s.live <| .next (s.calReq v)

/-- SERDES_CAL_DONE: the recalibrations that ran on the links and halves named have ended. -/
def execSerdesCalDone (links : BitVec 24) (halves : BitVec 2) (s : State) : Host.Outcome State Fault Refusal := s.live <|
  let named (n : Nat) : Bool := if n < 24 then bitOf links n else bitOf halves (n - 24)
  let done := (List.range 26).filter (fun n => named n && s.calNow n)
  .next { s with flt := { s.flt with cal := done.foldl (fun v n => setFld v n 1 0) s.flt.cal } }

/-! ### Fields loaded from the image (R608) -/

/-- The block, and the core, link, half or die within it, of a register address. -/
def regUnit (a : Nat) : Nat × Nat :=
  if a < pageBase 0 then (0, a / 0x10000 % 0x100)
  else
    let b := (a - pageBase 0) / 0x10000
    let o := a % 0x10000
    (b, if b = 1 ∨ b = 8 then o / 0x400 else if 2 ≤ b ∧ b ≤ 7 then o / 0x100
        else if b = 13 ∧ 0x1000 ≤ o then (o - 0x1000) / 0x40 else if b = 14 ∧ 0x1000 ≤ o then (o - 0x1000) / 0x100 else 0)

/-- FIELD_RESTORE: the mismatch is counted and reported; basecamp's copy restores the field, or the device halts. -/
def execFieldRestore (f : FieldAddr) (copyOk : Bool) (s : State) : Host.Outcome State Fault Refusal := s.live <|
  let u := regUnit f.toNat
  let s := s.cmpMiss 9 f.toNat u.2 u.1 u.2
  .next (if copyOk then s.bumpHi (rFltCnt 1) 1 else { s.recover with flt := { s.recover.flt with halt := true } })

/-! ### Monitors (R624 to R627) -/

/-- May monitor m take a source with a selector (R627)? -/
def monSrcOk (m src sel : Nat) : Bool :=
  let io := decide (128 ≤ m)
  match src with
  | 0 => true
  | 1 => !io
  | 2 => !io && decide (sel % 64 < 48) && decide (sel / 64 < 6)
  | 3 | 4 | 5 | 6 | 7 => !io && decide (sel < 48)
  | 8 => true
  | 16 => io && decide (sel < 8)
  | 17 => io && decide (sel < 32)
  | 18 => io && decide (sel < 2048)
  | 19 => io && decide (sel < 24)
  | 20 => io
  | 21 => io && decide (sel < 2)
  | 22 => io && decide (sel < 6)
  | _ => false

/-- The power domain of a monitor's registers (Table 25-3). -/
def monDom (m : Nat) : Nat := if m < 128 then 79 else 76 + (m - 128) / 32

/-- A write to MON_CFGm. The window runs from ENABLE. -/
def State.monCfgWrite (s : State) (m : Nat) (v : W64) : State :=
  if !(monSrcOk m (fld v 0 6) (fld v 6 11)) then s.bumpHi (rFltCnt 3) 1
  else
    let starts := bitOf v 55 && !(s.monEnabled m)
    let s := s.setReg (rMonCfg m) (BitVec.ofNat 64 (fld v 0 56))
    let s := if starts then s.setMon m { s.mon m with since := s.pitchMark } else s
    if bitOf v 56 then s.monClear m else s

/-- MON_CFG_WRITE. -/
def execMonCfgWrite (m : MonNo) (v : W64) (s : State) : Host.Outcome State Fault Refusal := s.live <|
  .next (s.ifOn (monDom m.val) (fun s => s.monCfgWrite m.val v))

/-- MON_CLR: CLR with the configuration as it stands. -/
def execMonClr (m : MonNo) (s : State) : Host.Outcome State Fault Refusal := s.live <|
  .next (s.ifOn (monDom m.val) (fun s => s.monClear m.val))

/-- MON_WINDOW_END (R625). -/
def execMonWindowEnd (m : MonNo) (s : State) : Host.Outcome State Fault Refusal := s.live <|
  let x := s.mon m.val
  let w := s.monWindow m.val
  .next (if s.monEnabled m.val && w != 0 && s.pitchesPast x.since w then
    s.setMon m.val { live := .clear, shown := x.live, windows := x.windows + 1, since := x.since + w } else s)

/-- The sources that are sampled where they arise: exponents, admission waits, extra slots, stalls of guarded steps, resends and time
offsets; and 0, none (Table 23-6). -/
def monSelf (src : Nat) : Bool := [0, 1, 4, 5, 6, 19, 20].contains src

/-- MON_SAMPLE: the sample of a source that the environment measures; a queue's occupancy is what it holds. -/
def execMonSample (m : MonNo) (v : W32) (s : State) : Host.Outcome State Fault Refusal := s.live <|
  .next (if monSelf (s.monSrc m.val) then s
    else s.monTake m.val (if s.monSrc m.val = 18 then ((s.queue (s.monSel m.val)).cells : Int) else v.toInt))

/-! ### Pins, supply and temperature limits -/

/-- INT_N is driven low (R548, R617). -/
def State.intLow (s : State) : Bool :=
  s.flt.halt || s.sec.trngFail || s.queues.any (fun e => e.2.lvlHit && s.rf (rQcfg e.1) 45 2 == 1)

/-- THERMTRIP (R673): a sensor at 120 °C or more; the reading is in 1/16 °C. -/
def execThermtrip (temp : BitVec 16) (s : State) : Host.Outcome State Fault Refusal :=
  .next (if 1920 ≤ temp.toInt then s.onPwr (fun p => { p with trip := true }) else s)

/-- VDD_AON_LOW (R670): as POR_N, THERMTRIP_N excepted, which only POR_N releases (R673). -/
def execVddAonLow (s : State) : Host.Outcome State Fault Refusal := .next (s.clearAll.onPwr (fun p => { p with trip := s.pwr.trip }))

/-- RAIL_UNDERVOLT (R671): as RESET_N; basecamp advances a count in the lifetime telemetry. -/
def execRailUndervolt (s : State) : Host.Outcome State Fault Refusal := s.live <|
  let n := 104 + Config.undervoltWord.val
  let s := s.resetN
  .next (s.lardQueue n (s.lardVal n + 1))

end Sys2Proof.Machine
end

