-- ==== Sys2Proof/Machine/XDispatch.lean ====
section
/-! DEFINITION. Token dispatch (spec/13_conditional_computation.md R372 to R387). Its messages travel as XD packets whose
bodies have this model's layout. -/
namespace Sys2Proof.Machine

/-! ### The dispatch record (Table 13-1) -/

def Xd.table (r : BitVec 512) : Nat := fld r 0 64
def Xd.xmap (r : BitVec 512) : Nat := fld r 64 64
def Xd.rows (r : BitVec 512) : Nat := fld r 128 64
def Xd.ret (r : BitVec 512) : Nat := fld r 192 64
def Xd.drops (r : BitVec 512) : Nat := fld r 256 64
def Xd.t (r : BitVec 512) : Nat := fld r 320 16 + 1
def Xd.k (r : BitVec 512) : Nat := fld r 336 4 + 1
def Xd.e (r : BitVec 512) : Nat := fld r 352 12 + 1
def Xd.rank (r : BitVec 512) : Nat := fld r 368 16
def Xd.nsrc (r : BitVec 512) : Nat := fld r 384 16 + 1
def Xd.rw (r : BitVec 512) : Nat := fld r 400 12 + 1
def Xd.pitch (r : BitVec 512) : Nat := fld r 416 32
def Xd.flag (r : BitVec 512) : Nat := fld r 448 6
def Xd.flagEn (r : BitVec 512) : Bool := bitOf r 454
/-- Gate elements per word of the three gate types. -/
def Xd.g (r : BitVec 512) : Option Nat := match fld r 344 5 with
  | 0 => some 16
  | 1 => some 32
  | 2 => some 32
  | _ => none
/-- Words of one routing record (R372). -/
def Xd.rt (r : BitVec 512) : Nat := ceilDiv (Xd.k r) ((Xd.g r).getD 16) + ceilDiv (Xd.k r) 16

/-- A record that R375 rejects. -/
def State.xdBroken (s : State) (c : Core) (r : BitVec 512) : Bool :=
  let n := Xd.t r * Xd.k r
  (Xd.g r).isNone || fld r 456 56 != 0 || decide (Xd.nsrc r ≤ Xd.rank r)
    || !(s.inOwnPantry c (Xd.table r) (64 * Xd.rt r * Xd.t r)) || !(s.inOwnPantry c (Xd.xmap r) (8 * Xd.e r))
    || !(s.inOwnPantry c (Xd.rows r) (64 * ((Xd.t r - 1) * Xd.pitch r + Xd.rw r)))
    || !(s.inOwnPantry c (Xd.ret r) (64 * ((n - 1) * Xd.pitch r + Xd.rw r)))
    || !(s.inOwnPantry c (Xd.drops r) (ceilDiv n 8))

/-- XD_BADCNT and an XD_BAD record (R375, R387). -/
def State.xdBad (s : State) (c : Core) (items : List Nat) : State := (s.bumpHi (rXcnt1 c) 1).raise fXdBad 0 c.val items

/-- The flag of a source at the end of a phase (R385). -/
def State.xdFlag (s : State) (c : Core) (r : BitVec 512) : State := if Xd.flagEn r then s.setFlag c (Xd.flag r) true else s

/-! ### The walk (R376 to R378) -/

/-- Expert number of an entry. -/
def State.xdExpert (s : State) (r : BitVec 512) (t k : Nat) : Nat :=
  slot (s.wordAt (localOf (Xd.table r) + 64 * (Xd.rt r * t + ceilDiv (Xd.k r) ((Xd.g r).getD 16) + k / 16))) 32 (k % 16)
/-- Entry e of the expert map. -/
def State.xdMap (s : State) (r : BitVec 512) (e : Nat) : W64 := BitVec.ofNat 64 (natOf (s.rdFull (Xd.xmap r + 8 * e) 8))
/-- Does a map entry name a core and a device that can be reached? -/
def State.xdExists (s : State) (m : W64) : Bool := decide (fld m 16 6 < 48) && s.reaches (BitVec.ofNat 16 (fld m 0 16))

/-- What the walk gathers: counts by expert, entries sent, entries dropped for capacity and for want of a route. -/
structure XdWalk where
  sent : SMap Nat
  rows : List (Nat × Nat × Nat)
  cap  : List Nat
  bad  : List Nat
deriving DecidableEq, Repr

/-- One entry. -/
def State.xdEntry (s : State) (r : BitVec 512) (n : Nat) (w : XdWalk) : XdWalk :=
  let e := s.xdExpert r (n / Xd.k r) (n % Xd.k r)
  let m := s.xdMap r e
  if Xd.e r ≤ e || !(s.xdExists m) then { w with bad := w.bad ++ [n] }
  else
    let j := w.sent.get (fun _ => 0) e
    if fld m 32 16 ≤ j then { w with cap := w.cap ++ [n] }
    else { w with sent := w.sent.put (fun _ => 0) e (j + 1), rows := w.rows ++ [(n, m.toNat, j)] }

/-! ### Messages -/

/-- The head of an XD body: kind (0 count, 1 row, 2 returned row), core, slot, source core, rank, j (of a count, the count), entry (of
a count, NSRC), the pitch of the dispatch's COUNT phase and the offset of the piece. -/
def xdHead (kind core slot srcCore rank j entry pitch off : Nat) : List Byte :=
  bytesOf 1 kind ++ bytesOf 1 core ++ bytesOf 1 slot ++ bytesOf 1 srcCore ++ bytesOf 4 rank ++ bytesOf 4 j ++ bytesOf 4 entry
    ++ bytesOf 6 pitch ++ bytesOf 8 off

/-- Send an XD message in pieces, in SCHED (Table 17-3). -/
def State.xdSend (s : State) (dev : Nat) (head : Nat → List Byte) (row : List Byte) : State :=
  let ps := if row.isEmpty then [(0, [])] else pieces row
  ps.foldl (fun s p => s.sendPkt (s.mkPkt (BitVec.ofNat 16 dev) 6 0 0 (head p.1 ++ p.2))) s

/-- Is a packet of a message: do their heads agree up to the pitch? -/
def xdIs (src : BitVec 16) (head : List Byte) (p : Pkt) : Bool := p.ptype == 6 && p.src == src && p.body.take 16 == head.take 16
/-- Take the packets of a message off those delivered. -/
def State.xdTaken (s : State) (src : BitVec 16) (head : List Byte) : State :=
  { s with bv := { s.bv with arrived := s.bv.arrived.filter (fun p => !(xdIs src head p)) } }

/-- A core reads words for a dispatch as its belay port does (R613): whether all were delivered. -/
def State.xdRead (s : State) (c : Core) (addrs : List Nat) : Bool × State :=
  let r := s.readWords 14 addrs
  if r.1 = 0 then (true, r.2) else (false, r.2.readFault c)

/-! ### Receiving rows (R379 to R385) -/

/-- Fields of CORE_XRXAg and CORE_XRXBg. -/
def State.xrEnabled (s : State) (c : Core) (g : Nat) : Bool := bitOf (s.reg (rXrxa c g)) 31
def State.xrRegion (s : State) (c : Core) (g : Nat) : Bool := bitOf (s.reg (rXrxa c g)) 30
/-- Byte address, in the core's pantry, of the return-list entry of offset o (R384). -/
def State.xrItem (s : State) (c : Core) (g o : Nat) : Nat := pantryBase c + (64 * s.rf (rXrxa c g) 32 18 + 8 * o) % 0x1000000

/-- O(s): the counts of all lower ranks. -/
def XdRecv.offset (x : XdRecv) (rank : Nat) : Nat := ((x.counts.filter (fun p => decide (p.1 < rank))).map (·.2)).sum

/-- The source rank whose rows the offset lies in. -/
def XdRecv.rankAt (x : XdRecv) (o : Nat) : Nat :=
  ((x.counts.find? (fun p => decide (x.offset p.1 ≤ o) && decide (o < x.offset p.1 + p.2))).map (·.1)).getD 0

/-- Every row has landed or been counted: COUNT and the flag (R385). -/
def State.xdComplete (s : State) (c : Core) (g : Ctx) : State :=
  let x := (s.core c).getXr g
  match x.total with
  | some n =>
    if x.landed = n then
      (s.setRf (rXrxs c g.val) 0 20 n).setFlag c (s.rf (rXrxa c g.val) 50 6) true
    else s
  | none => s

/-- Make n reservations (R381): the places in offset order up to the first that is refused, whether one has been, and the state. -/
def State.xdReserve (s : State) (c : Core) (g : Ctx) : Nat → List (Nat × Nat) → Bool → List (Nat × Nat) × Bool × State
  | 0, acc, bad => (acc, bad, s)
  | n + 1, acc, bad =>
    match s.reservePlace c g with
    | (some p, s) => s.xdReserve c g n (if bad then acc else acc ++ [p]) bad
    | (none, s) => s.xdReserve c g n acc true

/-- A slot's counts are final: N is known and, in GATHER mode, places are reserved (R379, R381, R382). -/
def State.xdBegin (s : State) (c : Core) (g : Ctx) : State :=
  let x := (s.core c).getXr g
  if !x.busy || x.total.isSome || !(s.xrEnabled c g.val) then s
  else
    let n := (x.counts.map (·.2)).sum
    if s.xrRegion c g.val then (s.onCore c (fun k => k.setXr g { x with total := some n })).xdComplete c g
    else
      let r := s.xdReserve c g n [] false
      let s := r.2.2.closeTime c g
      if r.2.1 then
        let o := r.1.length
        let s := s.onCore c (fun k => k.setXr g { x with total := some n, places := r.1, dropFrom := some o, landed := n - o })
        ((s.bumpHi (rXcnt0 c) (n - o)).raise fXdLate 0 c.val [c.val, g.val]).xdComplete c g
      else (s.onCore c (fun k => k.setXr g { x with total := some n, places := r.1 })).xdComplete c g

/-- Have the counts of all NSRC sources come? Each count names NSRC. -/
def CoreSt.allCounted (k : CoreSt) (g : Ctx) : Bool :=
  let x := k.getXr g
  decide (0 < x.nsrc) && (List.range x.nsrc).all (fun r => x.counts.any (fun q => q.1 == r))

/-- The counts are final as soon as all have come (R381). -/
def State.xdTry (s : State) (c : Core) (g : Ctx) : State := if (s.core c).allCounted g then s.xdBegin c g else s

/-- The start of the ROWS phase at a slot that a count has reached (R379): counts that have not come are 0. -/
def State.xdStart (s : State) (c : Core) (g : Ctx) : State :=
  let x := (s.core c).getXr g
  if x.busy && decide (x.pitch < s.tb.pitch) then s.xdBegin c g else s
/-- Has the core run a RETURN phase since the COUNT phase of pitch p? -/
def CoreSt.returned (k : CoreSt) (p : Nat) : Bool := k.xret.any (fun r => decide (p < r))
/-- A dispatch of pitch p whose counts reach a slot too late or not at all: N = 0 (R379, R385). -/
def State.xdZero (s : State) (c : Core) (g : Ctx) (p : Nat) (busy : Bool) : State :=
  let x := (s.core c).getXr g
  if x.busy ∨ p < x.pitch ∨ (s.core c).returned p ∨ !(s.xrEnabled c g.val) then s
  else if x.pitch = p ∧ x.total.isSome then s.onCore c (fun k => k.setXr g { x with busy := busy })
  else (s.onCore c (fun k => k.setXr g { XdRecv.none with pitch := p, total := some 0, busy := busy })).xdComplete c g

/-! ### COUNT -/

/-- A COUNT phase at a source (R375 to R378), by the dispatch record at pantry word w. A later COUNT by the same record takes the
place of the earlier one. -/
def State.xdCount (s : State) (c : Core) (w : Nat) : State :=
  let a := pantryBase c + 64 * w
  let r : BitVec 512 := BitVec.ofNat 512 (s.wordAt a)
  let x := s.xdRead c [(s.full a).toNat]
  if !x.1 then x.2
  else if x.2.xdBroken c r then x.2.xdBad c [c.val, (s.full a).toNat]
  else
    let n := Xd.t r * Xd.k r
    let y := x.2.xdRead c (wordsAt (Xd.table r) (64 * Xd.rt r * Xd.t r) ++ wordsAt (Xd.xmap r) (8 * Xd.e r))
    if !y.1 then y.2
    else
      let s := y.2
      let walk := (List.range n).foldl (fun w i => s.xdEntry r i w) ⟨[], [], [], []⟩
      let gone := walk.cap ++ walk.bad
      let bits := packBits 1 ((List.range n).map (fun i => b2n (gone.contains i)))
      let heads := (List.range (Xd.e r)).filter (fun e => s.xdExists (s.xdMap r e))
      let counts := heads.map (fun e => (s.xdMap r e, walk.sent.get (fun _ => 0) e))
      let s := ((s.put 14 (Xd.drops r) (bytesOf (ceilDiv n 8) bits)).bumpLo (rXcnt0 c) walk.cap.length).bumpLo (rXcnt1 c) walk.bad.length
      let s := match walk.bad with
        | b :: _ => s.raise fXdRoute 0 c.val [c.val, b]
        | [] => s
      let s := counts.foldl (fun s p =>
        s.xdSend (fld p.1 0 16) (xdHead 0 (fld p.1 16 6) (fld p.1 22 4) c.val (Xd.rank r) p.2 (Xd.nsrc r) s.tb.pitch) []) s
      (s.onCore c (fun k => { k with xsrc := k.xsrc.filter (fun x => x.word != w)
        ++ [⟨w, r, s.tb.pitch, walk.rows, gone, false, [], none⟩] })).xdFlag c r

/-- The count of a source is taken off the list of those that wait here. -/
def State.countTaken (s : State) (c : Core) (g : Ctx) (rank : Nat) : State :=
  { s with bv := { s.bv with arrived := s.bv.arrived.filter (fun p =>
    !(p.ptype == 6 && p.body.take 3 == [0, BitVec.ofNat 8 c.val, BitVec.ofNat 8 g.val] && (p.body.drop 4).take 4 == bytesOf 4 rank)) } }

/-- XD_COUNT_RECEIVE (R379): a count of source `rank` of the dispatch whose COUNT phase ran in `pitch`. One that comes after ROWS has begun
counts as zero, though its phase has named the slot (R387); one of a pitch that has not begun here waits. -/
def execXdCountReceive (c : Core) (g : Ctx) (rank : BitVec 16) (m : XdCount) (s : State) : Host.Outcome State Fault Refusal := s.live <|
  let x := (s.core c).getXr g
  let pitch := m.pitch
  if s.tb.pitch < pitch.toNat then .next s
  else
    let s := s.countTaken c g rank.toNat
    if pitch.toNat < s.tb.pitch then .next (s.xdZero c g pitch.toNat true)
    else
      let x := if x.busy && x.pitch == pitch.toNat then x else { XdRecv.none with pitch := pitch.toNat, nsrc := m.nsrc, busy := true }
      if x.total.isSome ∨ x.counts.any (fun p => p.1 == rank.toNat) then .next s
      else .next ((s.onCore c (fun k => k.setXr g { x with counts := x.counts ++ [(rank.toNat, m.count)] })).xdTry c g)

/-! ### ROWS -/

/-- Send the token row of a sent entry; a row that the source's pantry does not deliver is not sent. -/
def State.xdSendRow (s : State) (c : Core) (r : BitVec 512) (pitch : Nat) (e : Nat × Nat × Nat) : State :=
  let m : W64 := BitVec.ofNat 64 e.2.1
  let a := Xd.rows r + 64 * (e.1 / Xd.k r) * Xd.pitch r
  let row := (List.range (Xd.rw r)).flatMap (fun i => bytesOf 64 (s.wordAt (localOf a + 64 * i)))
  let x := s.xdRead c ((List.range (Xd.rw r)).map (fun i => a + 64 * i))
  if x.1 then x.2.xdSend (fld m 0 16) (xdHead 1 (fld m 16 6) (fld m 22 4) c.val (Xd.rank r) e.2.2 e.1 pitch) row else x.2

/-- Is a dispatch in the pitch of its ROWS phase, which has not run (R380)? -/
def XdSrc.sends (x : XdSrc) (pitch : Nat) : Bool := !x.sent && x.pitch + 1 == pitch

/-- The ROWS phase of every dispatch of the core that was counted in the last pitch. -/
def State.xdRows (s : State) (c : Core) : State :=
  let todo := (s.core c).xsrc.filter (fun x => x.sends s.tb.pitch)
  let s := s.onCore c (fun k => { k with xsrc := k.xsrc.map (fun x => if x.sends s.tb.pitch then { x with sent := true } else x) })
  todo.foldl (fun (s : State) x => (x.rows.foldl (fun (s : State) e => s.xdSendRow c x.record x.pitch e) s).xdFlag c x.record) s

/-- XDISP_ROWS (R380): in the pitch after COUNT the source sends its rows, and the slots of the core begin to receive: enabled slots that no
count has reached have N = 0, on a core that only receives too (R385). -/
def execXdispRows (c : Core) (s : State) : Host.Outcome State Fault Refusal := s.live <|
  .next (((List.finRange 16).foldl (fun s g => (let s := s.xdStart c g; if s.tb.pitch = 0 then s else s.xdZero c g (s.tb.pitch - 1) false)) (s.xdRows c)).settle c)

/-- A row that is not written (R379, R385). -/
def State.xdDropRow (s : State) (c : Core) : State := s.bumpHi (rXcnt0 c) 1

/-- A row of a source whose count was late (R379): its failed hop is reported once, with this device and the link it came by. -/
def State.xdLateRow (s : State) (c : Core) (g : Ctx) (rank link : Nat) : State :=
  let s := s.xdDropRow c
  let x := (s.core c).getXr g
  if x.late.contains rank then s
  else
    (s.onCore c (fun k => k.setXr g { x with late := x.late ++ [rank] })).xdFail link

/-- Put the words of a row in a pantry, at the word that `at'` gives each, modulo the pantry (R265). -/
def State.xdPut (s : State) (c : Core) (at' : Nat → Nat) (row : List Byte) : State :=
  let ws := chunks 64 (row.length + 1) row
  (ws.zipIdx).foldl (fun s q => s.put 14 (s.full (pantryBase c + 64 * (at' q.2 % 262144))).toNat q.1) s

/-- The words of a row land (R381, R383): in REGION mode as they are, in a place SWIZZLED by its row. -/
def State.xdLand (s : State) (c : Core) (g : Ctx) (x : XdRecv) (o : Nat) (row : List Byte) : State :=
  if s.xrRegion c g.val then
    s.xdPut c (fun w => s.rf (rXrxa c g.val) 0 18 + o * s.rf (rXrxa c g.val) 18 12 + w) row
  else
    match x.places[o]? with
    | none => s
    | some p =>
      if ((s.fg c g).fill p.1).reserved.contains p.2 then
        (s.xdPut c (fun w => s.placeWord c g.val p.1 p.2 + 64 * (w / 64) + ((w % 64) ^^^ (p.2 % 64))) row).presentPlace c g p.1 p.2
      else s.feedReject c

/-- XD_ROW_RECEIVE (R381 to R385). A row that comes in the pitch of COUNT, before its slot's counts are final, waits. -/
def execXdRowReceive (c : Core) (g : Ctx) (rank : BitVec 16) (j : Nat) (srcDev : BitVec 16) (srcCore : BitVec 6)
    (entry : BitVec 20) (row : List Byte) (s : State) : Host.Outcome State Fault Refusal := s.live <|
  let head := xdHead 1 c.val g.val srcCore.toNat rank.toNat j entry.toNat 0 0
  let link := ((s.bv.arrived.find? (xdIs srcDev head)).bind s.viaLink).getD (fld (s.route.get routeDefault srcDev.toNat) 0 5)
  let taken := s.xdTaken srcDev head
  if !(s.xrEnabled c g.val) then .next (taken.xdDropRow c)
  else
    let t := taken.xdStart c g
    let x := (t.core c).getXr g
    match x.total, x.counts.find? (fun p => p.1 == rank.toNat) with
    | some n, some cnt =>
      let o := x.offset rank.toNat + j
      if cnt.2 ≤ j ∨ n ≤ o ∨ x.dropFrom.any (fun d => decide (d ≤ o)) then .next t
      else
        let item := bytesOf 8 (srcDev.toNat + 2 ^ 16 * srcCore.toNat + 2 ^ 22 * entry.toNat)
        let u := (t.xdLand c g x o row).put 14 (t.full (t.xrItem c g.val o)).toNat item
        .next (((u.onCore c (fun k => k.setXr g { x with landed := x.landed + 1 })).xdComplete c g).settle c)
    | none, _ => if x.busy then .next s else .next (t.xdLateRow c g rank.toNat link)
    | some _, none => .next (t.xdLateRow c g rank.toNat link)

/-! ### RETURN (R386) -/

/-- A dispatch of the core changed. -/
def State.onXsrc (s : State) (c : Core) (w : Nat) (f : XdSrc → XdSrc) : State :=
  s.onCore c (fun k => { k with xsrc := k.xsrc.map (fun x => if x.word = w then f x else x) })

/-- A dispatch of the core is over: its flag (R385). -/
def State.xdOver (s : State) (c : Core) (x : XdSrc) : State :=
  (s.onCore c (fun k => { k with xsrc := k.xsrc.filter (fun y => y.word != x.word) })).xdFlag c x.record

/-- A source's RETURN phase is over once every return row has come. -/
def State.xdRetEnd (s : State) (c : Core) (w : Nat) : State :=
  match (s.core c).xsrc.find? (fun x => x.word == w) with
  | some x => if x.ret.isSome ∧ x.rows.length ≤ x.got.length then s.xdOver c x else s
  | none => s

/-- A receiver sends the output row of offset o of a slot to the source that the return list names. -/
def State.xdSendBack (s : State) (c : Core) (g : Ctx) (rw o : Nat) : State :=
  let at' := (s.full (s.xrItem c g.val o)).toNat
  let it : W64 := BitVec.ofNat 64 (natOf (s.rdFull at' 8))
  let a (i : Nat) : Nat := pantryBase c + 64 * ((s.rf (rXrxb c g.val) 0 18 + o * s.rf (rXrxb c g.val) 18 12 + i) % 262144)
  let row := (List.range rw).flatMap (fun i => bytesOf 64 (s.wordAt (a i)))
  let x := s.xdRead c (wordsAt at' 8 ++ (List.range rw).map (fun i => (s.full (a i)).toNat))
  let y := (s.core c).getXr g
  if x.1 then x.2.xdSend (fld it 0 16) (xdHead 2 (fld it 16 6) 0 c.val (y.rankAt o) 0 (fld it 22 20) y.pitch) row else x.2

/-- A RETURN phase on a core, by the record at pantry word w: the core sends the output rows of its enabled slots, whose dispatches
end, and as the source of the dispatch of that record writes +0 for its dropped entries. -/
def State.xdReturn (s : State) (c : Core) (w : Nat) : State :=
  let a := pantryBase c + 64 * w
  let r : BitVec 512 := BitVec.ofNat 512 (s.wordAt a)
  let rd := s.xdRead c [(s.full a).toNat]
  let s := (List.finRange 16).foldl (fun s g =>
    let x := (s.core c).getXr g
    let n := s.rf (rXrxs c g.val) 0 20
    let lim := match x.dropFrom with
      | some d => min d n
      | none => n
    let s := if rd.1 && s.xrEnabled c g.val then (List.range lim).foldl (fun s o => s.xdSendBack c g (Xd.rw r) o) s else s
    s.onCore c (fun k => k.setXr g { x with busy := false })) (rd.2.onCore c (fun k => { k with xret := some s.tb.pitch }))
  match (s.core c).xsrc.find? (fun x => x.word == w) with
  | some x =>
    let zero := padTo (64 * Xd.rw x.record) []
    let s := x.dropped.foldl (fun s n => s.put 14 (Xd.ret x.record + 64 * n * Xd.pitch x.record) zero) s
    (s.onXsrc c w (fun x => { x with ret := some s.tb.pitch })).xdRetEnd c w
  | none => s

/-- Does a dispatch, by its rank and the pitch of its COUNT phase, wait for the return row of an entry? -/
def XdSrc.awaits (x : XdSrc) (entry rank pitch : Nat) : Bool :=
  Xd.rank x.record == rank && x.pitch == pitch && x.rows.any (fun e => e.1 == entry) && !(x.got.contains entry)

/-- A returned row is taken off the list of those that wait here. -/
def State.returnTaken (s : State) (c : Core) (entry rank pitch : Nat) : State :=
  { s with bv := { s.bv with arrived := s.bv.arrived.filter (fun p =>
    !(p.ptype == 6 && p.body.take 2 == [2, BitVec.ofNat 8 c.val] && (p.body.drop 4).take 4 == bytesOf 4 rank
      && (p.body.drop 12).take 10 == bytesOf 4 entry ++ bytesOf 6 pitch)) } }

/-- XD_RETURN_RECEIVE (R386): a returned row is written at its dispatch's return row of the entry's number. -/
def execXdReturnReceive (c : Core) (e : XdEntry) (row : List Byte) (s : State) : Host.Outcome State Fault Refusal := s.live <|
  let entry := e.entry
  let rank := e.rank
  let pitch := e.pitch
  match (s.core c).xsrc.find? (fun x => x.awaits entry.toNat rank.toNat pitch.toNat) with
  | none => .next s
  | some x =>
    let s := (s.returnTaken c entry.toNat rank.toNat pitch.toNat).put 14 (Xd.ret x.record + 64 * entry.toNat * Xd.pitch x.record) (row.take (64 * Xd.rw x.record))
    .next ((s.onXsrc c x.word (fun x => { x with got := x.got ++ [entry.toNat] })).xdRetEnd c x.word)

/-- The RETURN phase of a source ends at the latest with its pitch. -/
def State.xdRetExpire (s : State) (c : Core) : State :=
  ((s.core c).xsrc.filter (fun x => x.ret.any (fun p => decide (p < s.tb.pitch)))).foldl (fun s x => s.xdOver c x) s

/-- A write to CORE_XRXAg (b = false) or CORE_XRXBg (R387). -/
def State.xrxWrite (s : State) (c : Core) (g : Ctx) (b : Bool) (v : W64) : State :=
  let va := if b then s.reg (rXrxa c g.val) else v
  let vb := if b then v else s.reg (rXrxb c g.val)
  let bad := bitOf va 31 && (fld vb 18 12 == 0 || (bitOf va 30 && fld va 18 12 == 0))
  if ((s.core c).getXr g).busy || bad then s.xdBad c []
  else if b then s.setReg (rXrxb c g.val) (v &&& 0x3FFFFFFF#64) else s.setReg (rXrxa c g.val) (v &&& 0x00FFFFFFFFFFFFFF#64)

/-- CORE_XRX_WRITE. -/
def execCoreXrxWrite (c : Core) (g : Ctx) (b : Bool) (v : W64) (s : State) : Host.Outcome State Fault Refusal := s.live <|
  .next (s.ifOn c.val (fun s => s.xrxWrite c g b v))

end Sys2Proof.Machine
end

