-- ==== Sys2Proof/Machine/Topo.lean ====
section
/-! DEFINITION. Pitches and the topo (spec/16_time_base_and_topo.md R449 to R458). -/
namespace Sys2Proof.Machine

/-! ### Entries (Tables 16-3 and 16-4) -/

/-- An entry that the image does not hold: zeros with their complement. -/
def topoDefault (_ : Nat) : BitVec 1024 := BitVec.ofNat 1024 ((2 ^ 512 - 1) * 2 ^ 512)
/-- Entry n as stored. -/
def State.topoRaw (s : State) (n : Nat) : BitVec 1024 := s.topo.get topoDefault n
/-- Does an entry match its complement? -/
def topoPairOk (e : BitVec 1024) : Bool := fld e 0 512 + fld e 512 512 == 2 ^ 512 - 1

def Te.kind (e : BitVec 1024) : Nat := fld e 0 4
def Te.valid (e : BitVec 1024) : Bool := bitOf e 4
def Te.periodic (e : BitVec 1024) : Bool := bitOf e 5
def Te.anyEpoch (e : BitVec 1024) : Bool := bitOf e 6
def Te.isLocal (e : BitVec 1024) : Bool := bitOf e 7
def Te.pitch (e : BitVec 1024) : Nat := fld e 8 48
def Te.period (e : BitVec 1024) : Nat := fld e 64 48
def Te.epoch (e : BitVec 1024) : Nat := fld e 128 32
/-- Bits of the kind fields, from byte b. -/
def Te.at' (e : BitVec 1024) (b lo n : Nat) : Nat := fld e (8 * b + lo) n
def Te.cores (e : BitVec 1024) : List Core := (List.finRange 48).filter (fun c => bitOf e (160 + c.val))

/-- An entry that never fires (R451). -/
def Te.malformed (e : BitVec 1024) : Bool :=
  decide (10 ≤ Te.kind e) || (Te.periodic e && (Te.period e == 0 || decide (Te.period e ≤ Te.pitch e)))

/-- Is a good entry due in pitch n under the epoch in force (R453)? -/
def Te.due (e : BitVec 1024) (n epoch : Nat) : Bool :=
  Te.valid e && !(Te.malformed e)
    && (if Te.periodic e then n % Te.period e == Te.pitch e else n == Te.pitch e)
    && (Te.anyEpoch e || Te.epoch e == epoch)

/-! ### Building the due list (R453, R454, R457, R567) -/

/-- Entries that do not match their complement are counted and reported at the build (Table 23-1, class 7). -/
def State.topoCheck (s : State) : State :=
  s.topo.foldl (fun s p => if topoPairOk p.2 then s else s.cmpMiss 7 p.1 0 12 0) s

/-- Does LOST withhold an entry (R457)? -/
def State.suppressed (s : State) (e : BitVec 1024) : Bool :=
  s.tb.st == 4 && !(Te.isLocal e) && (Te.kind e == 2 || Te.kind e == 3 || Te.kind e == 4)
/-- Does a pair state that does not serve withhold it (R567)? -/
def State.staleHolds (s : State) (e : BitVec 1024) : Bool :=
  (s.pair.st == 1 || s.pair.st == 4) && (Te.kind e == 0 || Te.kind e == 2 || Te.kind e == 3 || Te.kind e == 4)

/-- The due list of the pitch that begins. -/
def State.buildDue (s : State) : State :=
  let epoch := s.rf rTbEpoch 0 32
  let s := s.topoCheck
  let due := (s.topo.filter (fun p => topoPairOk p.2 && Te.due p.2 s.tb.pitch epoch)).map (·.1)
  let extra := due.drop 256
  let s := match extra with
    | [] => s
    | n :: _ => (s.bumpLo (rTbCnt 1) extra.length).raise fTopoOver 12 0 [s.tb.pitch, n]
  let due := due.take 256
  let lost := due.filter (fun n => s.suppressed (s.topoRaw n))
  let due := due.filter (fun n => !(s.suppressed (s.topoRaw n)))
  let stale := due.filter (fun n => s.staleHolds (s.topoRaw n))
  let due := due.filter (fun n => !(s.staleHolds (s.topoRaw n)))
  ((s.bumpHi (rTbCnt 0) lost.length).bumpHi (rPairCnt 0) stale.length).onTb (fun t => { t with due := due })

/-- Windows of earlier pitches, measured from the new pitch start; those that have ended are gone. -/
def State.shiftWins (s : State) (n : Nat) : State :=
  s.onTb (fun t => { t with wins := (t.wins.filter (fun w => decide (n < w.hi))).map (fun w => { w with lo := w.lo - n, hi := w.hi - n }) })

/-- May the topo run: booted, and not halted (R452, R529, R608)? -/
def State.topoAllowed (s : State) : Bool := s.boot.st == 3 && !s.flt.halt

/-- An epoch that waits takes effect (Table 16-4). -/
def State.takeEpoch (s : State) : State :=
  match s.tb.epochNext with
  | some e => (s.setRf rTbEpoch 0 32 e.toNat).onTb (fun t => { t with epochNext := none })
  | none => s

/-- Monitors of source 19 take each link's resends of the pitch that ends (Table 23-6). -/
def State.monResends (s : State) : State :=
  (List.finRange 24).foldl (fun s l =>
    let s := s.monFeed 19 l.val 128 64 (s.link l).again
    if (s.link l).again = 0 then s else s.setLink l { s.link l with again := 0 }) s

/-- The start of a pitch: the resends of the last one are sampled; the routes of the last one are forgotten, a topo whose start pitch
has come runs, and the returns whose pitch has passed end. -/
def State.pitchOpen (s : State) : State :=
  let s := s.monResends
  let s := { s with bv := { s.bv with routeRec := [] } }
  let s := s.onTb (fun t => { t with missed := false, running := t.running ||
    (s.topoAllowed && (t.st == 2 || t.st == 5) && decide (s.rf rTbRun 0 48 ≤ t.pitch)) })
  (List.finRange 48).foldl (fun s c => s.xdRetExpire c) s

/-- PITCH_START: GLOBAL_TIME reaches the next pitch start; the topo may begin to run; its due list is built. Every event of
the pitch before has fired. -/
def execPitchStart (s : State) : Host.Outcome State Fault Refusal := s.live <|
  if !s.tb.due.isEmpty then .next s
  else
    let t := s.nextPitchTime
    let gone := t - s.tb.time.toNat
    let len := if s.tb.time.toNat < s.origin then gone else s.pitchLen
    let s := (((s.stepTime t).onTb (fun x => { x with starts := s.tb.starts + 1 })).shiftWins len).takeEpoch.pitchOpen
    .next (if s.tb.running && s.topoAllowed then s.buildDue else s)

/-! ### Firing -/

/-- The entry that fires next, where it is of the given kind. -/
def State.topoHead (s : State) (kind : Nat) : Option (Nat × BitVec 1024) :=
  match s.tb.due with
  | n :: _ => if Te.kind (s.topoRaw n) = kind then some (n, s.topoRaw n) else none
  | [] => none
/-- It is taken off the list. -/
def State.topoPop (s : State) : State := s.onTb (fun t => { t with due := t.due.drop 1 })

/-- A target is not reached (R455): the first such entry of a pitch is named. -/
def State.topoMiss (s : State) (n : Nat) : State :=
  let s := s.bumpLo (rTbCnt 0) 1
  if s.tb.missed then s else (s.onTb (fun t => { t with missed := true })).raise fTopoMiss 12 0 [n]

/-- Can a core take an event: its domain on, its sequencer neither DRAINING nor DISABLED? -/
def State.coreTakes (s : State) (c : Core) : Bool := s.coreOn c && (s.core c).getUnit 12 == .enabled

/-- Act on the cores of an entry that can take it. -/
def State.onCores (s : State) (n : Nat) (e : BitVec 1024) (f : Core → State → State) : State :=
  (Te.cores e).foldl (fun s c => if s.coreTakes c then f c s else s.topoMiss n) s

/-- TOPO_START (R317, R45). -/
def execTopoStart (s : State) : Host.Outcome State Fault Refusal := s.live <|
  match s.topoHead 0 with
  | some (n, e) => .next (s.topoPop.onCores n e (fun c s =>
      s.requestStart c 0 ⟨Te.at' e 26 0 20, BitVec.ofNat 64 (Te.at' e 32 0 64), some (BitVec.ofNat 32 (Te.at' e 40 0 32))⟩))
  | none => .next s

/-- TOPO_SWAP (R349). -/
def execTopoSwap (s : State) : Host.Outcome State Fault Refusal := s.live <|
  match s.topoHead 1 with
  | some (n, e) => .next (s.topoPop.onCores n e (fun c s => s.setFlag c (Te.at' e 26 0 6) true))
  | none => .next s

/-- What is left of a scheduled window beside a calibration window (R458). -/
def cutWin (w c : TopoWin) : List TopoWin :=
  if c.on ≠ w.on ∨ c.hi ≤ w.lo ∨ w.hi ≤ c.lo ∨ c.hi ≤ c.lo ∨ w.hi ≤ w.lo then [w]
  else (if w.lo < c.lo then [{ w with hi := c.lo }] else []) ++ (if c.hi < w.hi then [{ w with lo := c.hi }] else [])

/-- Open a window on a link or half: scheduled windows give way to calibration windows, and LINKWIN_CUT counts each pair of the two that
overlaps. A window of no length never opens. -/
def State.openWin (s : State) (w : TopoWin) : State :=
  let ws := s.tb.wins
  if w.hi ≤ w.lo then s
  else if w.cal then
    let keep := ws.flatMap (fun x => if x.cal then [x] else cutWin x w)
    let cut := ((ws.filter (fun x => !x.cal && cutWin x w != [x])).map (fun x => (x.entry, x.born))).eraseDups.length
    (s.bumpHi (rTbCnt 2) cut).onTb (fun t => { t with wins := keep ++ [w] })
  else
    let r := (ws.filter (·.cal)).foldl (fun (r : List TopoWin × Nat) c =>
      let ps := r.1.flatMap (fun p => cutWin p c)
      (ps, if ps = r.1 then r.2 else r.2 + 1)) ([w], 0)
    (s.bumpHi (rTbCnt 2) r.2).onTb (fun t => { t with wins := ws ++ r.1 })

/-- TOPO_LINKWIN (R455, R458, R469). -/
def execTopoLinkwin (s : State) : Host.Outcome State Fault Refusal := s.live <|
  match s.topoHead 2 with
  | some (n, e) =>
    let lo := Te.at' e 24 0 32
    .next (((List.range 24).filter (fun l => bitOf e (160 + l))).foldl (fun s l =>
      if s.domOn (linkDom l) then s.openWin ⟨l, false, bitOf e 256, lo, lo + Te.at' e 28 0 32, n, s.tb.starts⟩ else s.topoMiss n) s.topoPop)
  | none => .next s

/-- The scheduled window of a link that ends first. -/
def State.firstWin (s : State) (l : Link) : Option TopoWin :=
  (s.tb.wins.filter (fun w => w.on == l.val && !w.cal)).foldl (fun b w => match b with
    | some x => if w.hi < x.hi then some w else some x
    | none => some w) none

/-- LINKWIN_END (R469): GLOBAL_TIME reaches the end of the first scheduled window of a link. -/
def execLinkwinEnd (l : Link) (s : State) : Host.Outcome State Fault Refusal := s.live <|
  match s.firstWin l with
  | some w =>
    (match s.reachBy (s.tb.time.toNat - s.inPitch + w.hi) with
     | some s => .next (s.onTb (fun t => { t with wins := t.wins.erase w }))
     | none => .next s)
  | none => .next s

/-- TOPO_COLL (R478). -/
def execTopoColl (s : State) : Host.Outcome State Fault Refusal := s.live <|
  match s.topoHead 3 with
  | some (n, e) =>
    let fl := if Te.at' e 29 6 1 = 1 then some (Te.at' e 29 0 6) else none
    .next (s.topoPop.onCores n e (fun c s => (s.collStart c (Te.at' e 26 0 18) fl).settle c))
  | none => .next s

/-- TOPO_XDISP_COUNT (R376). -/
def execTopoXdispCount (s : State) : Host.Outcome State Fault Refusal := s.live <|
  match s.topoHead 4 with
  | some (n, e) =>
    if Te.at' e 29 0 1 = 0 then .next (s.topoPop.onCores n e (fun c s => s.xdCount c (Te.at' e 26 0 18))) else .next s
  | none => .next s

/-- TOPO_XDISP_RETURN (R386). -/
def execTopoXdispReturn (s : State) : Host.Outcome State Fault Refusal := s.live <|
  match s.topoHead 4 with
  | some (n, e) =>
    if Te.at' e 29 0 1 = 1 then .next (s.topoPop.onCores n e (fun c s => s.xdReturn c (Te.at' e 26 0 18))) else .next s
  | none => .next s

/-- TOPO_CALWIN (R621): links, and halves as 24 and 25. -/
def execTopoCalwin (s : State) : Host.Outcome State Fault Refusal := s.live <|
  match s.topoHead 5 with
  | some (n, e) =>
    let lo := Te.at' e 24 0 32
    .next (((List.range 26).filter (fun l => bitOf e (160 + l))).foldl (fun s l =>
      if s.domOn (if l < 24 then linkDom l else 44 + l) then
        s.openWin ⟨l, true, decide (40000 ≤ Te.at' e 28 0 32), lo, lo + Te.at' e 28 0 32, n, s.tb.starts⟩
      else s.topoMiss n)
      s.topoPop)
  | none => .next s

/-- TOPO_DEADLINE (R136). -/
def execTopoDeadline (s : State) : Host.Outcome State Fault Refusal := s.live <|
  match s.topoHead 6 with
  | some (n, e) => .next (s.topoPop.onCores n e (fun c s =>
      ((List.finRange 16).filter (fun g => bitOf e (208 + g.val))).foldl (fun s g => s.closeTime c g) s))
  | none => .next s

/-- TOPO_SLEEP (R579). -/
def execTopoSleep (s : State) : Host.Outcome State Fault Refusal := s.live <|
  match s.topoHead 7 with
  | some (_, e) =>
    let goal := Te.at' e 20 0 3
    .next (if 2 ≤ goal then s.topoPop.pwrTake goal (Te.at' e 21 0 1 == 1) (Te.at' e 24 0 32) (allDoms.filter (fun d => bitOf e (224 + d)))
           else s.topoPop.pwrReject)
  | none => .next s

/-- TOPO_HEART (R560, R561, R634). -/
def execTopoHeart (s : State) : Host.Outcome State Fault Refusal := s.live <|
  match s.topoHead 8 with
  | some _ =>
    let s := s.topoPop
    if s.pair.st = 0 ∨ ((s.pair.st = 3 ∨ s.pair.st = 4) ∧ 3 ≤ s.pwr.st) then .next s
    else
      let s := s.pairSend 9 s.heartBody
      if s.pair.heard then .next (s.onPair (fun p => { p with misses := 0, heard := false }))
      else
        let m := min 15 (s.pair.misses + 1)
        let hit := s.pair.misses < 15 ∧ m = s.missLim
        let s := (s.onPair (fun p => { p with misses := m })).bumpLo (rPairCnt 0) 1
        .next (if hit then s.twinLost else s)
  | none => .next s

/-- TOPO_EPOCH (R456). -/
def execTopoEpoch (s : State) : Host.Outcome State Fault Refusal := s.live <|
  match s.topoHead 9 with
  | some (_, e) => .next (s.topoPop.onTb (fun t => { t with epochNext := some (BitVec.ofNat 32 (Te.at' e 20 0 32)) }))
  | none => .next s

end Sys2Proof.Machine
end

