-- ==== Sys2Proof/Machine/RegMap.lean ====
section
/-! DEFINITION. The register map (chapter 25): where each register sits, its power domain, what a read returns and what a
write does. An address here is the local address of 8 aligned bytes of register space. -/
namespace Sys2Proof.Machine

/-! ### Places (Tables 25-3 and 25-7) -/

/-- A place in register space: a block page or a unit's part of one, and the offset there. -/
inductive RegPlace
  | core (c : Core) (o : Nat)
  | dev (o : Nat)
  | arr (c : Core) (a : Arr) (o : Nat)
  | acc (c : Core) (o : Nat)
  | sieve (c : Core) (o : Nat)
  | vec (c : Core) (o : Nat)
  | pan (c : Core) (o : Nat)
  | str (c : Core) (o : Nat)
  | seq (c : Core) (o : Nat)
  | belay (c : Core) (n : Fin 8) (o : Nat)
  | belayCnt (c : Core)
  | hbm (o : Nat)
  | stack (h : Nat) (o : Nat)
  | nmg (h : Nat) (o : Nat)
  | lp (o : Nat)
  | chan (m : Nat) (o : Nat)
  | qcfg (q : Nat)
  | qstat (q : Nat)
  | pool (d : Nat) (o : Nat)
  | tb (o : Nat)
  | bv (o : Nat)
  | link (l : Link) (o : Nat)
  | nz (o : Nat)
  | half (h : Half) (o : Nat)
  | boot (o : Nat)
  | lard (o : Nat)
  | sec (o : Nat)
  | pair (o : Nat)
  | pwr (o : Nat)
  | mon (m : Nat) (o : Nat)
  | gov (d : Die) (o : Nat)
  | flt (o : Nat)
  | bist (c : Core)
deriving DecidableEq, Repr


/-- A page of 0x100 bytes a core. -/
def corePage (f : Core → Nat → RegPlace) (o : Nat) : Option RegPlace := (coreOf? (o / 0x100)).map (fun c => f c (o % 0x100))

/-- The place of an offset in page i. -/
def pagePlace (i o : Nat) : Option RegPlace :=
  match i with
  | 0 => some (.dev o)
  | 1 => (match coreOf? (o / 0x400), arrOf? (o % 0x400 / 0x80) with
          | some c, some a => some (.arr c a (o % 0x80))
          | _, _ => none)
  | 2 => corePage .acc o
  | 3 => corePage .sieve o
  | 4 => corePage .vec o
  | 5 => corePage .pan o
  | 6 => corePage .str o
  | 7 => corePage .seq o
  | 8 => (coreOf? (o / 0x400)).bind (fun c =>
            if h : o % 0x400 < 0x100 then some (.belay c ⟨o % 0x400 / 0x20, by omega⟩ (o % 0x20))
            else if o % 0x400 = 0x100 then some (.belayCnt c) else none)
  | 9 => if o < 0x100 then some (.hbm o) else if o < 0x300 then some (.stack ((o - 0x100) / 0x40) (o % 0x40))
         else if 0x1000 ≤ o ∧ o < 0x1200 then some (.nmg ((o - 0x1000) / 0x40) (o % 0x40)) else none
  | 10 => if o < 0x100 then some (.lp o) else if o < 0x300 then some (.chan ((o - 0x100) / 0x10) (o % 0x10)) else none
  | 11 => if o < 0x4000 then some (.qcfg (o / 8)) else if o < 0x8000 then some (.qstat ((o - 0x4000) / 8))
          else if o < 0x8040 then some (.pool ((o - 0x8000) / 0x20) (o % 0x20)) else none
  | 12 => some (.tb o)
  | 13 => if o < 0x1000 then some (.bv o) else (linkOf? ((o - 0x1000) / 0x40)).map (fun l => .link l (o % 0x40))
  | 14 => if o < 0x1000 then some (.nz o) else if o < 0x1100 then some (.half 0 (o % 0x100))
          else if o < 0x1200 then some (.half 1 (o % 0x100)) else none
  | 15 => some (.boot o)
  | 16 => some (.lard o)
  | 17 => some (.sec o)
  | 18 => some (.pair o)
  | 19 => some (.pwr o)
  | 20 => if o < 0xC000 then some (.mon (o / 0x100) (o % 0x100))
          else if o < 0xE000 then none else if o < 0xE800 then some (.gov 0 (o - 0xE000))
          else if o < 0xF000 then some (.gov 1 (o - 0xE800)) else none
  | 21 => if o < 0x100 then some (.flt o) else (coreOf? ((o - 0x100) / 8)).map .bist
  | _ => none

/-- The place of a local address of register space. -/
def regPlace (a : Nat) : Option RegPlace :=
  if a < 0x78000000 then (coreOf? ((a - 0x70000000) / 0x10000)).map (fun c => .core c (a % 0x10000))
  else pagePlace ((a - 0x78000000) / 0x10000) (a % 0x10000)

/-- The power domain of a place, none for basecamp (Table 25-3). -/
def RegPlace.dom : RegPlace → Option Nat
  | .core c _ | .arr c _ _ | .acc c _ | .sieve c _ | .vec c _ | .pan c _ | .str c _ | .seq c _ | .belay c _ _ | .belayCnt c
  | .bist c => some c.val
  | .stack h _ | .nmg h _ => some (48 + h)
  | .chan m _ => some (70 + m / 8)
  | .qcfg q | .qstat q => some (76 + dieOf q)
  | .pool d _ => some (76 + d)
  | .link l _ => some (linkDom l.val)
  | .half h _ => some (halfDom h)
  | .sec _ => some 78
  | .mon m _ => some (monDom m)
  | .gov _ _ => some 79
  | .dev _ | .hbm _ | .lp _ | .tb _ | .bv _ | .nz _ | .boot _ | .lard _ | .pair _ | .pwr _ | .flt _ => none

/-! ### What a write does where it only stores -/

/-- How a 64-bit register takes a write: not there, nothing, the bits of a mask replaced, the bits of a mask cleared where
written 1, bits that only the image sets, or an effect of its own. -/
inductive RegKind
  | absent | ro | rw (m : W64) | w1c (m : W64) | image (m : W64) | special
deriving DecidableEq, Repr

/-- The low n bits. -/
def lowMask (n : Nat) : W64 := BitVec.ofNat 64 (2 ^ n - 1)
def cntBoth : RegKind := .w1c (lowMask 64)
def cntLow : RegKind := .w1c (lowMask 32)

/-- The offset is one of n words of 8 bytes from lo. -/
def offIn (lo n o : Nat) : Bool := decide (lo ≤ o) && decide (o < lo + 8 * n)

/-- The kind of each register (the register tables of chapters 02 to 25). -/
def RegPlace.kind : RegPlace → RegKind
  | .core _ o =>
    if o = 0x10 then .special else if o = 0x40 then .rw (lowMask 3) else if o = 0x50 then cntLow
    else if o = 0x60 then .rw (lowMask 13) else if o = 0x48 ∨ offIn 0x68 5 o ∨ offIn 0x380 2 o then cntBoth
    else if offIn 0x100 16 o ∨ offIn 0x200 32 o then .special
    else if o = 0 ∨ o = 0x18 ∨ o = 0x58 ∨ offIn 0x180 16 o ∨ offIn 0x300 16 o ∨ o = 0x400 then .ro else .absent
  | .dev o => if o = 0x10 ∨ o = 0x18 then cntBoth else if o = 0x20 then .rw (lowMask 56) else if o = 0x28 then .special
              else if o < 0x10 then .ro else .absent
  | .arr _ _ o => if o = 0 then .ro else if offIn 8 2 o then cntBoth else .absent
  | .acc _ o => if o = 0 then cntBoth else if o = 8 then cntLow else .absent
  | .sieve _ o => if o = 0 then .ro else if o = 0x30 then cntLow else if offIn 8 5 o then cntBoth else .absent
  | .vec _ o => if o = 0 then .ro else if o = 8 then cntBoth else if offIn 0x10 4 o then .rw (lowMask 34) else .absent
  | .pan _ o => if o = 0 then .image 3#64 else if o = 0x18 then cntLow else if offIn 8 2 o then cntBoth
                else if o = 0x20 then .special else .absent
  | .str _ o => if o = 0 then .special else if offIn 8 5 o then .ro else if offIn 0x30 4 o then cntBoth else .absent
  | .seq _ o => if o = 0 ∨ o = 0x30 ∨ o = 0x38 then .special else if o = 8 ∨ o = 0x28 then .ro
                else if offIn 0x10 3 o then cntBoth else .absent
  | .belay _ _ o => if o = 0 ∨ o = 8 then .special else if o = 0x10 then .ro else .absent
  | .belayCnt _ => cntBoth
  | .hbm o => if o = 0 then .image 0x7#64 else if o = 0x48 then .special else if o = 0x40 then .rw (lowMask 24)
              else if offIn 0x10 6 o then .rw (lowMask 64) else .absent
  | .stack _ o => if o = 0 then .ro else if o = 0x28 then cntLow else if offIn 8 4 o then cntBoth else .absent
  | .nmg _ _ => .absent
  | .lp o => if o = 0 then .image 0x5FFF#64 else if o = 0x48 then .special else if o = 0x40 then .rw 0xFFFF00#64
             else if offIn 0x10 6 o then .rw (lowMask 64) else .absent
  | .chan m o => if o = 0 then cntBoth else if o = 8 then .w1c (if m = 0 then lowMask 64 else 0xFFFFFFFF00000000#64) else .absent
  | .qcfg _ | .qstat _ => .special
  | .pool _ o => if o = 0 then .ro else if offIn 8 2 o then cntBoth else .absent
  | .tb o => if o = 0 then .image (lowMask 49) else if o = 8 then .image (lowMask 64) else if o = 0x10 then .image (lowMask 48)
             else if o = 0x30 then .image (lowMask 32) else if o = 0x38 then .special else if offIn 0x18 3 o then .ro
             else if offIn 0x40 3 o then cntBoth else .absent
  | .bv o => if o = 0 then .image 0xFFFFFF0000#64 else if offIn 8 2 o then cntBoth else if o = 0x18 then .rw (lowMask 16) else .absent
  | .link _ o => if o = 0 then .image (lowMask 25) else if o = 8 then .ro else if o = 0x10 then .special
                 else if offIn 0x18 3 o then cntBoth else .absent
  | .nz o => if o = 0 then .image 0x000007FFF80007FF#64
             else if offIn 0x100 32 o then (if o % 16 = 0 then .image (lowMask 36) else .image (lowMask 35)) else .absent
  | .half _ o => if o = 0 then .ro else if o = 8 then .special else if offIn 0x10 3 o then cntBoth else .absent
  | .boot o => if o = 0 then .ro else if o = 8 ∨ o = 0x10 then .special else if o = 0x18 then .rw (lowMask 30)
               else if o = 0x80 then cntBoth else .absent
  | .lard o => if o < 0x1000 then .special else if o < 0x2000 ∨ o = 0x2000 then .ro else if o = 0x2008 then cntLow else .absent
  | .sec o => if o = 0 then .ro else if o = 8 then .special else if o = 0x10 then cntBoth else if o = 0x18 then cntLow else .absent
  | .pair o => if o = 0 then .image (lowMask 55) else if o = 8 then .image (lowMask 48) else if o = 0x10 then .image (lowMask 20)
               else if o = 0x18 then .image (lowMask 64)
               else if offIn 0x40 16 o then (if o % 16 = 0 then .image (lowMask 64) else .image (lowMask 40))
               else if o = 0x100 then .ro else if o = 0x108 ∨ o = 0x110 then .special else if o = 0x118 then cntBoth
               else if o = 0x120 then cntLow else .absent
  | .pwr o => if o = 0 ∨ o = 0x40 ∨ o = 0x50 then .special else if o = 8 then .rw (lowMask 64) else if o = 0x10 then .rw (lowMask 16)
              else if offIn 0x18 5 o then .ro else if o = 0x48 then .rw (lowMask 28) else if offIn 0x58 2 o then cntBoth
              else if o = 0x68 then cntLow else .absent
  | .mon _ o => if o = 0 then .special else if offIn 8 2 o ∨ offIn 0x20 16 o then .ro else .absent
  | .gov _ o => if o = 0 then .special else if o = 8 then .ro else if o = 0x10 then cntBoth else if o = 0x18 then cntLow else .absent
  | .flt o => if o = 0 then .rw (lowMask 17) else if o = 8 ∨ o = 0x48 then .ro else if offIn 0x10 4 o then cntBoth
              else if o = 0x30 ∨ o = 0x40 then .special else .absent
  | .bist _ => .w1c 0x3F000#64

/-- Is there a register at the place (R645)? Registers wider than 64 bits lie where no 64-bit register does. -/
def RegPlace.occupied (p : RegPlace) : Bool :=
  match p.kind, p with
  | .absent, .nmg _ _ => true
  | .absent, .boot o => decide (0x40 ≤ o) && decide (o < 0x80)
  | .absent, .sec o => (decide (0x100 ≤ o) && decide (o < 0x120)) || (decide (0x1000 ≤ o) && decide (o < 0x3000))
  | .absent, .flt o => decide (0x80 ≤ o) && decide (o < 0xC0)
  | .absent, _ => false
  | _, _ => true

/-! ### Reads -/

/-- CORE_CIDc. -/
def coreCid (c : Core) : Nat := c.val + 64 * (c.val / 24) + 128 * b2n (isSolo c) + 256 * (c.val % 24 % 6) + 2048 * (c.val % 24 / 6)

/-- CORE_ENSTATc: two bits a unit. -/
def State.enStat (s : State) (c : Core) : Nat :=
  ((List.finRange 13).map (fun u => ((s.core c).getUnit u).code * 4 ^ u.val)).sum

/-- CORE_FGSTATcg. -/
def State.fgStat (s : State) (c : Core) (g : Ctx) : Nat :=
  let x := s.fg c g
  let n := match x.openFill with
    | some f => (x.fill f).reserved.length
    | none => 0
  let due := match x.openFill with
    | some f => if s.fgDeadline c g.val = 0 then 0 else (x.fill f).due
    | none => 0
  n + 2 ^ 7 * x.f0.st.code + 2 ^ 9 * x.f1.st.code + 2 ^ 16 * (due % 2 ^ 48)

/-- LINK_ECC of LP_CFG: on for the rates of Table 14-3 that say so, where a channel is populated (R393). -/
def lpLinkEcc (cfg : Nat) : Bool := decide (cfg % 8 ≤ 2) && decide (cfg / 8 % 16 ≠ 0)

/-- ARR_STAT. -/
def State.arrStat (s : State) (c : Core) (a : Arr) : Nat :=
  let x := s.arr c a
  let busy := x.loadq.any (·.busy)
  let waits := x.loadWaits
  let mode := x.passMode
  b2n x.active + 2 * b2n x.loaded.isSome + 4 * b2n busy + 8 * b2n waits + 16 * x.p0.layout + 128 * x.p1.layout
    + 1024 * mode + 2 ^ 14 * min 2 x.loadq.length

/-- SIEVE_STAT. -/
def State.sieveStat (s : State) (c : Core) : Nat :=
  let v := s.sieve c
  min 16 v.jobs.length + 32 * b2n (v.disp.isSome || !v.routed.isEmpty || !v.jobs.isEmpty || v.merging.isSome)
    + 64 * min 2 v.merge.length + 256 * b2n v.disp.isSome

/-- VEC_STAT. -/
def State.vecStat (s : State) (c : Core) : Nat :=
  let v := s.vec c
  b2n (!v.jobs.isEmpty || !v.stalled.isEmpty) + 2 * min 8 v.jobs.length + 32 * min 2 v.bufs.length

/-- STR_POOL. -/
def State.strPool (s : State) (c : Core) : Nat :=
  let want := match (s.core c).admitq with
    | e :: _ => (match (s.eng c e).cur with
      | some r => r.credits
      | none => 0)
    | [] => 0
  s.freeCredits c + 2 ^ 8 * (s.core c).admitq.length + 2 ^ 13 * want

/-- STR_ENGn. -/
def State.strEng (s : State) (c : Core) (e : Eng) : Nat :=
  let x := s.eng c e
  let pc := match x.cur with
    | some r => r.pc
    | none => 0
  let tag := match x.cur with
    | some r => r.job.tag
    | none => x.tag
  s.engState c e + 8 * x.q.length + 2 ^ 6 * pc + 2 ^ 12 * tag + 2 ^ 28 * x.lastStatus + 2 ^ 30 * x.held

/-- BELAY_STATn. -/
def BelayCtx.stat (x : BelayCtx) (st : Nat) : Nat := st + 8 * x.reason + 64 * x.rows + 2 ^ 17 * x.hops + 2 ^ 25 * x.failLink

/-- HBM_STATs. -/
def State.hbmStat (s : State) (h : Nat) : Nat :=
  b2n s.memc.trained + 2 * b2n s.memc.hbmFilled + 4 * b2n (NSet.has (48 + h) s.memc.selfRef) + 8 * b2n (s.nmgRun h).isSome
    + 16 * (s.nmgQueue h).length

/-- QP_QSTATq, as its two sides have last looked at each other (R435, R436). -/
def State.qStat (s : State) (q : Nat) : Nat :=
  let x := s.queue q
  x.cells + 2 ^ 17 * x.pkts.length + 2 ^ 34 * b2n x.overrun + 2 ^ 35 * b2n x.lvlHit
    + 2 ^ 36 * b2n (x.cells + x.rl.lag == s.rf (rQcfg q) 0 17) + 2 ^ 37 * b2n (s.qHead q).isNone

/-- TB_STAT. -/
def State.tbStat (s : State) : Nat :=
  s.tb.st + 8 * b2n s.tb.running + 16 * s.tb.depth + 256 * b2n s.tb.onAlt + 512 * s.tb.topoN + 2 ^ 22 * s.tb.offset.toNat

/-- BV_LSTATl. -/
def LinkSt.stat (x : LinkSt) : Nat :=
  x.st + 8 * b2n x.x4 + 16 * b2n x.laneHi + 32 * b2n x.half + 64 * x.peer.toNat + 2 ^ 22 * x.reason + 2 ^ 26 * b2n x.wakeDet

/-- BOOT_STAT. -/
def State.bootStat (s : State) : Nat :=
  s.boot.st + 8 * s.boot.slot + 16 * s.boot.failA + 128 * s.boot.failB + 1024 * b2n s.boot.wfail + 2 ^ 11 * s.boot.version.toNat

/-- SEC_STAT. -/
def State.secStat (s : State) : Nat :=
  let x := s.sec
  b2n x.ident + 2 * b2n x.owned + 4 * b2n x.debug + 8 * b2n s.pwEn + 16 * b2n s.never + 32 * b2n x.pwLock + 64 * x.pwFails
    + 1024 * b2n x.busy.isSome + 2 ^ 11 * x.lastCmd + 2 ^ 15 * x.result + 2 ^ 19 * b2n x.trngFail + 2 ^ 20 * b2n x.pufFail

/-- PAIR_STAT. -/
def State.pairStat (s : State) : Nat :=
  s.pair.st + 8 * s.pair.misses + 128 * b2n s.mirrorOk + 256 * (fld s.pairEpoch 0 32)

/-- PWR_STAT. -/
def State.pwrStat (s : State) : Nat :=
  s.pwr.st + 8 * b2n s.pwr.req.isSome + 16 * b2n s.pwr.wake.isSome + 32 * b2n s.pwr.latched.isSome + 64 * s.pwr.opNow
    + 256 * b2n s.pwr.therm + 512 * s.pwr.epoch.toNat

/-- PWR_DOMONk: a bit for each domain that is on. -/
def State.domOnBits (s : State) (lo n : Nat) : Nat := ((List.range n).map (fun i => b2n (s.powered (lo + i)) * 2 ^ i)).sum

/-- The 8 bytes at an offset of a byte list. -/
def wordOf (bs : List Byte) (o : Nat) : Nat := natOf ((bs.drop o).take 8)

/-- A read of 8 bytes of register space whose domain is on. No command reads for SMBus or JTAG, so in RECOVERY the SEC_ page gives nothing
(R542). -/
def State.regRead (s : State) (a : Nat) : RegPlace → W64 × State
  | .core c o =>
    if o = 0 then (BitVec.ofNat 64 (coreCid c), s) else if o = 0x18 then (BitVec.ofNat 64 (s.enStat c), s)
    else if h : 0x180 ≤ o ∧ o < 0x200 then (BitVec.ofNat 64 (s.fgStat c ⟨(o - 0x180) / 8, by omega⟩), s)
    else (s.reg a, s)
  | .dev o =>
    if o = 0 then (BitVec.ofNat 64 (s.devId.toNat + (match s.part with
      | .glx384 => 0
      | .glx288 => 0x10000) + 0x30B0000000), s)
    else if o = 8 then (s.full 0, s) else (s.reg a, s)
  | .arr c x o => if o = 0 then (BitVec.ofNat 64 (s.arrStat c x), s) else (s.reg a, s)
  | .acc _ _ => (s.reg a, s)
  | .sieve c o => if o = 0 then (BitVec.ofNat 64 (s.sieveStat c), s) else (s.reg a, s)
  | .vec c o => if o = 0 then (BitVec.ofNat 64 (s.vecStat c), s) else (s.reg a, s)
  | .pan _ o => if o = 0 then (s.reg a + BitVec.ofNat 64 (4 * (Config.frame s.free).toNat), s.tick) else (s.reg a, s)
  | .str c o =>
    if o = 8 then (BitVec.ofNat 64 (s.strPool c), s)
    else if h : 0x10 ≤ o ∧ o < 0x30 then (BitVec.ofNat 64 (s.strEng c ⟨(o - 0x10) / 8, by omega⟩), s) else (s.reg a, s)
  | .seq c o => if o = 8 then (BitVec.ofNat 64 (s.seqStat c), s) else if o = 0x28 then ((s.seq c).f, s) else (s.reg a, s)
  | .belay c n o => if o = 0x10 then (BitVec.ofNat 64 ((s.belay c n).stat (s.belayState c n)), s) else (s.reg a, s)
  | .belayCnt _ => (s.reg a, s)
  | .hbm o => if o = 0 then (s.reg a + BitVec.ofNat 64 (8 * b2n (s.part == .glx384)), s) else (s.reg a, s)
  | .stack h o => if o = 0 then (BitVec.ofNat 64 (s.hbmStat h), s) else (s.reg a, s)
  | .nmg _ _ => (0, s)
  | .lp o => if o = 0 then (s.reg a + BitVec.ofNat 64 (2 ^ 13 * b2n (lpLinkEcc (s.reg a).toNat) + 2 ^ 15 * b2n s.memc.lpFilled), s) else (s.reg a, s)
  | .chan _ _ => (s.reg a, s)
  | .qcfg _ => (s.reg a, s)
  | .qstat q =>
    let s := (s.lookFreed q).lookWritten q
    (BitVec.ofNat 64 (s.qStat q), s)
  | .pool d o => if o = 0 then (BitVec.ofNat 64 (s.freeCells d), s) else (s.reg a, s)
  | .tb o =>
    if o = 0x18 then (BitVec.ofNat 64 s.tbStat, s) else if o = 0x20 then (s.tb.time, s)
    else if o = 0x28 then (BitVec.ofNat 64 (s.tb.pitch % 2 ^ 48), s) else (s.reg a, s)
  | .bv o =>
    if o = 0 then (s.reg a + BitVec.ofNat 64 s.devId.toNat, s)
    else if o = 0x18 then
      let e := s.routeEntry (BitVec.ofNat 16 (s.rf a 0 16))
      (BitVec.ofNat 64 (e.2.rf a 0 16 + 2 ^ 16 * e.1.toNat), e.2)
    else (s.reg a, s)
  | .link l o => if o = 8 then (BitVec.ofNat 64 (s.link l).stat, s) else (s.reg a, s)
  | .nz _ => (s.reg a, s)
  | .half h o =>
    if o = 0 then
      let x := s.half h
      (BitVec.ofNat 64 (x.st + 8 * b2n x.x8 + 16 * b2n x.nrz + 32 * s.dirUsed h.val), s)
    else (s.reg a, s)
  | .boot o =>
    if o = 0 then (BitVec.ofNat 64 s.bootStat, s)
    else if o = 0x10 then (BitVec.ofNat 64 (8 * b2n s.boot.cmd.isSome + 16 * b2n s.boot.perr + 32 * s.boot.vresult), s)
    else (s.reg a, s)
  | .lard o =>
    if o < 0x1000 then s.lardRead (o / 8)
    else if o < 0x2000 then
      let n := (o - 0x1000) / 8
      (BitVec.ofNat 64 ((s.wear n).toNat + 2 ^ 32 * b2n (s.worn n)), s)
    else if o = 0x2000 then (BitVec.ofNat 64 (min 8 s.boot.lardq.length + 16 * b2n (!s.boot.lardq.isEmpty)), s)
    else (s.reg a, s)
  | .sec o =>
    if s.boot.st = 4 then (0, s)
    else if o = 0 then (BitVec.ofNat 64 s.secStat, s)
    else if 0x100 ≤ o ∧ o < 0x120 then (match s.sec.nonce with
      | some n => (BitVec.ofNat 64 (fld n (8 * (o - 0x100)) 64), s)
      | none => (0, s))
    else if 0x1000 ≤ o ∧ o < 0x3000 then (BitVec.ofNat 64 (natOf (s.secBytes (o - 0x1000) 8)), s)
    else (s.reg a, s)
  | .pair o => if o = 0x100 then (BitVec.ofNat 64 s.pairStat, s) else (s.reg a, s)
  | .pwr o =>
    if o = 0x18 then (BitVec.ofNat 64 s.pwrStat, s) else if o = 0x20 then (BitVec.ofNat 64 (s.domOnBits 0 64), s)
    else if o = 0x28 then (BitVec.ofNat 64 (s.domOnBits 64 16), s) else (s.reg a, s)
  | .mon m o =>
    let x := s.monShown m
    if o = 8 then (BitVec.ofNat 64 (x.mn.toNat + 2 ^ 32 * x.mx.toNat), s)
    else if o = 0x10 then (BitVec.ofNat 64 (x.count.toNat + 2 ^ 32 * (s.mon m).windows.toNat), s)
    else if 0x20 ≤ o ∧ o < 0xA0 then
      let k := (o - 0x20) / 8
      (BitVec.ofNat 64 ((nth 0 (2 * k) x.bins).toNat + 2 ^ 32 * (nth 0 (2 * k + 1) x.bins).toNat), s)
    else (s.reg a, s)
  | .gov d o =>
    if o = 8 then
      -- a run is one command, so none is in progress between commands
      (BitVec.ofNat 64 (min 16 (s.govQueue d.val).length), s)
    else (s.reg a, s)
  | .flt o =>
    if o = 8 then (BitVec.ofNat 64 (s.flt.seq.toNat + 2 ^ 32 * b2n s.flt.halt), s)
    else if o = 0x48 then (BitVec.ofNat 64 s.flt.cal.toNat, s)
    else if 0x80 ≤ o ∧ o < 0xC0 then (BitVec.ofNat 64 (wordOf s.flt.held (o - 0x80)), s)
    else (s.reg a, s)
  | .bist c =>
    let bits (f : ArrSt → Bool) : Nat := ((List.finRange 6).map (fun x => b2n (f (s.arr c x)) * 2 ^ x.val)).sum
    (s.reg a + BitVec.ofNat 64 (bits (·.bistPending) + 64 * bits (·.bistRunning)), s)

/-! ### Writes -/

/-- The path by which a writer reaches the SEC_ page (R542); the companion and other devices have none. -/
def secPathOf : Writer → Option SecPath
  | .program _ | .mesh _ => some .program
  | .smbus => some .smbus
  | .jtag => some .jtag
  | .companion | .remote _ | .image => none

/-- PWR_CFG: a reserved 0 in DELAY_LIM or AVS_TIMEOUT leaves that field; a new OP moves the clock (R602). -/
def State.pwrCfgWrite (s : State) (v : W64) : State :=
  let old := s.reg rPwrCfg
  let v := v &&& lowMask 30
  let v := if fld v 2 10 = 0 then setFld v 2 10 (fld old 2 10) else v
  let v := if fld v 12 10 = 0 then setFld v 12 10 (fld old 12 10) else v
  (s.setReg rPwrCfg v).opMove

/-- STR_CTL (R315): a reserved 0 leaves PART_TIMEOUT. -/
def State.strCtlWrite (s : State) (c : Core) (v : W64) : State :=
  if fld v 0 16 = 0 then s else s.setReg (rStrCtl c) (v &&& lowMask 16)

/-- PAIR_GEN, whose writes by the twin are ignored while DETACHING (R572). -/
def State.pairGenWrite (s : State) (who : Writer) (v : W64) : State :=
  match who with
  | .remote _ => if s.pair.st = 5 then s else s.setReg rPairGen v
  | _ => s.setReg rPairGen v

/-- The effect of a write that is more than a store. -/
def State.regSpecial (s : State) (who : Writer) (v : W64) : RegPlace → State
  | .core c o =>
    if o = 0x10 then s.coreEnWrite c v
    else if h : 0x100 ≤ o ∧ o < 0x180 then s.fgctxWrite c ⟨(o - 0x100) / 8, by omega⟩ v
    else if h : 0x200 ≤ o ∧ o < 0x280 then s.xrxWrite c ⟨(o - 0x200) / 8, by omega⟩ false v
    else if h : 0x280 ≤ o ∧ o < 0x300 then s.xrxWrite c ⟨(o - 0x280) / 8, by omega⟩ true v
    else s
  | .dev _ => s.mprioCommit v
  | .pan c _ => s.panInval c v
  | .str c _ => s.strCtlWrite c v
  | .seq c o => if o = 0 then s.seqCtlWrite c v else if o = 0x30 then s.flagSet c v else s.flagClr c v
  | .belay c n o => s.belayCtxWrite c n (o == 8) v
  | .hbm _ => s.hbmCommit v
  | .lp _ => s.lpCommit v
  | .qcfg q => s.qcfgWrite q v
  | .qstat q => s.setQueue q { s.queue q with overrun := (s.queue q).overrun && !(bitOf v 34)
                                              lvlHit := (s.queue q).lvlHit && !(bitOf v 35) }
  | .tb _ => s.timeset v
  | .link l _ =>
    let s := if bitOf v 0 then s.retrainLink l else s
    if bitOf v 2 then s.rekeyLink l else s
  | .half h _ =>
    let s := if bitOf v 0 then s.nzRetrain h else s
    if bitOf v 1 then s.nzRekey h else s
  | .boot o => if o = 8 then (if bitOf v 16 then s.bootReset else s) else s.flashCmd (fld v 0 3)
  | .lard o => s.lardWrite (o / 8) v who
  | .sec _ => (match secPathOf who with
    | some p => s.secCmd p (fld v 0 4) (fld v 4 5)
    | none => s)
  | .pair o =>
    if o = 0x108 then s.pairGenWrite who v
    else
      let s := if bitOf v 0 then s.detach else s
      if bitOf v 1 then s.attachTry else s
  | .pwr o => if o = 0 then s.pwrWrite v who else if o = 0x40 then s.padRelease v else s.pwrCfgWrite v
  | .mon m _ => s.monCfgWrite m v
  | .gov d _ => s.govRequest d v
  | .flt o => if o = 0x30 then s.bistReq v else s.calReq v
  | .arr .. | .acc .. | .sieve .. | .vec .. | .belayCnt .. | .stack .. | .nmg .. | .chan .. | .pool .. | .bv .. | .nz .. | .bist .. => s

/-- May a writer reach a place (R542)? The SEC_ page has its own paths. -/
def State.pathOpen (s : State) (who : Writer) : RegPlace → Bool
  | .sec _ => (secPathOf who).any s.secReach
  | _ => true

/-- A write of 8 bytes of register space whose domain is on. A register wider than 64 bits takes it as a part of itself. -/
def State.regWrite (s : State) (who : Writer) (a : Nat) (v : W64) (p : RegPlace) : State :=
  if !(s.pathOpen who p) then s else
  match p.kind with
  | .ro => s
  | .rw m => s.setReg a (v &&& m)
  | .w1c m => s.setReg a (s.reg a &&& ~~~(v &&& m))
  | .image _ => s
  | .special => s.regSpecial who v p
  | .absent =>
    (match p with
     | .boot o => if 0x40 ≤ o ∧ o < 0x80 then s.setReg a v else s
     | .sec o => if 0x1000 ≤ o ∧ o < 0x3000 then s.secBufWrite (o - 0x1000) v else s
     | _ => s)

/-- A CONFIG record of the image (R525, R651): fields that software only reads are set too, and a shadow is set with the
value in force; ORIGIN and PITCH_LEN place the pitches anew (R449). -/
def State.imageWrite (s : State) (a : Nat) (v : W64) (p : RegPlace) : State :=
  match p.kind with
  | .image m =>
    let s := s.setReg a ((s.reg a &&& ~~~m) ||| (v &&& m))
    (match p with
     | .tb _ => s.placePitch
     | _ => s)
  | .rw m =>
    let s := s.setReg a (v &&& m)
    (match p with
     | .hbm _ | .lp _ | .dev _ => { s with inForce := s.inForce.put (fun _ => 0) a (v &&& m) }
     | _ => s)
  | _ => s.regWrite .image a v p

end Sys2Proof.Machine
end

