-- ==== Sys2Proof/Machine/Boot.lean ====
section
/-! DEFINITION. The boot steps of Table 19-5 (spec/19_boot_menus_larder.md R524 to R532; spec/20_security.md R546, R550;
spec/16_time_base_and_topo.md R451; spec/18_nimzen_link.md R501). -/
namespace Sys2Proof.Machine

/-- Where an image stands while it is read and applied. -/
def stagingBase : Nat := 0x1000000000

/-! ### Steps 1 to 4 -/

/-- The header of slot k is read: the reason the slot fails with, 0 for none. -/
def State.slotHeader (s : State) (k : Nat) : Nat × State :=
  let ok := Config.flashRead s.free
  let s := s.tick
  (if !ok then 6 else if s.slotBad k then 2 else 0, s)

/-- The version in the header of slot k. -/
def State.slotVersion (s : State) (k : Nat) : Nat := imgVersion (s.flashBytes (s.slotBase k) 128)

/-- The slots in the order in which they are tried (R528). -/
def State.slotOrder (s : State) (a b : Nat) : List Nat :=
  if a = 0 ∧ b = 0 then (if s.slotVersion 0 < s.slotVersion 1 then [1, 0] else [0, 1])
  else if a = 0 then [0] else if b = 0 then [1] else []

/-- Go on with the next slot from step 5, or enter RECOVERY. -/
def State.nextSlot (s : State) : State :=
  match s.boot.left with
  | [] => s.bootFail
  | k :: l => s.onBoot (fun b => { b with slot := k, left := l, phase := 1, st := 0 })

/-- Does the device support a flash of so many bytes: 512 Mib to 8 Gib (Table 19-1, R519)? -/
def densityOk (size : Nat) : Bool := decide (0x4000000 ≤ size) && decide (size ≤ 0x40000000)

/-- Steps 1 to 4. -/
def State.bootStart (s : State) (devid : BitVec 16) : State :=
  let s := { s with devId := devid }.drawKeys
  let ok := Config.pufOk s.free
  let s := s.tick
  let s := s.onSec (fun x => { x with ident := ok, pufFail := !ok })
  let s := if ok then s else s.raise fSecPuf 17 0 []
  let s := forN 512 (fun n s => (s.lardRead n).2) s
  let owned := (rangeFrom 1 8).any (fun n => s.lardVal n != 0)
  let s : State := { s.onSec (fun x => { x with owned := owned }) with memc := { s.memc with trained := true } }
  let read := Config.flashOk s.free
  let s := s.tick
  if !read || !(densityOk s.boot.size) then (s.onBoot (fun b => { b with failA := 1, failB := 1 })).bootFail
  else
    let a : Nat × State := s.slotHeader 0
    let b : Nat × State := a.2.slotHeader 1
    let s : State := (if a.1 = 0 then b.2 else b.2.slotReason 0 a.1)
    let s : State := (if b.1 = 0 then s else s.slotReason 1 b.1)
    (s.onBoot (fun x => { x with left := s.slotOrder a.1 b.1 })).nextSlot

/-- RESET_RELEASE. -/
def execResetRelease (devid : BitVec 16) (s : State) : Host.Outcome State Fault Refusal := s.live <|
  .next (if s.boot.phase = 0 then s.bootStart devid else s)

/-! ### Steps 5 and 6 -/

/-- IMAGE_READ: the slot's image is read into staging, once the HBM fill is complete; its digest is formed on the way (step 5), and with
it what is kept of its key and VERSION. -/
def execImageRead (s : State) : Host.Outcome State Fault Refusal := s.live <|
  if s.boot.phase = 1 ∧ s.memc.hbmFilled ∧ !s.sec.dead then
    let base := s.slotBase s.boot.slot
    let n := imgLen (s.flashBytes base 128)
    let img := s.flashBytes base n
    .next (((s.wrBytes stagingBase img).freshEcc stagingBase n).onBoot (fun b => { b with
      st := 1, phase := 2, len := n, image := imgDigest img, owner := Config.sha3 (imgKey img), next := BitVec.ofNat 32 (imgVersion img) }))
  else .next s

/-- The image in staging. -/
def State.staged (s : State) : List Byte := s.rdBytes stagingBase s.boot.len
/-- The words of the image that steps 6 and 7 read: header and section table, sections, key and signature. -/
def stagedWords (img : List Byte) : List Nat :=
  ((((0, 128 + 32 * imgSections img) :: (imgTable (imgSections img) (img.drop 128)).map (fun e => (e.2.1, e.2.2.1)))
    ++ [(imgKeyOff img, keyLen), (imgSigOff img, sigLen)]).flatMap (fun p => wordsAt (stagingBase + p.1) p.2)).eraseDups
/-- Basecamp reads them (R397, R398): the image, none where a word is not delivered. -/
def State.stagedRead (s : State) : Option (List Byte) × State :=
  let r := s.readWords 14 ((stagedWords s.staged).map (fun a => (s.full a).toNat))
  (if r.1 = 0 then some s.staged else none, r.2)
/-- Staging is discarded. -/
def State.unstage (s : State) : State :=
  ({ s with mem := Memory.clear s.mem stagingBase s.boot.len }.freshEcc stagingBase s.boot.len).onBoot (fun b => { b with len := 0 })

/-- The slot being booted fails with a reason. -/
def State.slotFails (s : State) (reason : Nat) : State := (s.unstage.slotReason s.boot.slot reason).nextSlot

/-! ### Step 7 -/

/-- The bytes of every section of a type, in image order. -/
def sectionsOf (img : List Byte) (ty : Nat) : List (Nat × List Byte) :=
  ((imgTable (imgSections img) (img.drop 128)).filter (fun e => e.1 == ty)).map (fun e => (e.2.2.2, (img.drop e.2.1).take e.2.2.1))

/-- A section cut into records of n bytes. -/
def records (n : Nat) (bs : List Byte) : List (List Byte) := (List.range (bs.length / n)).map (fun i => (bs.drop (n * i)).take n)

/-- The CONFIG records: address (bits [47:0]) and value. -/
def configRecords (img : List Byte) : List (Nat × W64) :=
  (sectionsOf img 2).flatMap (fun p => (records 16 p.2).map (fun r => (imgFld r 0 8 % 2 ^ 48, BitVec.ofNat 64 (imgFld r 8 8))))

/-- The register that a CONFIG record may name (R525). -/
def configPlace (a : Nat) : Option RegPlace :=
  if a % 8 = 0 ∧ inRegs a then
    (match regPlace a with
     | some p => (match p, p.kind with
       | _, .absent => none
       | .boot _, _ | .lard _, _ | .sec _, _ => none
       | _, _ => some p)
     | none => none)
  else none

/-- Apply one CONFIG record. -/
def State.applyConfig (s : State) (r : Nat × W64) : State :=
  match configPlace r.1 with
  | some p => s.imageWrite r.1 r.2 p
  | none => s

/-- Does a window lie in one of the memory regions? -/
def State.winInMemory (s : State) (w : Nat) : Bool :=
  let lo := s.winBase w
  let hi := lo + s.winSize w
  (decide (0x1000000000 ≤ lo) && decide (hi ≤ 0x7000000000)) || (decide (0x10000000000 ≤ lo) && decide (hi ≤ 0x1F800000000))

/-- What R501 does to window w: WIN_DROP records what it clears. -/
def State.checkWindow (s : State) (w : Nat) : State :=
  let lo := s.winBase w
  let hi := lo + s.winSize w
  let keys := decide (lo < pageBase 18) && decide (pageBase 16 < hi)
  let outside := s.winBit w 31 && (decide (lo < 0x800000000000) || decide (0x1000000000000 < hi))
  let drop (b : Bool) (i : Nat) (s : State) : State := if b then (s.setRf (rNzWinB w) i 1 0).setRf rNzCfg (11 + w) 1 1 else s
  drop (s.winBit w 30 && !(s.winBit w 31) && !(s.winInMemory w)) 30 (drop (s.winBit w 34 && (keys || outside)) 34 s)

/-- The topo as loaded (R451): mismatched entries are reported, malformed ones counted and the first named. -/
def State.loadTopo (s : State) (bs : List Byte) : State :=
  let es := ((records 128 bs).take 4096).map (fun r => BitVec.ofNat 1024 (natOf r))
  let s : State := { s with topo := (es.zipIdx).foldl (fun (m : SMap (BitVec 1024)) (p : BitVec 1024 × Nat) => SMap.put topoDefault p.2 p.1 m) [] }
  let s := s.topoCheck
  let good := (es.zipIdx).filter (fun p => topoPairOk p.1 && Te.valid p.1)
  let bad := good.filter (fun p => Te.malformed p.1)
  let s := s.onTb (fun t => { t with topoN := good.length - bad.length })
  match bad with
  | [] => s
  | p :: _ => (s.bumpHi (rTbCnt 1) bad.length).raise fTopoBad 12 0 [p.2]

/-- The route table as loaded (R473): entry d with its complement at bytes 4d to 4d + 3. -/
def loadRoute (bs : List Byte) : SMap W32 :=
  (((records 4 bs).take 65536).zipIdx).foldl (fun (m : SMap W32) (p : List Byte × Nat) => SMap.put routeDefault p.2 (BitVec.ofNat 32 (natOf p.1)) m) []

/-- Step 7: the CONFIG records, the windows of R501, ROUTE, TOPO, MENU and PANTRY. -/
def State.applyImage (s : State) (img : List Byte) : State :=
  let s := (configRecords img).foldl (fun s r => s.applyConfig r) s
  let s := forN 16 (fun w s => s.checkWindow w) s
  let s := (sectionsOf img 5).foldl (fun s p => { s with route := loadRoute p.2 }) s
  let s := (sectionsOf img 4).foldl (fun s p => s.loadTopo p.2) s
  let s := (sectionsOf img 7).foldl (fun s p =>
    s.onBoot (fun b => { b with menu := ((records 8 p.2).take 4096).map (fun r => BitVec.ofNat 64 (natOf r)) })) s
  (sectionsOf img 3).foldl (fun s p => s.wrLocal p.1 p.2) s

/-! ### Steps 8 and 9 -/

/-- Does a range lie in a pantry, in HBM or in LPDDR? -/
def State.wlRange (s : State) (a n : Nat) : Bool :=
  decide (a + n ≤ 0x30000000) || (inHbm a && decide (a + n ≤ 0x7000000000) && s.populated (a + n - 1))
    || (inLp a && decide (a + n ≤ 0x1F800000000) && s.populated (a + n - 1))

/-- An entry that breaks Table 19-4. -/
def State.wlBad (s : State) (e : List Byte) : Bool :=
  decide (2 < wlKind e) || wlLen e % 64 != 0 || !(s.wlRange (wlDst e) (wlLen e))
    || (wlKind e == 0 && decide (s.boot.len < wlSrc e + wlLen e))

/-- A weight load fails (R526). -/
def State.wlFail (s : State) (n : Nat) (e : List Byte) : State :=
  let s := if s.wlRange (wlDst e) (wlLen e) ∧ wlLen e % 64 = 0 then s.wrLocal (wlDst e) (padTo (wlLen e) []) else s
  ((s.bumpHi rBootCnt 1).onBoot (fun b => { b with wfail := true })).raise fBootWload 15 0 [n]

/-- Step 9: staging is zeroed and the device runs. -/
def State.bootRun (s : State) : State :=
  (s.unstage.onBoot (fun b => { b with st := 3, phase := 4, weights := [], got := [], version := b.next, left := [] })).onPair
    (fun p => { p with ran := s.pitchMark })

/-- A FLASH entry copies bytes of staging, word by word; a word that is not delivered is not written (R397, R398; DESIGN CHOICE: the spec
does not say what becomes of the load). -/
def State.wlCopy (s : State) (e : List Byte) : State :=
  (piecesOf (stagingBase + wlSrc e) (wlLen e)).foldl (fun s p =>
    let r := s.wordRead 14 p.1 p.2
    match r.1 with
    | .ok bs => r.2.wrLocal (wlDst e + (p.1 - (stagingBase + wlSrc e))) bs
    | .error _ => r.2) s

/-- The weight loads that can be made now are made in table order; a COMPANION or PEER load, which asks for its words, or a destination
that is still being filled, holds up the rest. -/
def State.wlRun (s : State) : List (Nat × List Byte) → State
  | [] => s.bootRun
  | (n, e) :: rest =>
    if s.wlBad e then (s.wlFail n e).wlRun rest
    else if s.wlWaits e ∨ wlKind e ≠ 0 then (s.onBoot (fun b => { b with weights := (n, e) :: rest, got := [], since := s.tb.time })).wlPump
    else (s.wlCopy e).wlRun rest

/-- Step 8: links and halves named by the configuration leave OFF, a paired device attaches (R565), and weights load. -/
def State.bootLoad (s : State) (img : List Byte) : State :=
  let s := s.onBoot (fun b => { b with phase := 3, st := 2, digests := [] })
  let s := if s.paired then s.onPair (fun p => { p with st := 1 }) else s
  let s := (List.finRange 24).foldl (fun s l => s.linkStart l) s
  let s := (List.finRange 2).foldl (fun s h => s.halfStart h) s
  s.wlRun (((sectionsOf img 6).flatMap (fun p => records 128 p.2)).zipIdx.map (fun p => (p.2, p.1)))

/-- IMAGE_READ_DONE: steps 5 to 8 up to the first weight load that waits. -/
def execImageReadDone (s : State) : Host.Outcome State Fault Refusal := s.live <|
  if s.boot.phase ≠ 2 then .next s
  else
    let ok := Config.flashRead s.free
    let s := s.tick
    if !ok then .next (s.slotFails 6)
    else
      match s.stagedRead with
      | (none, s) => .next (s.slotFails 6)
      | (some img, s) =>
        let r := s.imageCheck (imgKey img) s.boot.image (imgSig img) s.boot.next.toNat
        if r.1 ≠ 0 then .next (r.2.slotFails r.1)
        else if (configRecords img).any (fun c => (configPlace c.1).isNone) then .next (r.2.slotFails 5)
        else .next (((r.2.onBoot (fun b => { b with st := 2 })).applyImage img).bootLoad img)

/-- The COMPANION or PEER load that is in progress, with those that follow it. -/
def State.wlNow (s : State) : Option (Nat × List Byte × List (Nat × List Byte)) :=
  match s.boot.phase, s.boot.weights with
  | 3, (n, e) :: rest => if wlKind e = 0 ∨ s.wlWaits e then none else some (n, e, rest)
  | _, _ => none

/-- WEIGHT_LOAD_DONE: the bytes of a COMPANION or PEER entry have come (R526), where that is the load in progress. -/
def execWeightLoadDone (entry : Nat) (s : State) : Host.Outcome State Fault Refusal := s.live <|
  .next (match s.wlNow with
    | none => s
    | some (n, e, rest) => if n ≠ entry then s else match s.wlData e with
      | none => s.wlPump
      | some data =>
        if Config.sha3 data != wlDigest e then (s.wlFail n e).wlRun rest
        else ((s.wrLocal (wlDst e) data).onBoot (fun b => { b with digests := b.digests ++ wlDigest e })).wlRun rest)

/-- LOAD_WAIT_EXPIRY: the source has not answered within LOAD_WAIT ms. -/
def execLoadWaitExpiry (s : State) : Host.Outcome State Fault Refusal := s.live <|
  .next (match s.wlNow with
    | none => s
    | some (n, e, rest) => match s.reachBy (s.boot.since.toNat + 1000000 * s.rf rBootCtl 0 16) with
      | some t => (t.wlFail n e).wlRun rest
      | none => s)

/-- ZERO_FILL_DONE (R401): what waited for the fill goes on: weight loads, collectives and a resync. -/
def execZeroFillDone (t : Tier) (s : State) : Host.Outcome State Fault Refusal := s.live <|
  let held := match s.boot.weights with
    | (_, e) :: _ => s.boot.phase == 3 && s.wlWaits e
    | [] => false
  let s := s.fillDone t
  .next ((if held && !(match s.boot.weights with
    | (_, e) :: _ => s.wlWaits e
    | [] => true) then s.wlRun s.boot.weights else s).collAll.pairPump)

end Sys2Proof.Machine
end

