-- ==== Sys2Proof/Machine/Bus.lean ====
section
/-! DEFINITION. Addressed access to the local map (spec/25_register_map.md R637 to R646; spec/24_mode_combinations.md R635;
spec/14_memory_tiers.md R398 to R401; spec/09_pantry_and_layouts.md R258, R276, R277; spec/15_queue_pool.md R432), and the
packets and commands that make such accesses for others. -/
namespace Sys2Proof.Machine

/-- What an access comes to: bytes read, a write done, a failure with a reason of R307, or that it waits. -/
inductive BusRes
  | data (bs : List Byte) | done | fail (reason : Nat) | wait
deriving DecidableEq, Repr

/-! ### Register space (R644 to R646) -/

/-- One read of 8 bytes: the bytes, whether the access failed, and the state. -/
def State.regRead8 (s : State) (a : Nat) : W64 × Bool × State :=
  match regPlace a with
  | none => (0, false, s)
  | some p =>
    (match p with
     | .nmg .. => (0, true, s.bumpHi rMapcnt0 1)
     | _ =>
       if !p.occupied then (0, false, s)
       else if (match p.dom with
           | some d => s.powered d
           | none => true) then
         let r := s.regRead a p
         (r.1, false, r.2)
       else (0, true, s.bumpLo rMapcnt1 1))

/-- One write of 8 bytes: whether it failed, and the state. -/
def State.regWrite8 (s : State) (who : Writer) (a : Nat) (v : W64) : Bool × State :=
  match regPlace a with
  | none => (false, s)
  | some p =>
    (match p with
     | .nmg .. => (true, s.bumpHi rMapcnt0 1)
     | _ =>
       if !p.occupied then (false, s)
       else if (match p.dom with
           | some d => s.powered d
           | none => true) then (false, s.regWrite who a v p)
       else (true, s.bumpLo rMapcnt1 1))

/-- An access of a width or alignment that register space does not take. -/
def regShape (a n : Nat) : Bool := a % 8 == 0 && n % 8 == 0 && decide (8 ≤ n) && decide (n ≤ 256)

/-- A read of n bytes of register space. -/
def State.regAccRead (s : State) (a n : Nat) : BusRes × State :=
  if regShape a n then
    let r := (List.range (n / 8)).foldl (fun (r : List Byte × Bool × State) k =>
      let x := r.2.2.regRead8 (a + 8 * k)
      (r.1 ++ bytesOf 8 x.1.toNat, r.2.1 || x.2.1, x.2.2)) ([], false, s)
    (if r.2.1 then .fail 3 else .data r.1, r.2.2)
  else (.fail 3, s.bumpHi rMapcnt0 1)

/-- The gather engine that a whole 64 B write at a local address names (R409). -/
def nmgAt (a n : Nat) : Option Nat :=
  match regPlace a with
  | some (.nmg h 0) => if n = 64 then some h else none
  | _ => none

/-- A write of register space, performed. -/
def State.regPut (s : State) (who : Writer) (a : Nat) (bs : List Byte) : BusRes × State :=
  match nmgAt a bs.length with
  | some h =>
    if s.powered (48 + h) then
      let r := s.nmgPush h (BitVec.ofNat 512 (natOf bs))
      (if r.1 then .done else .fail 3, r.2)
    else (.fail 3, s.bumpLo rMapcnt1 1)
  | none =>
    if regShape a bs.length then
      let r := (List.range (bs.length / 8)).foldl (fun (r : Bool × State) k =>
        let x := r.2.regWrite8 who (a + 8 * k) (BitVec.ofNat 64 (wordOf bs (8 * k)))
        (r.1 || x.1, x.2)) (false, s)
      (if r.1 then .fail 3 else .done, r.2)
    else (.fail 3, s.bumpHi rMapcnt0 1)

/-- The larder writes that an access of n bytes would queue. -/
def lardPuts (who : Writer) (a n : Nat) : Nat :=
  ((List.range (n / 8)).filter (fun k => match regPlace (a + 8 * k) with
    | some (.lard o) => decide (o < 0x1000) && lardAllows who (o / 8)
    | _ => false)).length

/-- A write of register space by a requester that waits for its acknowledgement: it is held while the larder's write queue has no
room for what it brings (R538). -/
def State.regAccWrite (s : State) (who : Writer) (a : Nat) (bs : List Byte) : BusRes × State :=
  let k := lardPuts who a bs.length
  if k ≠ 0 ∧ s.boot.lardq ≠ [] ∧ 8 < s.boot.lardq.length + k then (.wait, s) else s.regPut who a bs

/-! ### An access to any local address -/

/-- A local address whose access moves whole elements of one accumulator store (R157). -/
def inAcc (a : Nat) : Bool := (accWindow a).isSome

/-- The lines of memory that an access touches. -/
def memLines (a n : Nat) : List Nat := if inHbm a || inLp a then linesOf a n else []

/-- A read of n bytes at a local address; `w` is who makes it, `who` its number as a requester. It keeps the places where it waited. -/
def State.readKeep (s : State) (w : NzWho) (who a n : Nat) : BusRes × State :=
  if inRegs a then s.regAccRead a n
  else match queuePage a with
  | some (q, o) =>
    if !(s.domOn (76 + dieOf q)) then (.fail 3, s)
    else (match s.queueRead q o n with
      | (some bs, s) => (.data bs, s)
      | (none, s) => (.wait, s))
  | none =>
    match accWindow a with
    | some (c, _) =>
      if !(s.coreOn c) then (.fail 3, s)
      else
        (match (s.portWaits c).accRead c who a n with
        | (.ok bs, s) => (.data bs, s)
        | (.error r, s) => (.fail r, s))
    | none =>
      let l := piecesOf a n
      let x := s.anyWaits w l false
      if x.1 then (.wait, x.2)
      else
        let r := x.2.wordsRead who l
        ((match r.1 with
          | .ok bs => .data bs
          | .error e => .fail e), r.2)

/-- An access that has been made leaves the places where it waited. -/
def State.leave (w : NzWho) (a n : Nat) (r : BusRes × State) : BusRes × State := if r.1 = .wait then r else (r.1, r.2.cohDone w (memLines a n))
/-- A read at a local address. -/
def State.busRead (s : State) (w : NzWho) (who a n : Nat) : BusRes × State := State.leave w a n (s.readKeep w who a n)

/-- A write at a local address; `wr` is its writer as registers know it, `prod` the producer it would be to a queue (R425). -/
def State.writeKeep (s : State) (w : NzWho) (wr : Writer) (who prod a : Nat) (bs : List Byte) : BusRes × State :=
  if inRegs a then s.regAccWrite wr a bs
  else match queuePage a with
  | some (q, o) => if !(s.domOn (76 + dieOf q)) then (.fail 3, s) else (.done, s.queueWrite q o prod bs)
  | none =>
    match accWindow a with
    | some (c, _) =>
      if !(s.coreOn c) then (.fail 3, s)
      else
        let r := (s.portConflicts c).accWrite c a bs
        (if r.1 = 0 then .done else .fail r.1, r.2)
    | none =>
      let l := piecesOf a bs.length
      let x := s.anyWaits w l true
      if x.1 then (.wait, x.2)
      else
        let r := x.2.wordsWrite who l bs
        (if r.1 = 0 then .done else .fail r.1, r.2)
/-- A write at a local address. -/
def State.busWrite (s : State) (w : NzWho) (wr : Writer) (who prod a : Nat) (bs : List Byte) : BusRes × State :=
  State.leave w a bs.length (s.writeKeep w wr who prod a bs)

/-- What a failed write leaves (R313, R476): of its bytes nothing, of what it counted and reported all. -/
def State.undone (s t : State) (a : Nat) : State :=
  if inRegs a then { s with regs := (s.regs.put regReset rMapcnt0 (t.reg rMapcnt0)).put regReset rMapcnt1 (t.reg rMapcnt1) }
  else { t with mem := s.mem, cores := s.cores, ecc := s.ecc }

/-- What goes on after memory, a queue or a path has changed for others: weight loads, collectives and a resync. -/
def State.goOn (s : State) : State := s.wlPump.collAll.pairPump.settleAll

/-! ### Commands of other cores, of basecamp's ports and of the board -/

/-- Is a companion access admitted (R502)? In RECOVERY only one to the BOOT_ page is (R529). -/
def State.compMay (s : State) (h : Half) (a n : Nat) (write : Bool) : Bool :=
  if s.boot.st = 4 then decide (pageBase 15 ≤ a) && decide (a + n ≤ pageBase 16) else (s.winFor h a n write).isSome

/-- Does an address lie in a region of Table 25-2 that holds memory or queues? -/
def remoteRegion (a : Nat) : Bool :=
  (pantryOf a).isSome || (accWindow a).isSome || (queuePage a).isSome || inHbm a || inLp a

/-- May another device access n bytes at a local address? -/
def State.remoteMay (s : State) (dev : BitVec 16) (a n : Nat) : Bool :=
  (remoteRegion a && remoteRegion (a + n - 1))
    || (a / 8 == rPairGen / 8 && (a + n - 1) / 8 == rPairGen / 8 && s.paired && s.twinId == dev)

/-- May a requester access a pantry or an accumulator store? The companion needs a window (R15, R502), JTAG an open debug session. -/
def State.accessMay (s : State) (w : Writer) (a n : Nat) (write : Bool) : Bool :=
  match w with
  | .remote dev => s.remoteMay dev a n
  | .companion => (List.finRange 2).any (fun h => s.compMay h a n write)
  | .jtag => s.sec.debug
  | .image => false
  | .program _ | .mesh _ | .smbus => true

/-- The producer that a writer is to a queue (R425); basecamp's own port carries what comes by it. -/
def writerProd (w : Writer) (q : Nat) : Nat :=
  match w with
  | .program c | .mesh c => coreProd c
  | .companion => halfProd (dieOf q)
  | .remote _ | .smbus | .jtag | .image => campProd q

/-- An access as it stands, where its requester may make it. -/
def State.access (s : State) (x : Access) : State :=
  let a := localOf x.addr.toNat
  match x.data with
  | some d => if s.accessMay x.who a d.length true then (s.busWrite (.camp 2) x.who 15 (writerProd x.who 0) a d).2 else s
  | none => if s.accessMay x.who a x.len false then (s.busRead (.camp 2) 15 a x.len).2 else s

/-- ACC_WINDOW_ACCESS (R152, R153, R156 to R158). -/
def execAccWindowAccess (who : Writer) (addr : W64) (op : AccessOp) (s : State) : Host.Outcome State Fault Refusal := s.live <|
  .next (if s.isLocal addr && (accWindow (localOf addr.toNat)).isSome then s.access (op.access who addr) else s)

/-- MESH_PANTRY_ACCESS (R258, R276, R277). -/
def execMeshPantryAccess (a : Access) (ecc : Ecc) (s : State) : Host.Outcome State Fault Refusal := s.live <|
  .next (if s.isLocal a.addr && (pantryOf (localOf a.addr.toNat)).isSome then (s.strike (localOf a.addr.toNat) ecc).access a else s)

/-! ### Access from another device (R641, R642, R476) -/

/-- A remote access that is refused. -/
def State.remoteDeny (s : State) : State := s.bumpHi rMapcnt1 1

/-- A packet is taken off the list of those that wait here. -/
def State.takePkt (s : State) (p : Pkt) : State :=
  ({ s with bv := { s.bv with arrived := s.bv.arrived.erase p } }).cohLeave (fun w => w == NzWho.pkt p.src p.txid)

/-- A flag set by another device's FSIGR (R335), in a packet of the model's own layout: the address of the core's SEQ_FLAGSET or
SEQ_FLAGCLR, a mask and, for a start request, its step address. None where the packet is no such message; false where the
core has no power. -/
def State.flagPkt (s : State) (p : Pkt) : Option (Bool × State) :=
  let a := localOf (natOf (p.body.take 8))
  let m : W64 := BitVec.ofNat 64 (natOf ((p.body.drop 8).take 8))
  if p.ptype ≠ 7 ∨ !(p.body.length = 16 ∨ p.body.length = 20) then none
  else
    ((List.finRange 48).find? (fun c => a == rSeqCtl c + 0x30 || a == rSeqCtl c + 0x38)).map (fun c =>
      if s.coreOn c then
        let s := s.onSeq c (fun q => { q with f := if a == rSeqCtl c + 0x30 then q.f ||| m else q.f &&& ~~~m })
        (true, if p.body.length = 20 then s.requestStart c 2 ⟨natOf (p.body.drop 16) % 2 ^ 20, 0, none⟩ else s)
      else (false, s))

/-- The producer that a packet's writes are to a queue: the receiver of its link (R425). -/
def State.pktProd (s : State) (p : Pkt) (q : Nat) : Nat := match s.viaLink p with
  | some l => linkProd l
  | none => campProd q
/-- The queue that best-effort messages of a link go to (Table 15-2). -/
def linkQueue (l : Nat) : Nat := if l < 12 then 48 + l else 1072 + (l - 12)
/-- A packet's access is done: WACK. -/
def State.wack (s : State) (p : Pkt) : State := s.sendPkt (s.mkPkt p.src 3 p.txid.toNat 3 [0])

/-- A message that is for no core's flags and names no queue goes whole to the queue of its link (R438). -/
def State.pktMessage (s : State) (p : Pkt) : State :=
  match s.viaLink p with
  | none => s
  | some l =>
    let q := linkQueue l
    if s.domOn (76 + dieOf q) then ((s.pushPkt q (linkProd l) p.body (cellsOf p.body.length)).wack p).takePkt p
    else (s.nack p 3 0).takePkt p

/-- PKT_WRITE, for WRITE and QMSG packets: the address in the first 8 B of the body, then the bytes. -/
def execPktWrite (p : Pkt) (s : State) : Host.Outcome State Fault Refusal := s.live <|
  if p.dest ≠ s.devId ∨ !(p.ptype = 0 ∨ p.ptype = 7) then .next s
  else if s.staleDenies p then .next (((s.takePkt p).nack p 3 0).countDeny)
  else match s.flagPkt p with
  | some (true, s) => .next ((s.takePkt p).wack p)
  | some (false, s) => .next ((s.takePkt p).nack p 3 0)
  | none =>
    let a := localOf (natOf (p.body.take 8))
    if p.ptype = 7 ∧ (p.body.length < 9 ∨ (queuePage a).isNone) then .next (s.pktMessage p)
    else if p.body.length < 9 then .next s
    else if !(s.remoteMay p.src a (p.body.length - 8)) then .next (((s.takePkt p).nack p 3 0).remoteDeny)
    else
      let r := s.writeKeep (.pkt p.src p.txid) (.remote p.src) 15 (s.pktProd p (((queuePage a).map (·.1)).getD 0)) a (p.body.drop 8)
      .next (match r.1 with
        | .wait => r.2
        | .fail e => ((((s.undone r.2 a).takePkt p).nack p e 0)).goOn
        | _ => ((r.2.takePkt p).wack p).goOn)

/-- PKT_READ: address and length in the body. No RDATA could carry nothing, or more than 4,096 B (R472). -/
def execPktRead (p : Pkt) (s : State) : Host.Outcome State Fault Refusal := s.live <|
  if p.dest ≠ s.devId ∨ p.ptype ≠ 1 ∨ p.body.length ≠ 10 then .next s
  else if s.staleDenies p then .next (((s.takePkt p).nack p 3 0).countDeny)
  else
    let a := localOf (natOf (p.body.take 8))
    let n := natOf (p.body.drop 8)
    if n = 0 ∨ 4096 < n then .next ((s.takePkt p).nack p 3 0)
    else if !(s.remoteMay p.src a n) then .next (((s.takePkt p).nack p 3 0).remoteDeny)
    else
      match s.busRead (.pkt p.src p.txid) 15 a n with
      | (.wait, s) => .next s
      | (.fail r, s) => .next ((s.takePkt p).nack p r 0).goOn
      | (.data bs, s) => .next ((s.takePkt p).sendPkt (s.mkPkt p.src 2 p.txid.toNat 3 bs)).goOn
      | (.done, s) => .next s

/-- PKT_RESPONSE: RDATA, WACK or NACK for an outstanding transaction. -/
def execPktResponse (p : Pkt) (s : State) : Host.Outcome State Fault Refusal := s.live <|
  if p.dest ≠ s.devId then .next s
  else
    let s := s.takePkt p
    let t := p.txid.toNat
    let known := s.bv.txns.any (fun x => x.txid == t && x.dest == p.src)
    match p.ptype.toNat with
    | 2 => .next (if known then
        (s.txnEnd t (if p.body.length ≤ 64 then .data (BitVec.ofNat 512 (natOf p.body)) else .bytes p.body)).goOn else s)
    | 3 => .next (if known then (s.txnEnd t (.data 0)).goOn else s)
    | 8 =>
      let reason := natOf (p.body.take 1)
      let link := natOf ((p.body.drop 1).take 1)
      .next (if known then (s.txnEnd t (.failed reason link)).goOn else s)
    | _ => .next s

/-! ### REGISTER_WRITE -/

/-- May a writer reach a register at all? Another device reaches PAIR_GEN only (R641); the companion needs a window (R502);
JTAG needs an open debug session or the SEC_ page (R542); the image is applied by boot alone. -/
def State.writerMay (s : State) (w : Writer) (a n : Nat) : Bool :=
  match w with
  | .remote dev => s.remoteMay dev a n
  | .companion => (List.finRange 2).any (fun h => s.compMay h a n true)
  | .jtag => s.sec.debug || decide (pageBase 17 ≤ a) && decide (a < pageBase 18)
  | .image => false
  | .program _ | .mesh _ | .smbus => true

/-- REGISTER_WRITE (R644). -/
def execRegisterWrite (who : Writer) (addr : W64) (data : List Byte) (s : State) : Host.Outcome State Fault Refusal := s.live <|
  let a := localOf addr.toNat
  if !(s.isLocal addr) || !(inRegs a) then .next s
  else if s.writerMay who a data.length then .next (s.regPut who a data).2
  else match who with
    | .remote _ => .next s.remoteDeny
    | _ => .next s

end Sys2Proof.Machine
end

