-- ==== Sys2Proof/Machine/ExecBelay.lean ====
section
/-! DEFINITION. The events of the belay chain (spec/06_accumulation_belay.md). -/
namespace Sys2Proof.Machine

/-- BELAY_STAGE_READY: the interlock of R166 holds and the stage runs. -/
def execBelayStageReady (c : Core) (n : Fin 8) (s : State) : Host.Outcome State Fault Refusal := s.live <|
  if s.belayReady c n then
    .next (((s.setBelay c n { s.belay c n with state := 2 }).belayGo c n).settle c)
  else .next s

/-- BELAY_CREDIT_GRANT: a credit of the next stage reaches a sending stage, which sends against it (R167); a credit of the previous stage
means nothing to a stage, and one from any other source is refused (R168). -/
def execBelayCreditGrant (c : Core) (n : Fin 8) (src : BelaySrc) (s : State) : Host.Outcome State Fault Refusal := s.live <|
  let x := s.belay c n
  if !x.busy then .next s
  else if x.ctl.role != 2 && src == x.ctl.next then
    (if s.mayGrant c x then .next (((s.setBelay c n { x with credits := x.credits + 1 }).belayGo c n).settle c) else .next s)
  else if x.ctl.role != 0 && src == x.ctl.prev then .next s
  else .next ((s.belayRefuseAll c true src x.ctl.tag).settleAll)

/-- BELAY_ROW_RECEIVE: a row reaches a stage. A row of a stage of this device must be the next on its way; a row of another device
comes from its link. A FIRST stage names no previous stage and refuses every row (R168). -/
def execBelayRowReceive (c : Core) (n : Fin 8) (src : BelaySrc) (row : BelayRow) (s : State) :
    Host.Outcome State Fault Refusal := s.live <|
  let x := s.belay c n
  let b := x.ctl
  if !x.busy || row.tag != b.tag then .next s
  else if b.role = 0 ∨ src ≠ b.prev then .next (((s.takeRow c b src).belayRefuseAll c false src row.tag).settleAll)
  else if x.state ≠ 2 ∨ 2 ≤ x.bufs.length ∨ row.row.length ≠ 64 ∨ b.rows ≤ x.recvd then .next s
  else if src.kind = 2 ∨ s.onWire c b src row then
    .next ((((s.takeRow c b src).belayTake c n row).belayGo c n).settle c)
  else .next s

/-- BELAY_TIMEOUT: neither sent nor received a row for SLOT_WATCHDOG pitches (R169). -/
def execBelayTimeout (c : Core) (n : Fin 8) (s : State) : Host.Outcome State Fault Refusal := s.live <|
  let x := s.belay c n
  if x.busy && watchdogPast (s.slotWd c) x.since s.tb.starts then .next ((s.belayFail c n 1 0).settle c) else .next s

end Sys2Proof.Machine
end

