-- ==== Sys2Proof/Machine/ExecNz.lean ====
section
/-! DEFINITION. Commands of the Nimzen link (spec/18_nimzen_link.md R493 to R517): what the companion sends, and what a half
sends of its own. A message is one command; a half that is not UP or DEGRADED takes none. -/
namespace Sys2Proof.Machine

/-- Run a command of a half that is UP or DEGRADED. -/
def State.nzUp (s : State) (h : Half) (f : State → State) : State := if (s.half h).up then f s else s

/-! ### Uncached access (R495, R502, R503, R515) -/

/-- Answer a request from what its access came to; a wait leaves the message where it is. -/
def State.nzAnswer (h : Half) (op txid : Nat) (r : BusRes × State) : State :=
  match r.1 with
  | .data bs => (r.2.nzTaken h op txid).nzData h txid 2 bs
  | .done => (r.2.nzTaken h op txid).nzCmp h txid
  | .fail e => (r.2.nzTaken h op txid).nzNack h txid e
  | .wait => r.2

/-- A read of a pop range that finds no packet: NACK 5 at once with POP_WAIT 0, else the read waits, as it does for later cells of a
packet that it has begun (R433, R515). -/
def State.popWait (s : State) (h : Half) (op txid q n : Nat) : State :=
  let s := s.nzTaken h op txid
  if s.rf rNzCfg 27 16 = 0 ∧ !((s.queue q).pkts.head?.any (·.begun)) then s.nzNack h txid 5
  else s.onHalf h (fun x => { x with pops := x.pops.filter (fun p => p.txid != txid) ++ [⟨txid, q, n, s.tb.time.toNat⟩] })

/-- An uncached read of n bytes. -/
def State.nzRead (s : State) (h : Half) (op txid a n : Nat) : State :=
  let r := s.busRead (.nc h txid) 15 a n
  match r.1, queuePage a with
  | .wait, some (q, _) => r.2.popWait h op txid q n
  | _, _ => State.nzAnswer h op txid r

/-- RD_NC. -/
def execRdNc (h : Half) (txid : BitVec 10) (addr : BitVec 48) (lines : Nat) (s : State) : Host.Outcome State Fault Refusal := s.live <|
  let a := addr.toNat / 64 * 64
  let t := txid.toNat
  .next (s.nzUp h (fun s =>
    if lines = 0 ∨ 64 < lines then ((s.nzTaken h 3 t).nzBad h).nzNack h t 7
    else if !(s.compMay h a (64 * lines) false) then (s.nzTaken h 3 t).nzDeny h t
    else s.nzRead h 3 t a (64 * lines)))

/-- A companion write of bytes at a local address. -/
def State.nzWrite (s : State) (h : Half) (txid a : Nat) (bs : List Byte) : BusRes × State :=
  s.busWrite (.nc h txid) .companion 15 (halfProd h.val) a bs

/-- WR_NC. -/
def execWrNc (h : Half) (txid : BitVec 10) (addr : BitVec 48) (data : List Byte) (s : State) : Host.Outcome State Fault Refusal := s.live <|
  let a := addr.toNat / 64 * 64
  let t := txid.toNat
  .next (s.nzUp h (fun s =>
    if data.length = 0 ∨ data.length % 64 ≠ 0 ∨ 4096 < data.length then ((s.nzTaken h 4 t).nzBad h).nzNack h t 7
    else if !(s.compMay h a data.length true) then (s.nzTaken h 4 t).nzDeny h t
    else State.nzAnswer h 4 t (s.nzWrite h t a data)))

/-- The runs of bytes that a mask selects in a line, as offset and bytes. -/
def maskRuns (mask : W64) (data : List Byte) : List (Nat × List Byte) :=
  let marked := (List.range 64).map (fun i => (i, bitOf mask i, nth 0 i data))
  (marked.foldl (fun (r : List (Nat × List Byte) × Bool) x =>
    if !x.2.1 then (r.1, false)
    else match r.2, r.1 with
      | true, (o, bs) :: rest => ((o, bs ++ [x.2.2]) :: rest, true)
      | _, l => ((x.1, [x.2.2]) :: l, true)) ([], false)).1.reverse

/-- The runs are written one after the other: the first failure, or that a register waits. -/
def State.nzRuns (s : State) (h : Half) (txid a : Nat) : List (Nat × List Byte) → BusRes × State
  | [] => (.done, s)
  | (o, bs) :: l =>
    let r := s.nzWrite h txid (a + o) bs
    (match r.1 with
     | .wait => r
     | .fail e => (.fail e, (r.2.nzRuns h txid a l).2)
     | _ => r.2.nzRuns h txid a l)

/-- The selected bytes of a line over what stands there. -/
def maskOver (mask : W64) (data old : List Byte) : List Byte := (List.range 64).map (fun i => if bitOf mask i then nth 0 i data else nth 0 i old)

/-- One masked access to a word of a pantry or of memory: it is read, checked and merged once (R258, R399, R400). -/
def State.nzMerge (s : State) (h : Half) (txid a : Nat) (data : List Byte) (mask : W64) : BusRes × State :=
  let w := s.anyWaits (.nc h txid) [(a, 64)] true
  if w.1 then (.wait, w.2)
  else
    let r := if mask = BitVec.allOnes 64 then (.ok data, w.2) else w.2.wordRead 15 a 64
    State.leave (.nc h txid) a 64 (match r.1 with
      | .error e => (.fail e, r.2)
      | .ok old =>
        let x := r.2.wordWrite 15 a (maskOver mask data old)
        (if x.1 = 0 then .done else .fail x.1, x.2))

/-- WR_PART: one access to a word; to registers and accumulator stores, whose accesses are of 8 and of 4 bytes, each run of selected
bytes is one, and to a queue page they are one packet. -/
def State.nzPart (s : State) (h : Half) (txid a : Nat) (data : List Byte) (mask : W64) : BusRes × State :=
  let runs := maskRuns mask data
  if (queuePage a).isSome then s.nzWrite h txid a (runs.flatMap (·.2))
  else if inRegs a || (accWindow a).isSome then s.nzRuns h txid a runs
  else s.nzMerge h txid a data mask

def execWrPart (h : Half) (txid : BitVec 10) (addr : BitVec 48) (data : List Byte) (mask : W64) (s : State) :
    Host.Outcome State Fault Refusal := s.live <|
  let a := addr.toNat / 64 * 64
  let t := txid.toNat
  .next (s.nzUp h (fun s =>
    if data.length ≠ 64 then ((s.nzTaken h 5 t).nzBad h).nzNack h t 7
    else if !(s.compMay h a 64 true) then (s.nzTaken h 5 t).nzDeny h t
    else State.nzAnswer h 5 t (s.nzPart h t a data mask)))

/-! ### Coherent reads and what the companion gives back (R506 to R509) -/

/-- RD_SHARED and RD_OWN: through the directory in a window with COH, uncached otherwise. -/
def State.nzCoherent (s : State) (h : Half) (op : Nat) (txid : BitVec 10) (addr : BitVec 48) (own : Bool) : State :=
  let a := addr.toNat / 64 * 64
  let t := txid.toNat
  if !(s.compMay h a 64 false) then (s.nzTaken h op t).nzDeny h t
  else
    let coh := match s.winFor h a 64 false with
      | some w => s.winBit w 30 && s.boot.st != 4
      | none => false
    if !coh then s.nzRead h op t a 64
    else if !(s.populated a) then ((s.nzTaken h op t).noPop a).nzNack h t 4
    else if !(s.domOn (s.memDom a)) then (s.nzTaken h op t).nzNack h t 3
    else if !(s.filled a) then (s.nzTaken h op t).keepPlace ⟨.coherent h txid own, a / 64⟩
    else (s.nzTaken h op t).dirRequest h txid own (a / 64)

/-- RD_SHARED. -/
def execRdShared (h : Half) (txid : BitVec 10) (addr : BitVec 48) (s : State) : Host.Outcome State Fault Refusal := s.live <|
  .next (s.nzUp h (fun s => s.nzCoherent h 1 txid addr false))
/-- RD_OWN. -/
def execRdOwn (h : Half) (txid : BitVec 10) (addr : BitVec 48) (s : State) : Host.Outcome State Fault Refusal := s.live <|
  .next (s.nzUp h (fun s => s.nzCoherent h 2 txid addr true))

/-- STALE_WB. -/
def State.staleWb (s : State) (h : Half) : State := s.bumpLo (rNzCnt h.val 2) 1

/-- The outstanding snoop of a half on a line. -/
def State.snoopOf (s : State) (h : Half) (line : Nat) : Option NzSnoop := s.nz.snoops.find? (fun p => p.line == line && p.half == h.val)
/-- An answer to a snoop that has ended is to be discarded (R508, R509). -/
def State.markStale (s : State) (h : Half) (p : Option NzSnoop) : State :=
  { s with nz := { s.nz with stale := s.nz.stale ++ ((p.bind (·.txid)).map (fun t => (h.val, t))).toList } }

/-- WB_DIRTY. -/
def execWbDirty (h : Half) (txid : BitVec 10) (addr : BitVec 48) (data : List Byte) (s : State) : Host.Outcome State Fault Refusal := s.live <|
  let line := addr.toNat / 64
  let t := txid.toNat
  .next (s.nzUp h (fun s =>
    let s := s.nzTaken h 6 t
    if data.length ≠ 64 then (s.nzBad h).nzNack h t 7
    else if (s.snoopOf h line).isSome then ((s.markStale h (s.snoopOf h line)).snoopDone line h (some data)).nzCmp h t |>.goOn
    else if s.dirGet line = 4 + h.val then (((s.wrLocal (64 * line) data).dirSet line 0).nzCmp h t).dirResume line
    else if dirHolds (s.dirGet line) h.val then s.nzCmp h t
    else (s.nzCmp h t).staleWb h))

/-- EVICT. -/
def execEvict (h : Half) (txid : BitVec 10) (addr : BitVec 48) (s : State) : Host.Outcome State Fault Refusal := s.live <|
  let line := addr.toNat / 64
  let t := txid.toNat
  .next (s.nzUp h (fun s =>
    let s := s.nzTaken h 7 t
    if dirHolds (s.dirGet line) h.val then (s.dirSet line (dirDrop (s.dirGet line) h.val)).nzCmp h t
    else (s.nzCmp h t).staleWb h))

/-- SNP_RSP: for a snoop that has been answered or has timed out it is discarded; for none it is a bad message (R497). -/
def execSnpRsp (h : Half) (tag : NzTag) (data : Option (List Byte)) (s : State) : Host.Outcome State Fault Refusal := s.live <|
  let line := tag.addr.toNat / 64
  let t := tag.txid.toNat
  .next (s.nzUp h (fun s =>
    let s := s.nzTaken h 8 t
    if s.nz.stale.contains (h.val, t) then { s with nz := { s.nz with stale := s.nz.stale.erase (h.val, t) } }
    else if s.nz.snoops.any (fun p => p.line == line && p.half == h.val && p.txid == some t) then (s.snoopDone line h data).goOn
    else s.nzBad h))

/-- SNOOP_TIMEOUT (R509): GLOBAL_TIME has passed SNOOP_TO µs since a snoop was sent. -/
def execSnoopTimeout (h : Half) (addr : BitVec 48) (s : State) : Host.Outcome State Fault Refusal := s.live <|
  let line := addr.toNat / 64
  .next (match s.snoopOf h line with
    | some p =>
      if p.txid.isNone then s
      else (match s.reachBy (p.since + 1000 * s.rf rNzCfg 3 8) with
        | some t => ((((t.bumpLo (rNzCnt h.val 1) 1).raise fNzSnoop 14 h.val [h.val, 64 * line]).markStale h (some p)).snoopDone line h none).goOn
        | none => s)
    | none => s)

/-! ### Menus, doorbells and pops (R511 to R515, R530, R532, R533) -/

/-- The menu entry that a request may name. -/
def State.menuEntry (s : State) (h : Half) (e n : Nat) : Option W64 :=
  match s.boot.menu[e]? with
  | none => none
  | some w =>
    let ok := bitOf w (52 + h.val) && (match fld w 0 2 with
      | 1 => decide (fld w 2 6 < 48) && n == 64
      | 2 => decide (n ≤ fld w 39 13)
      | _ => false)
    if ok then some w else none

/-- A packet of the companion for a queue: CMP, or NACK 6 where it is ignored, NACK 3 where the pool is off. -/
def State.nzPush (s : State) (h : Half) (txid q : Nat) (bs : List Byte) : State :=
  if !(s.domOn (76 + dieOf q)) then s.nzNack h txid 3
  else
    let ok := (s.lookFreed q).admits q bs.length
    let s := s.pushPkt q (halfProd h.val) bs (cellsOf bs.length)
    if ok then s.nzCmp h txid else s.nzNack h txid 6

/-- MENU_REQ. -/
def execMenuReq (h : Half) (txid : BitVec 10) (entry : BitVec 16) (data : List Byte) (s : State) : Host.Outcome State Fault Refusal := s.live <|
  let t := txid.toNat
  .next (s.nzUp h (fun s =>
    let s := s.nzTaken h 9 t
    if data.length = 0 ∨ data.length % 64 ≠ 0 ∨ 4096 < data.length then (s.nzBad h).nzNack h t 7
    else if s.boot.st ≠ 3 then s.nzDeny h t
    else if s.pair.st = 1 ∨ s.pair.st = 4 then (s.nzNack h t 3).countDeny
    else match s.menuEntry h entry.toNat data.length with
      | none => s.nzDeny h t
      | some w =>
        if fld w 0 2 = 2 then s.nzPush h t (fld w 28 11) data
        else match coreOf? (fld w 2 6) with
          | none => s.nzDeny h t
          | some c =>
            let n := (s.seq c).starts.length
            let s := s.requestStart c 1 ⟨fld w 8 20, BitVec.ofNat 64 (wordOf data 0), none⟩
            if (s.seq c).starts.length = n then s.nzNack h t 6 else s.nzCmp h t))

/-- DOORBELL. -/
def execDoorbell (h : Half) (txid : BitVec 10) (queue : BitVec 11) (data : List Byte) (s : State) : Host.Outcome State Fault Refusal := s.live <|
  let t := txid.toNat
  let q := queue.toNat
  let lo := if h = 0 then 60 else 1084
  .next (s.nzUp h (fun s =>
    let s := s.nzTaken h 10 t
    if data.length ≠ 64 then (s.nzBad h).nzNack h t 7
    else if s.boot.st ≠ 3 ∨ q < lo ∨ lo + 3 < q then s.nzDeny h t
    else s.nzPush h t q (data.take 8)))

/-- POP_WAIT_EXPIRY: GLOBAL_TIME has passed POP_WAIT µs since the half's oldest read that waits for a packet began: NACK 5, and nothing
is consumed (R515). A read that has begun a packet waits for its cells (R433). -/
def execPopWaitExpiry (h : Half) (s : State) : Host.Outcome State Fault Refusal := s.live <|
  .next (match (s.half h).pops with
    | [] => s
    | p :: rest =>
      if (s.queue p.queue).pkts.head?.any (·.begun) then s
      else match s.reachBy (p.since + 1000 * s.rf rNzCfg 27 16) with
        | some t => (t.onHalf h (fun x => { x with pops := rest })).nzNack h p.txid 5
        | none => s)

/-! ### Answers of the companion and its invalidations (R504, R505, R517) -/

/-- Keep a copy of a line, the least recently used going where the cache is full. -/
def keepLine (line : Nat) (v : BitVec 512) (c : List (Nat × BitVec 512)) : List (Nat × BitVec 512) :=
  ((line, v) :: c.filter (fun e => e.1 != line)).take 16384

/-- A line that a D_RD asked for has come: it serves the read, or is merged into the write that needs it, once all lines that this
write fills in part are there. -/
def State.lineCome (s : State) (h : Half) (r : NzReq) (v : BitVec 512) : State :=
  match r.data with
  | none => s.answerTo r.who (.data v)
  | some d =>
    let held := r.have' ++ [(r.line, v)]
    match r.need with
    | [] => s.putLines h r.who r.addr d held
    | l :: ls => s.askLine h { r with line := l, need := ls, have' := held }

/-- C_DATA. -/
def execCData (h : Half) (txid : BitVec 10) (reason : BitVec 4) (data : List Byte) (s : State) : Host.Outcome State Fault Refusal := s.live <|
  let t := txid.toNat
  .next (s.nzUp h (fun s =>
    let s := s.nzTaken h 11 t
    let x := s.half h
    match x.reqs.find? (fun r => r.txid == t && !r.write) with
    | none => s.nzBad h
    | some r =>
      let v := BitVec.ofNat 512 (natOf data)
      let coh := match s.cmemWin (64 * r.line) 64 with
        | some n => s.winBit n 30
        | none => false
      let keep := if coh && !r.inv && reason == 0 then keepLine r.line v x.cache else x.cache
      let s := s.setHalf h { x with reqs := x.reqs.filter (fun q => q.txid != t), cache := keep }
      ((if reason = 0 then s.lineCome h r v else s.answerTo r.who (.failed 3 0)).sendSnoop h).goOn))

/-- MSG_DROP, reported as NZ_BAD once per half and pitch. -/
def State.msgDrop (s : State) (h : Half) : State :=
  let s := s.bumpHi (rNzCnt h.val 2) 1
  if (s.half h).badRec = some s.tb.pitch then s
  else (s.onHalf h (fun x => { x with badRec := some s.tb.pitch })).raise fNzBad 14 h.val [h.val]

/-- C_CMP. -/
def execCCmp (h : Half) (txid : BitVec 10) (reason : BitVec 4) (s : State) : Host.Outcome State Fault Refusal := s.live <|
  let t := txid.toNat
  .next (s.nzUp h (fun s =>
    let s := s.nzTaken h 12 t
    let x := s.half h
    match x.reqs.find? (fun r => r.txid == t && r.write), x.msgs.find? (fun m => m.txid == t && !m.again) with
    | some r, _ =>
      (((s.setHalf h { x with reqs := x.reqs.filter (fun q => q.txid != t) }).answerTo r.who
        (if reason = 0 then .data 0 else .failed 3 0)).sendSnoop h).goOn
    | none, some _ =>
      if reason = 6 then
        s.setHalf h { x with msgs := x.msgs.map (fun m => if m.txid = t then { m with again := true, since := s.tb.time.toNat } else m) }
      else
        let s := (s.setHalf h { x with msgs := x.msgs.filter (fun m => m.txid != t) }).sendSnoop h
        if reason = 0 then s else s.msgDrop h
    | none, none => s.nzBad h))

/-- C_INV. -/
def execCInv (h : Half) (txid : BitVec 10) (addr : BitVec 48) (s : State) : Host.Outcome State Fault Refusal := s.live <|
  let line := addr.toNat / 64
  let t := txid.toNat
  .next (s.nzUp h (fun s =>
    ((s.nzTaken h 13 t).onHalf h (fun x =>
      { x with cache := x.cache.filter (fun e => e.1 != line)
               reqs := x.reqs.map (fun r => if r.line = line ∧ !r.write then { r with inv := true } else r) })).nzCmp h t))

/-! ### Messages of the device (R516, R517) -/

/-- The messages queue of a half. -/
def msgQueue (h : Half) : Nat := if h = 0 then 1 else 1025

/-- An MSG: its length, LEVEL and queue in ARG. -/
def msgOf (m : NzOut) : NzMsg :=
  ⟨0x17, ceilDiv m.data.length 64, m.txid, m.data.length % 8192 + 8192 * b2n m.level + 16384 * m.queue, m.data⟩

/-- The half that level messages go on. -/
def State.levelHalf (s : State) : Half := if (s.half 0).up then 0 else 1

/-- Send one more message. -/
def State.newMsg (s : State) (h : Half) (q : Nat) (data : List Byte) (level : Bool) : State :=
  let m : NzOut := ⟨s.nzTxid h, q, data, level, false, s.tb.time.toNat⟩
  ((s.useTxid h m.txid).onHalf h (fun x => { x with msgs := x.msgs ++ [m] })).nzSend h (msgOf m)

/-- The next packet of the half's queue, unless one of that queue is to be sent again first. -/
def State.sendQueued (s : State) (h : Half) : State :=
  let q := msgQueue h
  if (s.half h).msgs.any (fun m => m.again && m.queue == q && !m.level) || !(s.domOn (76 + h.val)) then s
  else match s.popPkt q 4096 with
    | (.got bs _ _, s) => if bs.isEmpty then s else s.newMsg h q bs false
    | (_, s) => s

/-- MSG_SEND. -/
def execMsgSend (h : Half) (s : State) : Host.Outcome State Fault Refusal := s.live <|
  .next (s.nzUp h (fun s =>
    let x := s.half h
    if 16 ≤ x.msgs.length ∨ s.nzFull h then s
    else match s.nz.levels with
      | q :: rest =>
        if s.levelHalf = h then ({ s with nz := { s.nz with levels := rest } }).newMsg h q [] true
        else s.sendQueued h
      | [] => s.sendQueued h))

/-- Messages that may be sent again: of each queue the first of those that are to be (R517); `held` are the queues passed over. -/
def resendFirst (held : List Nat) : List NzOut → List NzOut
  | [] => []
  | m :: ms =>
    if m.again && !(held.contains m.queue) then m :: resendFirst (m.queue :: held) ms else resendFirst held ms
/-- When a message may be sent again: 1 µs after it was refused, at once where its half was lost. -/
def NzOut.due (m : NzOut) : Nat := if m.since = 0 then 0 else m.since + 1000
/-- The message that may be sent again first. -/
def resendNext (ms : List NzOut) : Option NzOut :=
  (resendFirst [] ms).foldl (fun b m => match b with
    | some x => if m.due < x.due then some m else some x
    | none => some m) none

/-- MSG_RESEND: the message that may be sent again first goes, once its 1 µs has passed. -/
def execMsgResend (h : Half) (s : State) : Host.Outcome State Fault Refusal := s.live <|
  .next (s.nzUp h (fun s =>
    match resendNext (s.half h).msgs with
    | some m =>
      (match s.reachBy m.due with
       | some s =>
         (s.onHalf h (fun x => { x with msgs := x.msgs.map (fun n => if n.txid = m.txid then { n with again := false } else n) })).nzSend h
           (msgOf m)
       | none => s)
    | none => s))

/-! ### Flits (R493, R494, R497, R498) -/

/-- The range of NSLOT of an opcode of the companion (Table 18-3), and whether it is a request. -/
def nzSlots (op : Nat) : Option (Nat × Nat × Bool) :=
  match op with
  | 1 | 2 | 7 => some (0, 0, true)
  | 3 | 4 | 9 => some (1, 64, true)
  | 5 => some (2, 2, true)
  | 6 | 10 => some (1, 1, true)
  | 8 => some (0, 1, false)
  | 11 => some (1, 64, false)
  | 12 => some (0, 0, false)
  | 13 => some (0, 0, true)
  | _ => none

/-- Bytes of a flit body. -/
def nzBytes (b : BitVec 1888) : List Byte := bytesOf 236 b.toNat

/-- A class 8 mismatch: counted, reported once per half and pitch. -/
def State.nzHeadBad (s : State) (h : Half) : State :=
  let s := s.bumpLo (rFltCnt 1) 1
  if (s.half h).cmpRec = some s.tb.pitch then s
  else (s.onHalf h (fun x => { x with cmpRec := some s.tb.pitch })).raise fComplement 14 h.val [8, 0, h.val]

/-- Data slots a message carries. -/
def NzMsg.carries (m : NzMsg) : Nat := if m.op = 3 then 0 else m.slots

/-- A message with all its slots is handed on; one that R497 discards has no opcode. -/
def State.nzArrive (s : State) (h : Half) (m : NzMsg) : State :=
  if m.op = 0 then s else s.onHalf h (fun x => { x with arrived := x.arrived ++ [m] })

/-- A message-header place (R493, R495, R497). -/
def State.nzPlace (s : State) (h : Half) (bs : List Byte) : State :=
  let hd := bs.take 8
  if hd = padTo 8 [] ∧ bs.drop 8 = complBytes hd then s
  else if bs.drop 8 ≠ complBytes hd then s.nzHeadBad h
  else
    let w := BitVec.ofNat 64 (natOf hd)
    let op := fld w 0 5
    let n := fld w 5 7
    let t := fld w 12 10
    let ok := match nzSlots op with
      | some (lo, hi, _) => decide (lo ≤ n) && decide (n ≤ hi)
      | none => false
    let m : NzMsg := ⟨if ok then op else 0, n, t, fld w 22 42, []⟩
    let s := if ok then s else
      let s := s.nzBad h
      (match nzSlots op with
       | some (_, _, true) => s.nzNack h t 7
       | _ => s)
    if m.carries = 0 ∨ 64 < n then s.nzArrive h m else s.onHalf h (fun x => { x with open_ := x.open_ ++ [m] })

/-- A data slot belongs to the first message that lacks one; with none it is not used. -/
def State.nzSlot (s : State) (h : Half) (d : List Byte) : State :=
  match (s.half h).open_ with
  | [] => s
  | m :: ms =>
    let m := { m with data := m.data ++ d }
    if m.data.length = 64 * m.carries then (s.onHalf h (fun x => { x with open_ := ms })).nzArrive h m
    else s.onHalf h (fun x => { x with open_ := m :: ms })

/-- The content of a flit whose record has verified, from byte 8 on. -/
def State.nzContent (s : State) (h : Half) (bs : List Byte) : State :=
  let s := (s.nzPlace h (bs.take 16)).nzPlace h ((bs.drop 16).take 16)
  ((s.nzSlot h ((bs.drop 32).take 64)).nzSlot h ((bs.drop 96).take 64)).nzSlot h ((bs.drop 160).take 64)

/-- The record being received is discarded to its end and asked for again (R498). -/
def State.nzAgain (s : State) (h : Half) : State :=
  s.onHalf h (fun x => { x with rx := [], lost := true, ctl := if x.ctl.contains [1] then x.ctl else [1] :: x.ctl })

/-- What a CTRL flit of a verified record asks: its last record again, fresh keys of the companion, or of the device (R489, R498). -/
def State.nzCtrl (s : State) (h : Half) (b : List Byte) : State :=
  match (b.headD 0).toNat with
  | 1 => s.nzResend h
  | 2 => s.tick.onHalf h (fun x => x.rekeyRx s.free)
  | 3 => s.nzAskRekey h
  | _ => s

/-- A SEAL closes the record: with a good tag its flits are used, otherwise it is discarded; the fourth failed tag of one record takes the
half DOWN (R498). -/
def State.nzSeal (s : State) (h : Half) (tag : List Byte) : State :=
  let x := s.half h
  let fs := x.rx
  match Config.gcmOpen x.rxKey x.rxRec (fs.flatMap (fun f => (nzBytes f).take 8)) (fs.flatMap (fun f => (nzBytes f).drop 8)) tag with
  | none =>
    if 4 ≤ x.fails + 1 then s.halfGone h
    else ((s.setHalf h { x with fails := x.fails + 1 }).nzAgain h).onHalf h (fun x => { x with lost := false })
  | some plain =>
    let s := s.setHalf h { x with rx := [], fails := 0, rxRec := x.rxRec + 1 }
    let body (i : Nat) : List Byte := padTo 228 ((plain.drop (228 * i)).take 228)
    let s := fs.zipIdx.foldl (fun s p => if fld p.1 0 2 = 1 then s.nzContent h (body p.2) else s) s
    fs.zipIdx.foldl (fun s p => if fld p.1 0 2 = 3 then s.nzUp h (fun s => s.nzCtrl h (body p.2)) else s) s

/-- NZ_FLIT_RECEIVE: a flit joins its record; a SEAL closes it. -/
def execNzFlitReceive (h : Half) (body : BitVec 1888) (s : State) : Host.Outcome State Fault Refusal := s.live <|
  .next (s.nzUp h (fun s =>
    let x := s.half h
    let bs := nzBytes body
    if (bs.drop 4).take 4 ≠ complBytes (bs.take 4) then (s.bumpLo (rFltCnt 1) 1).nzAgain h
    else match fld body 0 2 with
      | 0 => s
      | 2 => if x.lost then s.setHalf h { x with rx := [], lost := false } else s.nzSeal h ((bs.drop 8).take 16)
      | _ => if x.lost then s else if 64 ≤ x.rx.length then s.nzAgain h else s.setHalf h { x with rx := x.rx ++ [body] }))

end Sys2Proof.Machine
end

