-- ==== Sys2Proof/Machine/StreamCheck.lean ====
section
/-! DEFINITION. Loading, checking and admitting a stream (spec/10_stream_engines.md R280, R281, R302, R311, Table 10-6;
spec/09_pantry_and_layouts.md R264, R267, R271 to R274; R334). -/
namespace Sys2Proof.Machine

/-! ### Loading (R280) -/

/-- Program word i of the program at a full address. -/
def State.progWord (s : State) (prog : W64) (i : Nat) : W64 :=
  BitVec.ofNat 64 (slot (s.unitWord (prog.toNat + 8 * i)) 64 (i % 8))

/-- The program up to and including its first END, of at most 64 words; whether there is one. -/
def progCut : List W64 → List W64 × Bool
  | [] => ([], false)
  | w :: ws => if Sw.op w = swEnd then ([w], true) else
    let r := progCut ws
    (w :: r.1, r.2)
/-- The program at an address. -/
def State.loadProg (s : State) (prog : W64) : List W64 × Bool := progCut ((List.range 64).map (s.progWord prog))

/-! ### Table 10-6 -/

/-- A word with a reserved opcode, operand, mode or level (code 1). -/
def swBad1 (w : W64) : Bool :=
  match Sw.op w with
  | 0 | 6 | 7 | 8 | 0x0A | 0x0B | 0x0C | 0x0D => false
  | 1 => decide (5 < Sw.opnd w)
  | 2 => decide (1 < Sw.opnd w)
  | 3 => decide (5 < Sw.opnd w)
  | 4 => decide (1 < Sw.opnd w) || decide (5 < fld w 52 3)
  | 5 => fld w 55 2 == 3 || decide (5 < fld w 52 3)
  | 9 => [fld w 39 3, fld w 36 3, fld w 33 3, fld w 30 3].any (fun l => decide (5 < l))
  | _ => true

/-- A GO word with the fields in force there. -/
def goes (j : StrJob) : StrFields → List W64 → List (W64 × StrFields)
  | _, [] => []
  | f, w :: ws => if Sw.op w = swGo then (w, f) :: goes j f ws else goes j (f.apply j w) ws

/-- NLEV of a GO. -/
def goLev (w : W64) : Nat := fld w 55 3
/-- WIN of a GO. -/
def goWin (w : W64) : Bool := bitOf w 54

/-- Does the full address lie in a pantry window of this device? -/
def State.inPantry (s : State) (a : Nat) : Bool := a / 2 ^ 48 == s.devId.toNat && (pantryOf (localOf a)).isSome

/-- A SWIZZLED or BLOCKED operand outside a pantry (R285). -/
def State.strOutside (s : State) (o : StrOp) : Bool := !o.tiled && (o.layout == 1 || o.layout == 2) && !(s.inPantry o.addr.toNat)

/-- A SCATTER_ADD that breaks R299. -/
def State.addBad (s : State) (c : Core) (f : StrFields) : Bool :=
  f.idxOn && f.mode == 2 && (!(s.inOwnPantry c f.dst.addr.toNat 64) || !([0, 1, 10].contains f.dst.ety) || f.src.ety != f.dst.ety || f.src.xin)

/-- TILED with what code 8 names. -/
def tiledBad (w : W64) (f : StrFields) : Bool :=
  (f.src.tiled || f.dst.tiled) && (decide (64 < nth 1 0 f.counts) || f.src.xin || goWin w || f.idxOn)

/-- Is there a CRED word after the first GO? -/
def credLate (ws : List W64) : Bool := (ws.dropWhile (fun w => Sw.op w != swGo)).any (fun w => Sw.op w == swCred)

/-- The STR_BAD reason code of a program (Table 10-6), the lowest that applies. -/
def State.strBad (s : State) (c : Core) (j : StrJob) (ws : List W64) (ended : Bool) : Option Nat :=
  let gs := goes j .zero ws
  let cred := ws.filter (fun w => Sw.op w == swCred)
  let f := fieldsAfter j ws
  let last := ws.getLast?.getD 0
  let wins := ws.any (fun w => Sw.op w == 8) && ws.any (fun w => Sw.op w == 9)
  if ws.any swBad1 then some 1
  else if !ended then some 2
  else if gs.any (fun g => goLev g.1 == 0 || goLev g.1 == 7 || (goWin g.1 && !(wins && g.2.wina.isSome && g.2.winb.isSome))) then some 3
  else if gs.any (fun g => s.strOutside g.2.src || s.strOutside g.2.dst || (g.2.idxOn && decide (goLev g.1 ≤ g.2.idxLev))) then some 4
  else if cred.any (fun w => fld w 0 8 == 0 || decide (128 < fld w 0 8)) || credLate ws then some 5
  else if bitOf last 7 && (f.record.toNat % 64 != 0 || !(s.inOwnPantry c f.record.toNat 64)) then some 6
  else if gs.any (fun g => s.addBad c g.2) then some 7
  else if gs.any (fun g => tiledBad g.1 g.2) then some 8
  else none

/-- The PAN_BAD reason of one operand of a GO (R264, Table 9-5), its header array included (R263). The rows of a SWIZZLED operand are
counted over all loop levels (R284), so it has two dimensions whatever NLEV is. -/
def State.strPan (s : State) (o : StrOp) (t : EType) (turn : Bool) : Option Nat :=
  let pan := s.inPantry o.addr.toNat
  firstCode [
    (1, (pan && (o.addr.toNat % 64 != 0 || (!o.tiled && o.layout == 0 && decide (o.pitch < o.rw))))
      || (o.tiled && s.inPantry o.hdr.toNat && o.hdr.toNat % 64 != 0)),
    (2, pan && !o.tiled && o.layout == 1 && ((o.addr.toNat / 64) % 64 != 0 || o.pitch % 64 != 0)),
    (3, !o.tiled && o.layout == 2 && t.scaled),
    (4, turn && turnType t),
    (5, o.layout == 3)]

/-- The lower of two reasons. -/
def lower : Option Nat → Option Nat → Option Nat
  | some a, some b => some (min a b)
  | some a, none => some a
  | none, b => b

/-- What the check phase finds: nothing, a reserved type, or a PAN_BAD reason. -/
inductive StrCheck | ok | bad (code : Nat) | badType | pan (reason : Nat) | overlap (src dst : Nat)
deriving DecidableEq, Repr

/-- A DESC word that presents a reserved type (R23). -/
def descBad (w : W64) : Bool := Sw.op w == 2 && (EType.ofField (fld w 50 5)).isNone

/-- The check of a program. -/
def State.strCheck (s : State) (c : Core) (j : StrJob) (ws : List W64) (ended : Bool) : StrCheck :=
  match s.strBad c j ws ended with
  | some k => .bad k
  | none =>
    let gs := goes j .zero ws
    if ws.any descBad then .badType
    else
      let pan := gs.foldl (fun r g =>
        let ix := if g.2.idxOn && s.inPantry g.2.idx.toNat && g.2.idx.toNat % 64 != 0 then some 1 else none
        lower r (lower ix (lower (s.strPan g.2.src ((EType.ofField g.2.src.ety).getD tF32) g.2.src.xin)
          (s.strPan g.2.dst ((EType.ofField g.2.dst.ety).getD tF32) false)))) none
      match pan with
      | some k => .pan k
      | none => .ok

/-! ### Copies (R271 to R274, R281, R334) -/

/-- The memory an address lies in, as a number: the device and a pantry, an accumulator store, HBM, LPDDR or another
region. -/
def memOf (a : Nat) : Nat × Nat :=
  let l := localOf a
  (a / 2 ^ 48, if l < 48 * 0x1000000 then l / 0x1000000 else if l < 0x40000000 then 300
    else if l / 0x200000 < 0x230 then l / 0x200000 else if inHbm l then 301 else if inLp l then 302 else 303)

/-- Words lo to hi from a base as a span of word addresses: words of a pantry that pass its end wrap to its start (R265). -/
def spanFrom (a lo hi : Nat) : Nat × Nat :=
  if localOf a < 48 * 0x1000000 ∧ 262144 ≤ a % 0x1000000 / 64 + hi then
    (a / 0x1000000 * 262144, a / 0x1000000 * 262144 + 262143)
  else (a / 64 + lo, a / 64 + hi)

/-- The lowest and the highest word that an untiled descriptor reaches, from its base. -/
def D.reach (d : Desc) (t : EType) : Nat × Nat :=
  let rw := rowWords t (D.cols d)
  match D.layout d with
  | 2 => (0, 64 * (ceilDiv rw 2 * ceilDiv (D.rows d) 32) - 1)
  | 1 =>
    let tops := (List.range (D.rows d)).flatMap (fun r => (List.range rw).map (fun w => layoutWord 1 (D.pitch d) rw r w))
    (tops.foldl min (tops.head?.getD 0), tops.foldl max 0)
  | _ => (0, (D.rows d - 1) * D.pitch d + rw - 1)

/-- The types of a TILED source's tiles, as its headers have them (R340): of one that is EMPTY, refused or of another device the widest. -/
def State.copyTypes (s : State) (d : Desc) : List EType :=
  (List.range (D.tileRows d * D.tileCols d)).map (fun k =>
    let a := D.hdrp d + 64 * k
    if a / 2 ^ 48 = s.devId.toNat then
      (match judgeHdr (s.wordAt (localOf a)) with
       | .ok h => h.ty.getD tF32
       | _ => tF32)
    else tF32)

/-- The spans of a descriptor's words as word addresses, one for each memory it lies in (R271). A TILED descriptor reaches its header
array and the payload area from BASE, of the DENSE size for each tile in its type (DEDUCED from Table 11-14 and R291); `ts` are the types
of its tiles. -/
def D.spans (d : Desc) (ts : List EType) : List ((Nat × Nat) × Nat × Nat) :=
  if D.tiled d then
    let n := D.tileRows d * D.tileCols d
    let h := spanFrom (D.hdrp d) 0 (n - 1)
    let p := spanFrom (D.base d) 0 ((ts.map denseWords).sum - 1)
    if memOf (D.hdrp d) == memOf (D.base d) then [(memOf (D.base d), min h.1 p.1, max h.2 p.2)]
    else [(memOf (D.hdrp d), h), (memOf (D.base d), p)]
  else
    let r := D.reach d (ts.headD tF32)
    [(memOf (D.base d), spanFrom (D.base d) r.1 r.2)]

/-- Do two descriptors' spans meet? -/
def D.meets (a b : Desc) (ta tb : List EType) : Bool :=
  (D.spans a ta).any (fun p => (D.spans b tb).any (fun q =>
    p.1 == q.1 && decide (p.2.1 ≤ q.2.2) && decide (q.2.1 ≤ p.2.2)))

/-- Does a copy's overlap forbid it (R271 to R274)? `ts` and `td` are the types of its operands' tiles, one each where it is untiled. -/
def CopyJob.overlapBad (k : CopyJob) (ts td : List EType) : Bool :=
  let same := D.tiled k.src == D.tiled k.dst && D.layout k.src == D.layout k.dst && D.pitch k.src == D.pitch k.dst
    && ts.all (fun t => td.contains t)
  let side := if (ts.headD tF32).code.width = 8 then 64 else 32
  D.meets k.src k.dst ts td && !(match k.kind with
    | 0 => same
    | 1 => same && D.base k.src == D.base k.dst && D.rows k.src == D.cols k.src && D.rows k.dst == D.cols k.dst
             && D.rows k.src == D.rows k.dst && D.rows k.src % side == 0
    | _ => false)

/-- Axis extents of a PERMUTE, innermost first. -/
def CopyJob.exts' (k : CopyJob) : List Nat := (List.range 4).map (fun i => fld k.exts (16 * i) 16)

/-- The check of a copy. Its types and pantry operands were checked at decode. -/
def State.copyCheck (s : State) (c : Core) (k : CopyJob) : StrCheck :=
  let tys (d : Desc) (l : List EType) : List EType :=
    if D.tiled d then l else [(D.ety d).getD tF32]
  let ts := tys k.src (s.copyTypes k.src)
  let td := tys k.dst (List.replicate (D.tileRows k.dst * D.tileCols k.dst) ((D.ety k.dst).getD tF32))
  let outside (d : Desc) : Bool := !(D.tiled d) && (D.layout d == 1 || D.layout d == 2) && !(s.inPantry (D.base d))
  let tiled := D.tiled k.src || D.tiled k.dst
  if outside k.src || outside k.dst then .bad 4
  else if k.recEn && (k.record.toNat % 64 != 0 || !(s.inOwnPantry c k.record.toNat 64)) then .bad 6
  else if k.kind ≠ 0 ∧ tiled then .bad 8
  else if k.kind = 2 ∧ k.exts'.foldl (· * ·) 1 ≠ D.rows k.src * D.cols k.src then .bad 9
  else if k.overlapBad ts td then .overlap (D.base k.src) (D.base k.dst)
  else .ok

/-! ### Commands -/

/-- The words that stand before the first GO and that the head phase performs. -/
def isHead (w : W64) : Bool := Sw.op w == swWait || Sw.op w == swCred
/-- The place of the first GO. -/
def StrRun.firstGo (r : StrRun) : Nat := (r.words.takeWhile (fun w => Sw.op w != swGo)).length
/-- The next head word at or after a place. -/
def StrRun.nextHead (r : StrRun) (i : Nat) : Option Nat :=
  (rangeFrom i (r.firstGo - i)).find? (fun k => isHead (nth 0 k r.words))
/-- The first word at or after a place that the run phase performs. -/
def StrRun.nextRun (r : StrRun) (i : Nat) : Nat :=
  ((rangeFrom i (r.words.length - i)).find? (fun k => !(decide (k < r.firstGo) && isHead (nth 0 k r.words)))).getD i

/-- A stream whose head words are done joins the admission queue, by age (R302). -/
def State.strEnqueue (s : State) (c : Core) (e : Eng) (r : StrRun) : State :=
  let age (x : Eng) : Nat := match (s.eng c x).cur with
    | some k => k.job.seq
    | none => 0
  let s := s.setRun c e { r with phase := .queued, pc := 0, waitSince := none }
  s.onCore c (fun k =>
    let front := k.admitq.filter (fun x => decide (age x < r.job.seq))
    { k with admitq := front ++ e :: k.admitq.filter (fun x => !(decide (age x < r.job.seq))) })

/-- The head phase goes on from a place. -/
def State.strHead (s : State) (c : Core) (e : Eng) (r : StrRun) (i : Nat) : State :=
  match r.nextHead i with
  | some k => s.setRun c e { r with phase := .head, pc := k, waitSince := none }
  | none => s.strEnqueue c e r

/-- A stream rejected in its check phase (R311, R23, R264, R274). -/
def State.strReject (s : State) (c : Core) (j : StrJob) (k : StrCheck) : State :=
  match k with
  | .ok => s
  | .bad code => (s.bumpLo (rStrCnt c 2) 1).raise fStrBad 6 c.val [code]
  | .badType => s.raise fBadType 6 c.val []
  | .pan reason => s.panReject c reason
  | .overlap a b => (s.bumpLo (rPanCnt c 2) 1).raise fCopyOverlap 5 c.val [j.addr, a, b]

/-- A stream whose program is not delivered (R613) ends FAILED in its load phase: no END is known to name a record or a flag (DESIGN
CHOICE: the spec gives no part to fail). -/
def State.strUnread (s : State) (c : Core) (e : Eng) (j : StrJob) (reason : Nat) : State :=
  (s.setEng c e { s.eng c e with lastStatus := 2 }).raise fStrPart 6 c.val [j.tag, 0, reason]

/-- An engine takes its next stream, loads and checks it. -/
def State.strBegin (s : State) (c : Core) (e : Eng) : State :=
  match (s.eng c e).cur, (s.eng c e).q with
  | none, j :: rest =>
    let s := s.setEng c e { s.eng c e with q := rest, tag := j.tag }
    (match j.copy with
     | some k =>
       (match s.copyCheck c k with
        | .ok => s.strEnqueue c e (.new j [] 8)
        | x => s.strReject c j x)
     | none =>
       let p := s.loadProg j.prog
       let rd := s.readWords (4 + e.val) (wordsAt j.prog.toNat (8 * p.1.length))
       let s := rd.2
       if rd.1 ≠ 0 then s.strUnread c e j rd.1
       else (match s.strCheck c j p.1 p.2 with
        | .ok => s.strHead c e (.new j p.1 8) 0
        | x => s.strReject c j x))
  | _, _ => s

/-- STREAM_BEGIN (R280, R281, R311). -/
def execStreamBegin (c : Core) (e : Eng) (s : State) : Host.Outcome State Fault Refusal := s.live <|
  .next (if (s.core c).getUnit ⟨8 + e.val, by omega⟩ != .disabled && s.coreOn c then (s.strBegin c e).settle c else s)

/-- STREAM_ADMIT (R302): the cycles waited count whether or not the stream is admitted at this event. -/
def execStreamAdmit (c : Core) (e : Eng) (waited : Nat) (s : State) : Host.Outcome State Fault Refusal := s.live <|
  match (s.eng c e).cur with
  | some r =>
    if r.phase = .queued ∧ (s.core c).admitq.head? = some e ∧ s.coreOn c then
      let s := s.bumpHi (rStrCnt c 1) waited
      let r := { r with held := r.held + waited }
      .next (if r.credits ≤ s.freeCredits c then
        ((s.setRun c e { r with phase := .run, pc := r.nextRun 0 }).onCore c (fun k => { k with admitq := k.admitq.tail })).monCore c 4 r.held
        else s.setRun c e r)
    else .next s
  | none => .next s

/-! ### Words that set fields, waits and credits -/

/-- Perform the word at the engine's place if its opcode is `op` and the stream runs. -/
def State.strWord (s : State) (c : Core) (e : Eng) (op : Nat) (f : StrRun → W64 → State) : State :=
  match (s.eng c e).cur with
  | some r => match r.words[r.pc]? with
    | some w => if Sw.op w = op ∧ r.phase = .run ∧ s.coreOn c then f r w else s
    | none => s
  | none => s

/-- The stream after its word is done. -/
def StrRun.step (r : StrRun) : StrRun := { r with pc := r.nextRun (r.pc + 1), waitSince := none }

/-- A word that sets fields (R283). -/
def State.strField (s : State) (c : Core) (e : Eng) (op : Nat) : State :=
  s.strWord c e op (fun r w => s.setRun c e { r with f := r.f.apply r.job w }.step)

def execStreamAddr (c : Core) (e : Eng) (s : State) : Host.Outcome State Fault Refusal := s.live <| .next (s.strField c e 1)
def execStreamDesc (c : Core) (e : Eng) (s : State) : Host.Outcome State Fault Refusal := s.live <| .next (s.strField c e 2)
def execStreamLoop (c : Core) (e : Eng) (s : State) : Host.Outcome State Fault Refusal := s.live <| .next (s.strField c e 3)
def execStreamStride (c : Core) (e : Eng) (s : State) : Host.Outcome State Fault Refusal := s.live <| .next (s.strField c e 4)
def execStreamIdx (c : Core) (e : Eng) (s : State) : Host.Outcome State Fault Refusal := s.live <| .next (s.strField c e 5)
def execStreamFill (c : Core) (e : Eng) (s : State) : Host.Outcome State Fault Refusal := s.live <| .next (s.strField c e 6)
def execStreamCvt (c : Core) (e : Eng) (s : State) : Host.Outcome State Fault Refusal := s.live <| .next (s.strField c e 7)
def execStreamWina (c : Core) (e : Eng) (s : State) : Host.Outcome State Fault Refusal := s.live <| .next (s.strField c e 8)
def execStreamWinb (c : Core) (e : Eng) (s : State) : Host.Outcome State Fault Refusal := s.live <| .next (s.strField c e 9)

/-- The stream that stands at a head word or at a word of the run phase with this opcode. -/
def State.strAt (s : State) (c : Core) (e : Eng) (op : Nat) : Option (StrRun × W64) :=
  match (s.eng c e).cur with
  | some r => match r.words[r.pc]? with
    | some w => if Sw.op w = op ∧ r.phase ≠ .queued ∧ s.coreOn c then some (r, w) else none
    | none => none
  | none => none

/-- A head word or a word of the run phase is done. -/
def State.strNext (s : State) (c : Core) (e : Eng) (r : StrRun) : State :=
  if r.phase = .head then s.strHead c e r (r.pc + 1) else s.setRun c e r.step

/-- STREAM_CRED (R283, R302): a head word. -/
def execStreamCred (c : Core) (e : Eng) (s : State) : Host.Outcome State Fault Refusal := s.live <|
  .next (match s.strAt c e swCred with
    | some (r, w) => if r.phase = .head then s.strNext c e { r with credits := fld w 0 8 } else s
    | none => s)

/-- STREAM_WAIT (R300): it completes when the flag holds the named state; else it waits from this pitch. -/
def execStreamWait (c : Core) (e : Eng) (s : State) : Host.Outcome State Fault Refusal := s.live <|
  .next (match s.strAt c e swWait with
    | some (r, w) =>
      if s.flag c (fld w 0 6) = bitOf w 57 then s.strNext c e r
      else s.setRun c e { r with waitSince := some (r.waitSince.getD s.pitchMark) }
    | none => s)

/-- STREAM_WAIT_TIMEOUT (R301): the stream ends FAILED with reason 8. -/
def execStreamWaitTimeout (c : Core) (e : Eng) (s : State) : Host.Outcome State Fault Refusal := s.live <|
  .next (match s.strAt c e swWait with
    | some (r, w) =>
      (match r.waitSince with
       | some n =>
         if s.flag c (fld w 0 6) ≠ bitOf w 57 ∧ watchdogPast (s.slotWd c) n s.tb.starts then
           ((s.strFinish c e { r with timedOut := true } 2).raise fSlotTimeout 6 c.val [c.val, e.val, fld w 0 6]).settle c
         else s
       | none => s)
    | none => s)

end Sys2Proof.Machine
end

