-- ==== Sys2Proof/Machine/StreamGo.lean ====
section
/-! DEFINITION. What a GO or a copy moves (spec/10_stream_engines.md R284 to R299, R305 to R308): a transfer is worked out on
a copy of the state that gathers the words still to be asked for, the rows to write and the parts; it takes effect once
every word it reads is there. -/
namespace Sys2Proof.Machine

/-! ### Loop nests and addresses (R284, R288, R294) -/

/-- The coordinates of a loop nest in loop order, level 0 first and fastest. -/
def nest : List Nat → List (List Nat)
  | [] => [[]]
  | n :: ns => (nest ns).flatMap (fun t => (List.range n).map (fun i => i :: t))

/-- Coordinates as integers. -/
def ints (cs : List Nat) : List Int := cs.map Int.ofNat

/-- The number of an iteration in loop order. -/
def iterNo : List Int → List Nat → Int
  | i :: is, n :: ns => i + n * iterNo is ns
  | _, _ => 0

/-- The full address of storage word w of the row at some coordinates; `ns` are the counts of the levels. -/
def StrOp.rowWord (o : StrOp) (cs : List Int) (ns : List Nat) (w : Nat) : Nat :=
  if o.layout = 0 then wrapWord o.addr.toNat (((cs.zip o.strides).map (fun p => p.1 * p.2)).sum + (w : Int))
  else wrapWord o.addr.toNat (layoutWord o.layout o.pitch o.rw (iterNo cs ns).toNat w)

/-- The full addresses of a row of n words. -/
def StrOp.row (o : StrOp) (cs : List Int) (ns : List Nat) (n : Nat) : List Nat := (List.range n).map (o.rowWord cs ns)

/-- Data words among n storage words of a row (R262). -/
def dataOf (t : EType) (n : Nat) : Nat := if t.scaled then n - ceilDiv n 17 else n
/-- Elements of a row of n storage words (R286). -/
def rowElems (t : EType) (n : Nat) : Nat := dataOf t n * t.code.perWord

/-- Where a window reads (R288): the pixel, clamped where EDGE is CLAMP, or nothing; and whether it was clamped. -/
def winAt (f : StrFields) (cs : List Int) : Option (Nat × Nat) × Bool :=
  let a := f.wina.getD 0
  let b := f.winb.getD 0
  let lev (lo : Nat) : Int := nth 0 (fld b lo 3) cs
  let h := lev 39 * (fld a 22 4 + 1) + lev 33 * (fld a 14 4 + 1) - fld b 50 8
  let w := lev 36 * (fld a 18 4 + 1) + lev 30 * (fld a 10 4 + 1) - fld b 42 8
  let hx := fld a 42 16
  let wx := fld a 26 16
  let out := h < 0 ∨ (hx : Int) ≤ h ∨ w < 0 ∨ (wx : Int) ≤ w
  if out then
    (if bitOf a 9 then (none, false) else (some ((max 0 (min h (hx - 1))).toNat, (max 0 (min w (wx - 1))).toNat), true))
  else (some (h.toNat, w.toNat), false)

/-- The row of a window's pixel: base plus (h·W + w)·PITCH and the strides of the other levels. -/
def winRow (f : StrFields) (cs : List Int) (p : Nat × Nat) (n : Nat) : List Nat :=
  let b := f.winb.getD 0
  let used := [fld b 39 3, fld b 36 3, fld b 33 3, fld b 30 3]
  let o := f.src
  let q := p.1 * fld (f.wina.getD 0) 26 16 + p.2
  let rest := (((cs.zip o.strides).zip (List.range 6)).map (fun x => if used.contains x.2 then 0 else x.1.1 * x.1.2)).sum
  (List.range n).map (fun w => wrapWord o.addr.toNat ((layoutWord o.layout o.pitch o.rw q w : Int) + rest))

/-! ### The transfer under evaluation -/

/-- A row to write: its part (64 for a row of no part), the words, and masks of the bits to write where not all. -/
structure StrWrite where
  part  : Nat
  addrs : List Nat
  ws    : List Nat
  masks : List Nat
deriving DecidableEq, Repr

/-- A failed read: reason, device and link. -/
structure StrErr where
  reason : Nat
  dev    : Nat
  link   : Nat
deriving DecidableEq, Repr

/-- A read to ask for: the number under which its answer is kept (its address; for a pop of another device's queue one of its own), its
address, bytes and part (64 for one of no part). -/
structure StrAsk where
  key  : Nat
  addr : Nat
  n    : Nat
  part : Nat
deriving DecidableEq, Repr

/-- The evaluation of a transfer: the reads to ask for, the queues of other devices popped, the rows to write, the rows fetched in the
current coalescing window, the index words read, the indices the window has served, the current window and place, the place at which
tiles are written, why the place of the next tile is not known, the words of a strided access so far, read and written (R265), and
whether the GO has ended early or TILE_POL has stopped it. -/
structure Go where
  s      : State
  r      : StrRun
  asks   : List StrAsk
  pops   : List Nat
  writes : List StrWrite
  memo   : List (Nat × Except StrErr (List Nat))
  ixs    : List (Nat × List Byte)
  seen   : List (Int × Nat)
  win    : Nat
  place  : Nat
  lost   : Option StrErr
  strip  : List Nat
  dstrip : List Nat
  halt   : Bool
  stop   : Bool

/-- Fixed during a transfer: the core and the engine. -/
structure GoEnv where
  c   : Core
  e   : Eng

/-- Is the address outside this device's own memory: another device's, or the companion's? -/
def State.farAddr (s : State) (a : Nat) : Bool := a / 2 ^ 48 != s.devId.toNat || decide (2 ^ 47 ≤ localOf a)

/-- The device a failed part names. -/
def State.failDevOf (s : State) (a : Nat) : Nat := if a / 2 ^ 48 = s.devId.toNat then 0 else a / 2 ^ 48

/-- The engine as one who accesses memory. -/
def GoEnv.who (v : GoEnv) : NzWho := .unit v.c (4 + v.e.val)

/-- Read n bytes at an address, their answer kept under a number: the bytes, or why not. What is still to come reads zero and is asked
for. -/
def Go.rdAs (g : Go) (v : GoEnv) (key a n part : Nat) : Except StrErr (List Byte) × Go :=
  let ask : Except StrErr (List Byte) × Go := (.ok (padTo n []), { g with asks := g.asks ++ [⟨key, a, n, part⟩] })
  match findGot key g.r.cache with
  | some (.failed reason link) => (.error ⟨reason, g.s.failDevOf a, link⟩, g)
  | some (.data w) => (.ok (padTo n (bytesOf 64 w.toNat)), g)
  | some (.bytes bs) => (.ok (padTo n bs), g)
  | _ =>
    if g.s.farAddr a then ask
    else match g.s.readKeep v.who (4 + v.e.val) (localOf a) n with
      | (.data bs, s) => (.ok bs, { g with s := s })
      | (.fail k, s) => (.error ⟨k, 0, 0⟩, { g with s := s })
      | (.done, s) => (.ok (padTo n []), { g with s := s })
      | (.wait, _) => ask

/-- Read n bytes at an address. -/
def Go.rd (g : Go) (v : GoEnv) (a n part : Nat) : Except StrErr (List Byte) × Go := g.rdAs v a a n part
/-- A pop of another device's queue: one READ of the row, at most of the 4,096 B that a packet may have (R422, R432). Pops of one queue
are told apart by their number. -/
def Go.popFar (g : Go) (v : GoEnv) (a n part : Nat) : Except StrErr (List Byte) × Go :=
  let r := { g with pops := a :: g.pops }.rdAs v (2 ^ 64 * (1 + g.pops.count a) + a) a (min n 4096) part
  (match r.1 with
   | .ok bs => .ok (padTo n bs)
   | .error x => .error x, r.2)

/-- Is the address in a queue page of a device? -/
def inQueue (a : Nat) : Bool := (queuePage (localOf a)).isSome

/-- Read the words of a row: one access where they come from a queue page (chapter 15), else word by word. -/
def Go.rdWords (g : Go) (v : GoEnv) (part : Nat) : List Nat → Except StrErr (List Nat) × Go
  | [] => (.ok [], g)
  | a :: as =>
    let r := g.rd v a 64 part
    let t := r.2.rdWords v part as
    (match r.1, t.1 with
     | .ok b, .ok l => .ok (natOf b :: l)
     | .error x, _ => .error x
     | _, .error x => .error x, t.2)
def Go.rdRow (g : Go) (v : GoEnv) (part : Nat) (as : List Nat) : Except StrErr (List Nat) × Go :=
  match as with
  | a :: _ =>
    if inQueue a then
      (match (if g.s.farAddr a then g.popFar v a (64 * as.length) part else g.rd v a (64 * as.length) part) with
       | (.ok bs, g) => (.ok ((chunks 64 as.length bs).map natOf), g)
       | (.error x, g) => (.error x, g))
    else g.rdWords v part as
  | [] => (.ok [], g)

/-- Count the slots that reading or writing a row occupies in a pantry (R259): an access is up to 64 consecutive words of one row
(DESIGN CHOICE: R259 leaves open which words one access holds). -/
def Go.countRow (g : Go) (as : List Nat) : Go := { g with s := (chunks 64 (as.length + 1) as).foldl State.countSlots g.s }
/-- The strided accesses so far are done: the words that one-word rows along level 0 read and write (R265). -/
def Go.flush (g : Go) : Go := { (g.countRow g.strip).countRow g.dstrip with strip := [], dstrip := [] }

/-- Count the slots of a transposing read of rows, square by square (R266): a square holds `turnSide` rows and `turnWords` words of
each; what lies past the rows or the words is padded and not read (R289). -/
def Go.countTurn (g : Go) (t : EType) (rows : List (List Nat)) : Go :=
  let tw := turnWords t
  { g with s := (chunks (turnSide t) (rows.length + 1) rows).foldl (fun s ch =>
      (List.range (ceilDiv ((ch.map List.length).foldl max 0) tw)).foldl (fun s q =>
        s.countSlots (ch.flatMap (fun r => (r.drop (q * tw)).take tw))) s) g.s }

/-! ### Parts (R305 to R307) -/

/-- The unit of an address (Table 10-4); none in the issuing core's own pantry or accumulator window. -/
def State.unitOf (s : State) (c : Core) (a : Nat) : Option Nat :=
  let l := localOf a
  if s.inOwnPantry c a 1 || s.inOwnAcc c a then none
  else some (
    if a / 2 ^ 48 ≠ s.devId.toNat then 0x10000 + a / 2 ^ 48
    else match pantryOf l, accWindow l with
    | some (k, _), _ => k.val
    | none, some (k, _) => k.val
    | none, none =>
      if inHbm l then 0x100 + s.hbmPc l else if inLp l then 0x200 + s.lpChan l
      else match queuePage l with
      | some (q, _) => 0x300 + dieOf q
      | none => if 2 ^ 47 ≤ l then 0x400 + s.cmemHalf l else 0x410)

/-- The own pantry as a unit. -/
def ownUnit : Nat := 0x500

/-- The unit a row belongs to, by the addresses of its two ends. -/
def State.rowUnit (s : State) (c : Core) (src dst : Nat) : Nat :=
  match s.unitOf c dst, s.unitOf c src with
  | some d, _ => d
  | none, some u => u
  | none, none => ownUnit

/-- The part of a unit, numbered when first reached (R305). -/
def Go.part (g : Go) (u : Nat) : Nat × Go :=
  let us := g.r.units
  let k := (us.takeWhile (fun x => x != u)).length
  if k < us.length then (k, g)
  else if us.length < 64 then (us.length, { g with r := { g.r with units := us ++ [u] } })
  else (63, { g with r := { g.r with folded := true } })

/-- Is a part performed (R306)? A row of no part (64) is written in every run. -/
def Go.performs (g : Go) (p : Nat) : Bool := p == 64 || bitOf g.r.job.mask p
/-- A row of a part is performed: the part counts as succeeded until it fails. -/
def Go.touch (g : Go) (p : Nat) : Go :=
  if p < 64 ∧ !(bitOf g.r.fail p) then { g with r := { g.r with ok := setFld g.r.ok p 1 1 } } else g
/-- Fail a part. -/
def Go.fail (g : Go) (p : Nat) (x : StrErr) : Go :=
  if p < 64 then { g with r := g.r.failPart p x.reason x.dev x.link } else g
/-- Fail parts. -/
def Go.failAll (g : Go) (ps : List Nat) (x : StrErr) : Go := ps.foldl (fun g p => g.fail p x) g
/-- The parts of units, numbered in order. -/
def Go.partsOf (g : Go) (us : List Nat) : List Nat × Go :=
  us.foldl (fun (acc : List Nat × Go) u => let p := acc.2.part u; (acc.1 ++ [p.1], p.2)) ([], g)
/-- The parts among some that are performed, each once, which count as succeeded until they fail. -/
def Go.running (g : Go) (ps : List Nat) : List Nat × Go :=
  let run := (ps.filter g.performs).eraseDups
  (run, run.foldl Go.touch g)

/-- Add a row to write. -/
def Go.emit (g : Go) (w : StrWrite) : Go := if w.addrs.isEmpty then g else ({ g with writes := g.writes ++ [w] }).countRow w.addrs
/-- Add a row of a loop nest to write: where it is one word and no access of its own, it is part of a strided write. -/
def Go.emitRow (g : Go) (own : Bool) (w : StrWrite) : Go :=
  if w.addrs.length = 1 ∧ !own then { g with writes := g.writes ++ [w], dstrip := g.dstrip ++ w.addrs } else g.emit w

/-! ### Conversion (R286) -/

/-- The words of a row of n elements in the destination type. -/
def Go.convRow (g : Go) (v : GoEnv) (ts td : EType) (sr : Bool) (n : Nat) (ws : List Nat) : List Nat × Go :=
  if ts = td then (ws, g)
  else
    let vals := (List.range n).map (fun j => elemVal ts 0 (runElem (fun w => nth 0 w ws) ts n j))
    let cv := convertRun g.r.job.nc td sr (g.s.gen v.c) vals
    (packRun td cv.elems cv.scales, { g with s := (g.s.setGen v.c cv.gen).countNum v.c cv.cnt })

/-- A row of n elements that all hold the same bits (R295). -/
def fillRow (td : EType) (pat n : Nat) : List Nat :=
  packRun td (List.replicate n (pat % 2 ^ td.code.width)) (List.replicate (ceilDiv n 32) 0x7F)

/-- An element on its way to a destination row: its part, its type, bits and scale byte, and whether its read succeeded. -/
structure Elt where
  part  : Nat
  ty    : EType
  bits  : Nat
  scale : Nat
  come  : Bool
deriving DecidableEq, Repr

/-- The elements of a row in the destination type: bits and scale bytes. Bits move unchanged where the types are equal (R286): in a
scaled form, where a whole block has one scale. Elements of parts that are not performed are neither converted nor counted, and SR
words are taken for the row's groups of 64 that convert an element (R43). -/
def Go.convElts (g : Go) (v : GoEnv) (td : EType) (sr : Bool) (es : List Elt) : List Nat × List Nat × Go :=
  let blocks := chunks 32 (es.length + 1) es
  let kept (b : List Elt) (e : Elt) : Bool :=
    e.ty == td && (!td.scaled || b.all (fun x => x.ty == td && x.scale == ((b.head?.map (·.scale)).getD 127)))
  let vs := blocks.flatMap (fun b => b.map (fun e =>
    let x := elemVal e.ty 0 (e.bits, e.scale)
    (if kept b e || !e.come || !(g.performs e.part) then none else some x, x)))
  let cv := convertKeptRun g.r.job.nc td sr (g.s.gen v.c) vs
  ((es.zip cv.elems).map (fun p => p.2.getD p.1.bits),
    if td.scaled then (blocks.zip cv.scales).map (fun p => p.2.getD ((p.1.head?.map (·.scale)).getD 127)) else [],
    { g with s := (g.s.setGen v.c cv.gen).countNum v.c cv.cnt })

/-- Write a destination row element by element; `word` gives its storage words. A word is written for each performed part that has an
element in it, under a mask where other parts have elements there too, and only where every element of the part in the word, and of
their blocks in a scaled form, has come (R307). Unused positions and reserved scale bytes are written zero (R27, R29). -/
def Go.writeElts (g : Go) (v : GoEnv) (td : EType) (sr : Bool) (word : Nat → Nat) (es : List Elt) : Go :=
  let n := es.length
  let cv := g.convElts v td sr es
  let g := cv.2.2
  let ws := packRun td cv.1 cv.2.1
  let k := if td.scaled then 32 else 1
  let whole := (chunks k (n + 1) es).map (fun b => b.all (·.come))
  let mine (p j : Nat) : Bool := (es[j]?.map (·.part)) == some p
  let ok (j : Nat) : Bool := nth false (j / k) whole
  let isScale (w : Nat) : Bool := td.scaled && w == scaleWord td.code n (w / 17)
  let mask (p w : Nat) (js : List Nat) : Nat :=
    let lo := js.headD 0
    if isScale w then
      packBits 8 ((List.range 64).map (fun b =>
        let bs := js.filter (fun j => (j - lo) / 32 == b)
        if bs.isEmpty || bs.any (mine p) then 0xFF else 0))
    else
      packBits td.code.width ((List.range td.code.perWord).map (fun q =>
        if n ≤ lo + q ∨ mine p (lo + q) then 2 ^ td.code.width - 1 else 0))
  let parts := ((es.map (·.part)).eraseDups).filter g.performs
  parts.foldl (fun (g : Go) p =>
    let sel := (List.range ws.length).filterMap (fun w =>
      let sp := wordSpan td n w
      let js := rangeFrom sp.1 sp.2
      let own := js.filter (mine p)
      if own.isEmpty || own.any (fun j => !(ok j)) then none
      else some (word w, nth 0 w ws, if js.all (mine p) then 2 ^ 512 - 1 else mask p w js))
    (g.touch p).emit ⟨p, sel.map (·.1), sel.map (·.2.1), if sel.all (fun x => x.2.2 == 2 ^ 512 - 1) then [] else sel.map (·.2.2)⟩) g

/-! ### Index streams (R294 to R297) -/

/-- The n-th index; none where its word cannot be read, which ends the GO (R307). -/
def Go.index (g : Go) (v : GoEnv) (f : StrFields) (n : Nat) : Option Int × Go :=
  let k := if f.w64 then 8 else 4
  let a := f.idx.toNat + k * n
  let words := if a / 64 = (a + k - 1) / 64 then [a / 64 * 64] else [a / 64 * 64, a / 64 * 64 + 64]
  let g := words.foldl (fun (g : Go) w =>
    if g.halt || g.ixs.any (fun p => p.1 == w) then g
    else match g.rd v w 64 64 with
      | (.ok bs, g) => { g with ixs := g.ixs ++ [(w, bs)] }
      | (.error x, g) =>
        { g with halt := true, r := { g.r with idxFail := true, reason := x.reason, failDev := x.dev, failLink := x.link, first := some 0
                                               fail := BitVec.ofNat 64 (2 ^ g.r.units.length - 1), ok := 0 } }) g
  if g.halt then (none, g)
  else
    let bytes := (List.range k).map (fun i =>
      let b := a + i
      ((g.ixs.find? (fun p => p.1 == b / 64 * 64)).map (fun p => nth 0 (b % 64) p.2)).getD 0)
    (some (signed (8 * k) (natOf bytes)), g)

/-- Move to the coalescing window of position n (R296). -/
def Go.window (g : Go) (n : Nat) : Go := if n / 64 = g.win then g else { g with win := n / 64, memo := [], seen := [] }

/-- A performed position's index: a repeat within the window counts COALESCED once (R296, R299). -/
def Go.serve (g : Go) (v : GoEnv) (ix : Int) (n : Nat) : Go :=
  if g.seen.any (fun p => p.2 == n) then g
  else if g.seen.any (fun p => p.1 == ix) then { g with s := g.s.bumpLo (rStrCnt v.c 1) 1, seen := (ix, n) :: g.seen }
  else { g with seen := (ix, n) :: g.seen }

/-- Read a source row, once in a window where the GO gathers; `count` is set where the row is an access of its own (R259). -/
def Go.fetch (g : Go) (v : GoEnv) (gather count : Bool) (part : Nat) (as : List Nat) : Except StrErr (List Nat) × Go :=
  let a := as.headD 0
  match if gather then g.memo.find? (fun p => p.1 == a) else none with
  | some p => (p.2, g)
  | none =>
    let r := g.rdRow v part as
    let g := if count then r.2.countRow as else r.2
    (r.1, { g with memo := if gather then (a, r.1) :: g.memo else g.memo })

/-! ### Untiled rows -/

/-- The coordinates and counts of one end, the index in place of its level. -/
def ixCoord (f : StrFields) (mine : Bool) (ix : Option Int) (cs : List Nat) : List Int :=
  let cs := ints cs
  match mine, ix with
  | true, some i => setAt f.idxLev i cs
  | _, _ => cs
def ixCount (f : StrFields) (mine : Bool) (ns : List Nat) : List Nat := if mine then setAt f.idxLev f.extent ns else ns

/-- The position in the index stream of the row at some coordinates (R294). -/
def posOf (f : StrFields) (ns cs : List Nat) : Nat := (iterNo (ints (cs.drop f.idxLev)) (ns.drop f.idxLev)).toNat

/-- Write a row that holds the fill or +0: its part is that of a destination elsewhere, and of none where both its ends would lie in the
own pantry. A fill row is written in every run (R306), a row of +0 as its part is performed. -/
def Go.fillTo (g : Go) (v : GoEnv) (td : EType) (pat n : Nat) (always : Bool) (dst : Nat → List Nat) : Go :=
  let ws := fillRow td pat n
  let as := dst ws.length
  match g.s.unitOf v.c (as.headD 0) with
  | none => g.emitRow false ⟨64, as, ws, []⟩
  | some u =>
    let p := g.part u
    if p.2.performs p.1 then (p.2.touch p.1).emitRow false ⟨p.1, as, ws, []⟩
    else if always then p.2.emitRow false ⟨64, as, ws, []⟩ else p.2

/-- What a source row at some coordinates is: words to read, elements that all hold the fill (R295) or +0 (R288), or a row whose index
could not be read (R307). -/
inductive SrcRow | read (as : List Nat) | fill (pat : Nat) | zero | gone
deriving DecidableEq, Repr

/-- A source row with its index, its position in the index stream and the words that it reads at clamped positions (R268). -/
structure Source where
  row   : SrcRow
  ix    : Option Int
  pos   : Nat
  clamp : Nat
deriving DecidableEq, Repr

/-- Is this the first iteration of a position of the index stream: are the coordinates of the levels below zero? -/
def firstOf (f : StrFields) (cs : List Nat) : Bool := (cs.take f.idxLev).all (fun i => i == 0)
/-- Does an index lie outside EXTENT? -/
def ixOut (f : StrFields) (i : Int) : Bool := decide (i < 0) || decide ((f.extent : Int) ≤ i)

/-- The source row at coordinates cs of a nest (R284, R288, R294, R295). -/
def Go.source (g : Go) (v : GoEnv) (f : StrFields) (win : Bool) (ns cs : List Nat) : Source × Go :=
  let gather := f.idxOn && f.mode == 0
  let pos := posOf f ns cs
  let r := if gather then (g.window pos).index v f pos else (none, g)
  let g := r.2
  if g.halt then (⟨.gone, none, pos, 0⟩, g)
  else if gather && r.1.any (ixOut f) then
    (⟨.fill f.fill.toNat, none, pos, 0⟩,
      if firstOf f cs then { g with s := g.s.bumpLo (rStrCnt v.c 0) 1, r := { g.r with drops := g.r.drops + 1 } } else g)
  else
    let scs := ixCoord f gather r.1 cs
    if win then
      let w := winAt f scs
      (match w.1 with
       | none => (⟨.zero, r.1, pos, 0⟩, g)
       | some p => (⟨.read (winRow f scs p f.src.rw), r.1, pos, if w.2 then f.src.rw else 0⟩, g))
    else (⟨.read (f.src.row scs (ixCount f gather ns) f.src.rw), r.1, pos, 0⟩, g)

/-- The index of the destination row at coordinates cs of a nest: none where the row is not written (R297). -/
def Go.target (g : Go) (v : GoEnv) (f : StrFields) (ns cs : List Nat) : Option (Option Int) × Go :=
  if f.idxOn && f.mode != 0 then
    let pos := posOf f ns cs
    let r := (g.window pos).index v f pos
    match r.1 with
    | none => (none, r.2)
    | some i =>
      if ixOut f i then
        (none, if firstOf f cs then { r.2 with s := r.2.s.bumpHi (rStrCnt v.c 0) 1, r := { r.2.r with drops := r.2.r.drops + 1 } } else r.2)
      else (some (some i), r.2)
  else (some none, g)

/-- Where storage word w of the destination row at coordinates cs lies. -/
def dstWord (f : StrFields) (ix : Option Int) (ns cs : List Nat) (w : Nat) : Nat :=
  let scatter := f.idxOn && f.mode != 0
  f.dst.rowWord (ixCoord f scatter ix cs) (ixCount f scatter ns) w

/-- A performed row that is read: its index is served (R296) and its clamped words are counted (R268). -/
def Go.begins (g : Go) (v : GoEnv) (x : Source) : Go :=
  let g := match x.ix with
    | some i => g.serve v i x.pos
    | none => g
  { g with s := g.s.bumpHi (rPanCnt v.c 0) x.clamp }

/-- A later position names the row at an address and its part is not performed, for it succeeded before: the row keeps what that run
wrote (R298, R308). -/
def Go.yields (g : Go) (a : Nat) : Go := { g with writes := g.writes.filter (fun w => w.addrs.headD 0 != a) }

/-- One iteration of level 0 of a GO with no tiled operand and no XIN: the row at coordinates cs. -/
def Go.row (v : GoEnv) (f : StrFields) (win : Bool) (ns : List Nat) (g : Go) (cs : List Nat) : Go :=
  if g.halt then g else
  let ts := (EType.ofField f.src.ety).getD tF32
  let td := (EType.ofField f.dst.ety).getD tF32
  let n := rowElems ts f.src.rw
  let gather := f.idxOn && f.mode == 0
  let scatter := f.idxOn && f.mode == 1
  let g := if cs.headD 0 = 0 then g.flush else g
  match g.target v f ns cs with
  | (none, g) => g
  | (some ix, g) =>
    let r := g.source v f win ns cs
    let g := r.2
    let dst (k : Nat) : List Nat := (List.range k).map (dstWord f ix ns cs)
    match r.1.row with
    | .gone => g
    | .fill pat => g.fillTo v td pat n true dst
    | .zero => g.fillTo v td 0 n false dst
    | .read src =>
      let u := g.part (g.s.rowUnit v.c (src.headD 0) (dstWord f ix ns cs 0))
      if !(u.2.performs u.1) then (if scatter then u.2.yields (dstWord f ix ns cs 0) else u.2)
      else
        let strided := decide (src.length = 1) && !gather
        let g := ((u.2.touch u.1).begins v r.1)
        match (if strided then { g with strip := g.strip ++ src } else g).fetch v gather (!strided) u.1 src with
        | (.error x, g) => g.fail u.1 x
        | (.ok ws, g) =>
          let k := g.convRow v ts td f.sr n ws
          k.2.emitRow scatter ⟨u.1, dst k.1.length, k.1, []⟩

/-! ### Element by element: XIN, TRANSPOSE and PERMUTE (R289, R334) -/

/-- A destination row: its words and the source row and element that each of its elements takes. -/
structure EltDst where
  word  : Nat → Nat
  elems : List (Nat × Nat)

/-- The part of the elements that a destination row takes of a source row: none for a fill or +0 of a row with both ends in the own
pantry, nor for a fill of a part that is not performed, for fills are written in every run (R306). -/
def Go.eltPart (g : Go) (v : GoEnv) (src : SrcRow) (d : EltDst) : Nat :=
  match g.s.unitOf v.c (d.word 0), src with
  | some u, .fill _ => if g.performs (g.part u).1 then (g.part u).1 else 64
  | some u, _ => (g.part u).1
  | none, .read as => (g.part ((g.s.unitOf v.c (as.headD 0)).getD ownUnit)).1
  | none, _ => 64

/-- Number the parts of such a transfer: of the source rows, in loop order, where a destination lies in the own pantry, then of the
destinations that lie elsewhere. -/
def Go.eltUnits (g : Go) (v : GoEnv) (srcs : List Source) (dsts : List EltDst) : Go :=
  let far := dsts.filter (fun d => (g.s.unitOf v.c (d.word 0)).isSome)
  let us := (if far.length < dsts.length then srcs.filterMap (fun x => match x.row with
      | .read as => some ((g.s.unitOf v.c (as.headD 0)).getD ownUnit)
      | _ => none) else []) ++ far.filterMap (fun d => g.s.unitOf v.c (d.word 0))
  (g.partsOf us).2

/-- Move rows of n elements into destination rows element by element. A part needs every row that its elements come from, and in a
scaled form every row of their blocks. An element of a row that a later position names again, in a part that is not performed, keeps what
an earlier run wrote (part 65: R298, R308). `turns` are the source rows of each transposing read, in order (R266); the other rows are read
row by row. The SR words of a destination row are those of its groups of 64 elements, in row order (DESIGN CHOICE: R43 does not say
how a transposing transfer's conversions fall into groups). -/
def Go.elements (g : Go) (v : GoEnv) (ts td : EType) (sr gather : Bool) (n : Nat) (srcs : List Source) (dsts : List EltDst)
    (turns : List (List Nat)) : Go :=
  let g := g.eltUnits v srcs dsts
  let src (i : Nat) : SrcRow := (srcs[i]?.map (·.row)).getD .gone
  let k := if td.scaled then 32 else 1
  let needs := dsts.flatMap (fun d => (chunks k (d.elems.length + 1) d.elems).map (fun b =>
    (((b.map (·.1)).eraseDups), ((b.map (fun e => g.eltPart v (src e.1) d)).eraseDups).filter g.performs)))
  let users (i : Nat) : List Nat := ((needs.filter (fun p => p.1.contains i)).flatMap (·.2)).eraseDups
  let rows := (srcs.zip (List.range srcs.length)).foldl (fun (acc : List (Option (List Nat)) × Go) p =>
    match p.1.row with
    | .read as =>
      let run := acc.2.running (users p.2)
      if run.1.isEmpty then (acc.1 ++ [none], run.2)
      else
        let f := ((if gather then run.2.window p.1.pos else run.2).begins v p.1).fetch v gather
          (!(turns.any (fun t => t.contains p.2))) (run.1.headD 64) as
        (match f.1 with
         | .ok ws => (acc.1 ++ [some ws], f.2)
         | .error x => (acc.1 ++ [none], f.2.failAll run.1 x))
    | _ => (acc.1 ++ [none], acc.2)) ([], g)
  let g := turns.foldl (fun (g : Go) t => g.countTurn ts (t.filterMap (fun i => match src i with
    | .read as => if (nth none i rows.1).isSome then some as else none
    | _ => none))) rows.2
  let elt (d : EltDst) (e : Nat × Nat) : Elt :=
    let p := g.eltPart v (src e.1) d
    match src e.1 with
    | .fill pat => ⟨p, td, pat % 2 ^ td.code.width, 127, true⟩
    | .zero => ⟨p, td, 0, 127, true⟩
    | .gone => ⟨p, td, 0, 127, false⟩
    | .read _ => match nth none e.1 rows.1 with
      | some ws => let x := runElem (fun w => nth 0 w ws) ts n e.2; ⟨p, ts, x.1, x.2, true⟩
      | none => ⟨p, ts, 0, 127, false⟩
  let later (i j : Nat) (d : EltDst) : Bool := (dsts.drop (i + 1)).any (fun x => x.word 0 == d.word 0 && (x.elems[j]?).any (fun e =>
    !(g.performs (g.eltPart v (src e.1) x))))
  dsts.zipIdx.foldl (fun (g : Go) p => g.writeElts v td sr p.1.word (p.1.elems.zipIdx.map (fun e =>
    let x := elt p.1 e.1
    if later p.2 e.2 p.1 then { x with part := 65 } else x))) g

/-- A GO with XIN (R289): for each coordinate of the other levels, the level-1 rows of the source become the elements of the
destination's level-1 rows. An index or a window on the source is that of the source row; an index on the destination is taken over
the destination's nest, whose level 1 counts the row's elements (DESIGN CHOICE: the spec does not say how IDX and XIN meet). -/
def Go.xin (v : GoEnv) (f : StrFields) (win : Bool) (ns : List Nat) (g : Go) : Go :=
  let ts := (EType.ofField f.src.ety).getD tF32
  let td := (EType.ofField f.dst.ety).getD tF32
  let n := rowElems ts f.src.rw
  let ns2 := if ns.length < 2 then ns ++ [1] else ns
  let n1 := nth 1 1 ns2
  let nd := setAt 1 n ns2
  let at1 (cs : List Nat) (i : Nat) : List Nat := setAt 1 i cs
  let no (cs : List Nat) : Nat := (iterNo (ints cs) ns2).toNat
  let srcs := (nest ns2).foldl (fun (acc : List Source × Go) cs =>
    let r := acc.2.source v f win ns2 cs
    (acc.1 ++ [r.1], r.2)) ([], g)
  let dsts := (nest nd).foldl (fun (acc : List EltDst × Go) cs =>
    if acc.2.halt then acc else
    match acc.2.target v f nd cs with
    | (none, g) => (acc.1, g)
    | (some ix, g) =>
      (acc.1 ++ [⟨dstWord f ix nd cs, (List.range n1).map (fun i => (no (at1 cs i), nth 0 1 cs))⟩], g)) (([], srcs.2) : List EltDst × Go)
  dsts.2.elements v ts td f.sr (f.idxOn && f.mode == 0) n srcs.1 dsts.1
    ((nest (setAt 1 1 ns2)).map (fun cs => (List.range n1).map (fun i => no (at1 cs i))))

/-! ### Tiles (R290 to R293) -/

/-- What a stream finds of a tile: the header it acts on, its header pair and what it makes of it, its payload words, why a read failed
and whether that was the header's, and whether the pair's complement did not match. -/
structure StrTile where
  hdr  : Hdr
  raw  : Nat
  use  : HdrUse
  pay  : List Nat
  err  : Option StrErr
  lost : Bool
  miss : Bool
deriving DecidableEq, Repr

def StrTile.none : StrTile := ⟨.empty, 0, .ok .empty, [], Option.none, false, false⟩

/-- Read the header pair and the payload of a tile; a pair still to come is not judged. A tile that is malformed or of a reserved type
keeps its extents and holds nothing (R292). -/
def Go.tile (g : Go) (v : GoEnv) (part hdrAddr : Nat) : StrTile × Go :=
  match g.rd v hdrAddr 64 part with
  | (.error x, g) => ({ StrTile.none with err := some x, lost := true }, g)
  | (.ok bs, g) =>
    let raw := natOf bs
    if g.asks.any (fun p => p.key == hdrAddr) then (.none, g)
    else
      let u := judgeHdr raw
      let n := g.s.noteHdr v.c 6 hdrAddr u
      let g := { g with s := n.2.2, stop := g.stop || (!n.2.1 && g.s.tileStop) }
      let n := (match u with
        | .badType | .malformed => { parseHdr raw with format := 0, nnz := 0, words := 0 }
        | .ok _ | .mismatch => n.1, n.2)
      match g.rdWords v part n.1.payWords with
      | (.ok ws, g) => (⟨n.1, raw, u, ws, none, false, !n.2.1⟩, g)
      | (.error x, g) => (⟨n.1, raw, u, [], some x, false, !n.2.1⟩, g)

/-- Expand a tile (R100, R292): the entries of its lines, whether a complement in it did not match, and what the read counts. -/
def Go.expand (g : Go) (v : GoEnv) (t : StrTile) : List (List Ent) × Bool × Go :=
  if t.hdr.format = 0 || g.asks.any (fun p => t.hdr.payWords.contains p.key) then ([], false, g)
  else
    let r := readTile (fun k => nth 0 k t.pay) t.hdr
    let n := g.s.noteTile v.c 6 t.hdr r
    (r.lines.map (fun es => if t.hdr.format = 2 then (lastWins es).1 else es), r.miss.isSome,
      { g with s := n.2.bumpHi (rTilecnt1 v.c) (expandTile t.hdr r 0).2, stop := g.stop || n.1 })

/-- Bits and scale byte of the element at position p of a line: +0 under its block's scale where the line has no entry there, unless
that scale is NaN. -/
def lineBits (es : List Ent) (p : Nat) : Nat × Nat :=
  match es.find? (fun e => e.pos == p) with
  | some e => (e.bits, e.scale)
  | none => (0, (((es.filter (fun e => e.pos / 32 == p / 32)).map (·.scale)).find? (fun x => x != 127 && x != 255)).getD 127)

/-- Bits and scale byte of row r, column q of an expanded tile. -/
def tileBits (h : Hdr) (ls : List (List Ent)) (r q : Nat) : Nat × Nat :=
  if h.gaxis then lineBits (nth [] q ls) r else lineBits (nth [] r ls) q

/-- Write a compressed tile: its payload at the next place, then its header pair (R291). -/
def Go.putTile (g : Go) (v : GoEnv) (part : Nat) (o : OutTile) (target pol : Bool) (hdrAddr : Nat) : Go :=
  let z := o.compress target pol g.r.job.cut
  let at0 := g.place
  let as := (List.range z.payload.length).map (fun k => at0 + 64 * k)
  let hdr := natOf (pairBytes (o.header z pol at0))
  let g := { g with place := at0 + 64 * z.payload.length, s := g.s.bumpLo (rTilecnt0 v.c) z.pruned }
  (g.emit ⟨part, as, z.payload, []⟩).emit ⟨part, [hdrAddr], [hdr], []⟩

/-- The lines of a tile in the destination type: bits, and the two scale bytes of each line. -/
def Go.collect (g : Go) (v : GoEnv) (td : EType) (sr : Bool) (lines : List (List Elt)) : List (List Nat) × List Nat × Go :=
  lines.foldl (fun (acc : List (List Nat) × List Nat × Go) l =>
    let c := acc.2.2.convElts v td sr l
    (acc.1 ++ [c.1], acc.2.1 ++ (if td.scaled then takeD 127 2 c.2.1 else []), c.2.2)) ([], [], g)

/-- Read the rows of a tile: their words, or the first failure. -/
def Go.lines (g : Go) (v : GoEnv) (part : Nat) (srcs : List (List Nat)) : Except StrErr (List (List Nat)) × Go :=
  srcs.foldl (fun (acc : Except StrErr (List (List Nat)) × Go) as =>
    let r := acc.2.rdRow v part as
    (match acc.1, r.1 with
     | .ok l, .ok ws => .ok (l ++ [ws])
     | .error x, _ => .error x
     | _, .error x => .error x, r.2.countRow as)) (.ok [], g)

/-- A tile that a transfer makes from untiled rows (R291): `units` are those of its rows, `read` reads them and `make` encodes them.
Its place follows from the payloads before it, those of parts that are not performed included: their rows are read for their size
alone, and once a tile's size is not known every later tile of the GO fails with it, for none has a place (DEDUCED from R291 and
R308: a rerun writes each tile where the first run would have). -/
def Go.newTile (g : Go) (v : GoEnv) (units : List Nat) (read : Nat → Go → Except StrErr (List (List Nat)) × Go)
    (make : List (List Nat) → Go → OutTile × Go) (target pol : Bool) (hdrAddr : Nat) : Go :=
  let ps := g.partsOf units
  let run := ps.2.running ps.1
  match g.lost with
  | some x => run.2.failAll run.1 x
  | none =>
    let r := read (run.1.headD 64) run.2
    match r.1 with
    | .error x => { r.2.failAll run.1 x with lost := some x }
    | .ok rows =>
      let o := make rows r.2
      let g := o.2.putTile v (run.1.headD 64) o.1 target pol hdrAddr
      if run.1.isEmpty then { r.2 with place := g.place } else g

/-- One tile of a GO with a TILED destination alone: its lines are rows of the source. -/
def Go.tileDst (v : GoEnv) (f : StrFields) (ns : List Nat) (g : Go) (k : Nat) (up : List Nat) : Go :=
  let ts := (EType.ofField f.src.ety).getD tF32
  let td := (EType.ofField f.dst.ety).getD tF32
  let n := rowElems ts f.src.rw
  let w := f.extM1 + 1
  let srcs := (List.range (nth 1 0 ns)).map (fun l => f.src.row (ints (l :: up)) ns f.src.rw)
  let le := min 64 srcs.length
  g.newTile v (srcs.map (fun as => g.s.rowUnit v.c (as.headD 0) g.place)) (fun p g => g.lines v p srcs)
    (fun rows g =>
      let r := g.collect v td f.sr (rows.map (fun ws => (List.range (min w n)).map (fun j =>
        let x := runElem (fun i => nth 0 i ws) ts n j
        ⟨64, ts, x.1, x.2, true⟩)))
      (⟨td, f.gaxis, if f.gaxis then w else le, if f.gaxis then le else w, f.idxPol, f.uflags, r.1, r.2.1⟩, r.2.2))
    f.target f.pol (f.dst.hdr.toNat + 64 * k)

/-- One tile of a GO with a TILED source alone (R292): its lines as dense rows. The unit of a tile is that of its header pair (DESIGN
CHOICE: R305 does not say by which of its addresses a tile is reached). -/
def Go.tileSrc (v : GoEnv) (f : StrFields) (ns : List Nat) (g : Go) (k : Nat) (up : List Nat) : Go :=
  let td := (EType.ofField f.dst.ety).getD tF32
  let ha := f.src.hdr.toNat + 64 * k
  let dst (l : Nat) : Nat → Nat := dstWord f none ns (l :: up)
  let ls := List.range (nth 1 0 ns)
  let ps := g.partsOf (ls.map (fun l => g.s.rowUnit v.c ha (dst l 0)))
  let run := ps.2.running ps.1
  if run.1.isEmpty then run.2
  else
    let t := run.2.tile v (run.1.headD 64) ha
    match t.1.err with
    | some x => t.2.failAll run.1 x
    | none =>
      let x := t.2.expand v t.1
      let g := if t.1.miss || x.2.1 then x.2.2.failAll run.1 ⟨6, 0, 0⟩ else x.2.2
      let ts := t.1.hdr.ty.getD tF32
      ls.foldl (fun (g : Go) l =>
        let p := nth 64 l ps.1
        if !(g.performs p) then g
        else g.writeElts v td f.sr (dst l) ((List.range t.1.hdr.posExt).map (fun j =>
          let e := lineBits (nth [] l x.1) j
          ⟨p, ts, e.1, e.2, true⟩))) g

/-- A header with another payload address (R293). -/
def moveHdr (raw place : Nat) : BitVec 256 := setFld (BitVec.ofNat 256 raw) 64 64 (place % 2 ^ 64)
/-- The EMPTY header written for a refused tile (R293). -/
def emptyHdr (raw : Nat) : BitVec 256 := setFld (setFld (setFld (setFld (BitVec.ofNat 256 raw) 0 2 0) 32 13 0) 64 64 0) 128 16 0
/-- The EMPTY header written for a tile whose pair does not match, whose fields are not used (R606): of the destination type and of full
extents (DESIGN CHOICE: the spec names none). -/
def blankHdr (td : EType) : BitVec 256 := BitVec.ofNat 256 (at' td.field 2 + at' 63 16 + at' 63 22)

/-- One whole tile of a GO with both operands TILED (R293): `ha` is the address of its header pair and `dst` that of its destination's,
none for a tile outside the destination's extents, which is read and not written: its words count (R269). Where its header pair cannot
be read its size is not known (see `newTile`). -/
def Go.tileBoth (v : GoEnv) (td : EType) (ha : Nat) (dst : Option Nat) (g : Go) : Go :=
  let ps := g.partsOf [g.s.rowUnit v.c ha g.place]
  let run := ps.2.running ps.1
  match g.lost with
  | some x => run.2.failAll run.1 x
  | none =>
    if run.1.isEmpty then
      match run.2.rd v ha 64 (ps.1.headD 64) with
      | (.error x, g) => { g with lost := some x }
      | (.ok bs, g) => match judgeHdr (natOf bs) with
        | .ok h => if dst.isSome then { g with place := g.place + 64 * h.payWords.length } else g
        | _ => g
    else
      let t := run.2.tile v (run.1.headD 64) ha
      let place := g.place
      let g := { t.2 with place := if dst.isSome then place + 64 * t.1.hdr.payWords.length else place
                          lost := if t.1.lost ∧ dst.isSome then t.1.err else none }
      match t.1.err, dst with
      | some x, _ => g.failAll run.1 x
      | none, none =>
        let g := { g with s := g.s.bumpLo (rPanCnt v.c 1) (t.1.hdr.payWords.length + 1) }
        if t.1.miss then g.failAll run.1 ⟨6, 0, 0⟩ else g
      | none, some da =>
        let g := if t.1.miss then g.failAll run.1 ⟨6, 0, 0⟩ else g
        let hdr := match t.1.use with
          | .ok _ => moveHdr t.1.raw place
          | .mismatch => blankHdr td
          | _ => emptyHdr t.1.raw
        (g.emit ⟨run.1.headD 64, (List.range t.1.pay.length).map (fun i => place + 64 * i), t.1.pay, []⟩).emit
          ⟨run.1.headD 64, [da], [natOf (pairBytes hdr)], []⟩

/-! ### SCATTER_ADD (R299, R308) -/

/-- The sum of a row's contributions to one element, and the new element. -/
def addElem (nc : NumCtl) (t : EType) (code : Nat) (old : Nat) (vs : List Nat) : Nat × Nat :=
  if t.isInt then
    let x := i32add nc (BitVec.ofNat 32 old) ((vs.map (fun b => signed 32 b)).sum)
    (x.1.toNat, x.2)
  else
    let sum := match permBy vs.length code (vs.map (fun b => toF32 .rne (t.value b))) with
      | [] => (0 : W32)
      | b :: bs => bs.foldl f32add b
    ((convert nc false t.code .rne ((t.value old).add (f32 sum))).1, 0)

/-- One row of a window: its destination row's addresses and the source words. -/
structure AddRow where
  dst : List Nat
  ws  : List Nat
deriving DecidableEq, Repr

/-- Read the rows of one window; none where a read fails. -/
def Go.addRead (v : GoEnv) (f : StrFields) (win : Bool) (ns : List Nat) (g : Go) (css : List (List Nat)) : Option (List AddRow) × Go :=
  css.foldl (fun (acc : Option (List AddRow) × Go) cs =>
    if acc.2.halt then acc else
    match (if cs.headD 0 = 0 then acc.2.flush else acc.2).target v f ns cs with
    | (none, g) => (if g.halt then none else acc.1, g)
    | (some ix, g) =>
      let x := g.source v f win ns cs
      let dst := (List.range f.src.rw).map (dstWord f ix ns cs)
      let src := match x.1.row with
        | .read as => as
        | _ => []
      let u := x.2.part (x.2.s.rowUnit v.c (src.headD (dst.headD 0)) (dst.headD 0))
      if !(u.2.performs u.1) then (acc.1, u.2)
      else
        let g := ((u.2.touch u.1).begins v { x.1 with ix := ix })
        let r := if src.isEmpty then (.ok (List.replicate f.src.rw 0), g) else
          let r := g.rdRow v u.1 src
          (r.1, if src.length = 1 then { r.2 with strip := r.2.strip ++ src } else r.2.countRow src)
        match r.1 with
        | .error x => (none, r.2.fail u.1 x)
        | .ok ws =>
          let d := r.2.fetch v true true u.1 dst
          match d.1 with
          | .error x => (none, d.2.fail u.1 x)
          | .ok _ => (acc.1.map (fun l => l ++ [⟨dst, ws⟩]), d.2)) (some [], g)

/-- Add a window's rows into their destination rows. -/
def Go.addWrite (v : GoEnv) (f : StrFields) (g : Go) (rows : List AddRow) : Go :=
  let t := (EType.ofField f.dst.ety).getD tF32
  let dsts := (rows.map (·.dst)).eraseDups
  dsts.foldl (fun (g : Go) d =>
    let mine := (rows.filter (fun r => r.dst == d)).map (·.ws)
    let code := Config.order g.s.free
    let old := d.map (fun a => g.s.wordAt (localOf a))
    let n := rowElems t d.length
    let es := (List.range n).map (fun j =>
      let el (ws : List Nat) : Nat := slot (nth 0 (j / t.code.perWord) ws) t.code.width (j % t.code.perWord)
      addElem g.r.job.nc t code (el old) (mine.map el))
    let ws := packWords t.code (es.map (·.1))
    let s := (ws.zip d).foldl (fun (s : State) p => s.wrLocal (localOf p.2) (bytesOf 64 p.1)) g.s
    let g := { g with s := s }.countRow d
    { g with s := g.s.tick.bumpLo (rNumcnt0 v.c) (es.map (·.2)).sum, r := { g.r with bytes := g.r.bytes + 64 * ws.length } }) g

/-- A SCATTER_ADD, window by window: it ends at the first window that a read fails in. -/
def Go.scatterAdd (v : GoEnv) (f : StrFields) (win : Bool) (ns : List Nat) (g : Go) : Go :=
  let css := nest ns
  let wins := (css.map (fun cs => posOf f ns cs / 64)).eraseDups
  wins.foldl (fun (g : Go) w =>
    if g.halt then g else
    match Go.addRead v f win ns g (css.filter (fun cs => posOf f ns cs / 64 == w)) with
    | (some rows, g) => g.addWrite v f rows
    | (none, g) => { g with halt := true, r := { g.r with resume := g.r.resume.or (some (64 * w)) } }) g

/-! ### Copies -/

/-- The words of row r of a copy's operand. -/
def copyRow (d : Desc) (t : EType) (r : Nat) : List Nat := (List.range (rowWords t (D.cols d))).map (D.wordAddr d t r)

/-- Keep the words of a destination row that lie inside the extents, and count the others (R269). -/
def Go.clip (g : Go) (v : GoEnv) (d : Desc) (t : EType) (r n : Nat) : Nat × Go :=
  let k := if r < D.rows d then min n (rowWords t (D.cols d)) else 0
  (k, { g with s := g.s.bumpLo (rPanCnt v.c 1) (n - k) })

/-- A PLAIN copy of untiled operands: row by row. -/
def Go.plain (g : Go) (v : GoEnv) (k : CopyJob) (ts td : EType) : Go :=
  (List.range (D.rows k.src)).foldl (fun (g : Go) r =>
    let src := copyRow k.src ts r
    let u := g.part (g.s.rowUnit v.c (src.headD 0) (D.wordAddr k.dst td r 0))
    if !(u.2.performs u.1) then u.2
    else match (u.2.touch u.1).fetch v false true u.1 src with
      | (.error x, g) => g.fail u.1 x
      | (.ok ws, g) =>
        let q := g.convRow v ts td false (D.cols k.src) ws
        let m := q.2.clip v k.dst td r q.1.length
        m.2.emit ⟨u.1, (List.range m.1).map (D.wordAddr k.dst td r), q.1.take m.1, []⟩) g

/-- Destination rows of a TRANSPOSE or a PERMUTE, element by element: each names the source row and element of its elements; `turn` is
set where the source is read through the turn tiles. -/
def Go.moved (g : Go) (v : GoEnv) (k : CopyJob) (ts td : EType) (turn : Bool) (rows : List (List (Nat × Nat))) : Go :=
  let kept := (rows.zip (List.range rows.length)).foldl (fun (acc : List EltDst × Go) p =>
    let m := acc.2.clip v k.dst td p.2 (rowWords td p.1.length)
    (if m.1 = 0 then acc.1 else acc.1 ++ [⟨D.wordAddr k.dst td p.2, p.1.take (D.cols k.dst)⟩], m.2)) (([], g) : List EltDst × Go)
  let srcs := (List.range (D.rows k.src)).map (fun r => (⟨.read (copyRow k.src ts r), none, 0, 0⟩ : Source))
  kept.2.elements v ts td false false (D.cols k.src) srcs kept.1 (if turn then [List.range (D.rows k.src)] else [])

/-- The source element that element `lin` of a PERMUTE's destination takes, both in linear order. -/
def permSrc (exts : List Nat) (perm lin : Nat) : Nat :=
  let fs := (List.range 4).map (fun m => nth 1 (slot perm 2 m) exts)
  let js := (List.range 4).map (fun m => lin / (fs.take m).foldl (· * ·) 1 % max 1 (nth 1 m fs))
  ((List.range 4).map (fun m => nth 0 m js * (exts.take (slot perm 2 m)).foldl (· * ·) 1)).sum

/-- A copy of one tile row of a TILED source into untiled rows (R292). -/
def Go.tileRow (v : GoEnv) (k : CopyJob) (td : EType) (g : Go) (i : Nat) : Go :=
  let d := k.src
  let ls := List.range (min 64 (D.rows d - 64 * i))
  let js := List.range (D.tileCols d)
  let tiles := js.foldl (fun (acc : List (List Nat × Hdr × Option (List (List Ent))) × Go) j =>
    let ha := D.pairAddr d i j
    let ps := acc.2.partsOf (ls.map (fun l => acc.2.s.rowUnit v.c ha (D.wordAddr k.dst td (64 * i + l) 0)))
    let run := ps.2.running ps.1
    if run.1.isEmpty then (acc.1 ++ [(ps.1, Hdr.empty, none)], run.2)
    else
      let t := run.2.tile v (run.1.headD 64) ha
      match t.1.err with
      | some x => (acc.1 ++ [(ps.1, Hdr.empty, none)], t.2.failAll run.1 x)
      | none =>
        let x := t.2.expand v t.1
        (acc.1 ++ [(ps.1, t.1.hdr, some x.1)], if t.1.miss || x.2.1 then x.2.2.failAll run.1 ⟨6, 0, 0⟩ else x.2.2)) ([], g)
  ls.foldl (fun (g : Go) l =>
    let r := 64 * i + l
    let m := g.clip v k.dst td r (rowWords td (D.cols d))
    if m.1 = 0 then m.2
    else m.2.writeElts v td false (D.wordAddr k.dst td r) ((List.range (min (D.cols d) (D.cols k.dst))).map (fun q =>
      let t := nth ([], Hdr.empty, none) (q / 64) tiles.1
      let e := tileBits t.2.1 (t.2.2.getD []) l (q % 64)
      ⟨nth 64 l t.1, t.2.1.ty.getD tF32, e.1, e.2, t.2.2.isSome⟩))) tiles.2

/-- The words of columns c0.. of row r of a copy's source, read at clamped positions (R268): the storage words and how many are read so. -/
def copyPart (d : Desc) (t : EType) (r c0 n : Nat) : List Nat × Nat :=
  let x := D.runOf d t c0 n
  (x.1, clampedWords (D.rows d) r x)

/-- One tile of a copy with a TILED destination alone (R291, R58). -/
def Go.copyTile (v : GoEnv) (k : CopyJob) (ts td : EType) (g : Go) (p : Nat × Nat) : Go :=
  let d := k.dst
  let rows := min 64 (D.rows d - 64 * p.1)
  let cols := min 64 (D.cols d - 64 * p.2)
  let ga := D.gaxis d
  let part (l : Nat) : List Nat × Nat := copyPart k.src ts (64 * p.1 + l) (64 * p.2) cols
  let srcs := (List.range rows).map (fun l => (part l).1.map (D.wordAddr k.src ts (clampTo (64 * p.1 + l) (D.rows k.src))))
  g.newTile v (srcs.map (fun as => g.s.rowUnit v.c (as.headD 0) g.place)) (fun p g => g.lines v p srcs)
    (fun got g =>
      let el (r q : Nat) : Elt :=
        let ws := (part r).1.zip (nth [] r got)
        let x := runElem (fun w => ((ws.find? (fun y => y.1 == w)).map (·.2)).getD 0) ts (D.cols k.src)
          (clampTo (64 * p.2 + q) (D.cols k.src))
        ⟨64, ts, x.1, x.2, true⟩
      let lines := if ga then (List.range cols).map (fun q => (List.range rows).map (fun r => el r q))
        else (List.range rows).map (fun r => (List.range cols).map (el r))
      let g := { g with s := g.s.bumpHi (rPanCnt v.c 0) ((List.range rows).map (fun l => (part l).2)).sum }
      let q := g.collect v td false lines
      (⟨td, ga, rows, cols, D.idxPol d, D.uflags d, q.1, q.2.1⟩, q.2.2))
    false false (D.pairAddr d p.1 p.2)

/-- A copy with one or both operands TILED (R291 to R293): of two TILED operands tile (i, j) goes to tile (i, j). Source words outside the
extents of a TILED destination are counted as those of an untiled one would be (R269; DESIGN CHOICE: a tile holds no word for them). -/
def Go.tiledCopy (g : Go) (v : GoEnv) (k : CopyJob) (ts td : EType) : Go :=
  let grid (d : Desc) : List (Nat × Nat) := tileGrid 0 (D.tileRows d) 0 (D.tileCols d)
  let g := { g with place := D.base k.dst }
  if D.tiled k.src && D.tiled k.dst then
    (grid k.src).foldl (fun (g : Go) p => g.tileBoth v td (D.pairAddr k.src p.1 p.2)
      (if p.1 < D.tileRows k.dst ∧ p.2 < D.tileCols k.dst then some (D.pairAddr k.dst p.1 p.2) else none)) g
  else if D.tiled k.src then (List.range (D.tileRows k.src)).foldl (Go.tileRow v k td) g
  else
    let g := (List.range (D.rows k.src)).foldl (fun (g : Go) r => (g.clip v k.dst td r (rowWords td (D.cols k.src))).2) g
    (grid k.dst).foldl (Go.copyTile v k ts td) g

/-- A copy (R281, R334). -/
def Go.copy (g : Go) (v : GoEnv) (k : CopyJob) : Go :=
  let ts := (D.ety k.src).getD tF32
  let td := (D.ety k.dst).getD tF32
  let cols := D.cols k.src
  if D.tiled k.src || D.tiled k.dst then g.tiledCopy v k ts td
  else match k.kind with
  | 0 => g.plain v k ts td
  | 1 => g.moved v k ts td true ((List.range cols).map (fun j => (List.range (D.rows k.src)).map (fun i => (i, j))))
  | _ =>
    let n := D.rows k.src * cols
    let w := D.cols k.dst
    g.moved v k ts td (k.perm % 4 != 0) ((List.range (ceilDiv n w)).map (fun r => (List.range (min w (n - r * w))).map (fun j =>
      let x := permSrc k.exts' k.perm (r * w + j)
      (x / cols, x % cols))))

/-! ### The whole transfer -/

/-- What a GO word or a copy reads and means to write. -/
def Go.eval (v : GoEnv) (w : W64) (g : Go) : Go :=
  match g.r.job.copy with
  | some k => g.copy v k
  | none =>
    let f := g.r.f
    let ns := f.counts.take (goLev w)
    let win := goWin w
    let g := { g with place := f.dst.addr.toNat / 64 * 64 }
    let ups := nest (ns.drop 1)
    let nums := ups.zip (List.range ups.length)
    let td := (EType.ofField f.dst.ety).getD tF32
    if f.src.tiled && f.dst.tiled then
      (List.range (nest ns).length).foldl (fun (g : Go) k => g.tileBoth v td (f.src.hdr.toNat + 64 * k) (some (f.dst.hdr.toNat + 64 * k))) g
    else if f.dst.tiled then nums.foldl (fun (g : Go) p => g.tileDst v f ns p.2 p.1) g
    else if f.src.tiled then nums.foldl (fun (g : Go) p => g.tileSrc v f ns p.2 p.1) g
    else if f.idxOn && f.mode == 2 then (Go.scatterAdd v f win ns g).flush
    else if f.src.xin then Go.xin v f win ns g
    else ((nest ns).foldl (Go.row v f win ns) g).flush

/-- After a failed index read every part that the stream has reached has failed (R307). -/
def Go.ended (g : Go) : Go :=
  if g.r.idxFail then { g with r := { g.r with fail := BitVec.ofNat 64 (2 ^ g.r.units.length - 1), ok := 0 } } else g

end Sys2Proof.Machine
end

