-- ==== Sys2Proof/Machine/ExecStream.lean ====
section
/-! DEFINITION. The stream commands that move data and end streams, and the trickle path (spec/10_stream_engines.md R300,
R305 to R315). -/
namespace Sys2Proof.Machine

/-! ### Writing the rows of a transfer -/

/-- One word written under a mask at a local address: a masked word is read, checked and merged (R258, R399). -/
def State.putWord (s : State) (v : GoEnv) (a w : Nat) (mask : Option Nat) : BusRes × State :=
  let l := localOf a
  let write (s : State) (w : Nat) : BusRes × State :=
    s.writeKeep v.who (.program v.c) (4 + v.e.val) (coreProd v.c) l (bytesOf 64 w)
  match mask with
  | none => write s w
  | some m =>
    if m = 2 ^ 512 - 1 then write s w
    else match s.readKeep v.who (4 + v.e.val) l 64 with
      | (.data bs, s) => write s ((natOf bs &&& (2 ^ 512 - 1 - m)) ||| (w &&& m))
      | r => r

/-- One word to write: its address, value, mask and part. -/
structure PutWord where
  addr : Nat
  bs   : List Byte
  mask : Option Nat
  part : Nat
deriving DecidableEq, Repr

/-- The words of a row; a row into a queue page is one packet (chapter 15). -/
def StrWrite.words (w : StrWrite) (packet : Bool) : List PutWord :=
  if packet then [⟨w.addrs.headD 0, wordBytes w.ws, none, w.part⟩]
  else ((w.addrs.zip w.ws).zip (List.range w.ws.length)).map (fun p =>
    ⟨p.1.1, bytesOf 64 p.1.2, if w.masks.isEmpty then none else w.masks[p.2]?, w.part⟩)

/-- Has a masked word nothing to write? -/
def PutWord.empty (p : PutWord) : Bool := p.mask == some 0

/-- Write one word or packet, or queue it for another device or the companion: the reason of a failure, or 0; whether it has
to wait. A row that lies elsewhere is of one part, so its words go whole. -/
def Go.put (g : Go) (v : GoEnv) (p : PutWord) : Nat × Bool × Go :=
  if p.empty then (0, false, g)
  else if inQueue p.addr ∧ 4096 < p.bs.length then (0, false, g)
  else if g.s.farAddr p.addr then
    let k := g.r.nextKey
    (0, false, { g with r := { g.r with sends := g.r.sends ++ [(k, p.addr, p.bs)], nextKey := k + 1
                                        pend := g.r.pend ++ [⟨k, p.part, g.s.failDevOf p.addr, p.bs.length⟩] } })
  else match findGot p.addr g.r.cache with
  | some (.failed reason link) => (reason, false, g.fail p.part ⟨reason, 0, link⟩)
  | _ =>
    let r := if p.bs.length = 64 then g.s.putWord v p.addr (natOf p.bs) p.mask
      else g.s.writeKeep v.who (.program v.c) (4 + v.e.val) (coreProd v.c) (localOf p.addr) p.bs
    match r.1 with
    | .fail k => (k, false, { g with s := r.2 }.fail p.part ⟨k, 0, 0⟩)
    | .wait => (0, true, { g with asks := g.asks ++ [⟨p.addr, p.addr, p.bs.length, p.part⟩] })
    | _ => (0, false, { g with s := r.2, r := { g.r with bytes := g.r.bytes + p.bs.length } })

/-- Try every write: the reasons, and the transfer after them. -/
def Go.tryPuts (g : Go) (v : GoEnv) (ps : List PutWord) : List Nat × Go :=
  ps.foldl (fun (acc : List Nat × Go) p =>
    let r := acc.2.put v p
    (acc.1 ++ [r.1], r.2.2)) ([], g)

/-- Write for good: of the words of a failed part, each holds its old value or its new one (R307). `failed` are the parts
that fail, `rs` the reasons found. -/
def Go.puts (g : Go) (v : GoEnv) (ps : List PutWord) (rs : List Nat) (failed : W64) : Go :=
  (ps.zip rs).foldl (fun (g : Go) p =>
    if p.2 = 0 ∧ bitOf failed p.1.part then
      let keep := Config.order g.s.free % 2 = 0
      let g := { g with s := g.s.tick }
      if keep then g else (g.put v p.1).2.2
    else (g.put v p.1).2.2) g

/-! ### Words and writes of others -/

/-- The words of an engine's reads that are outstanding; a pop of another device's queue stands for the 64 that it may bring. -/
def StrRun.waiting (r : StrRun) : Nat := ((r.cache.filter (fun x => x.2.isWaiting)).map (fun x => if x.1 < 2 ^ 64 then 1 else 64)).sum

/-- Ask for one read of a transfer (R303), or keep the place of an access here that has to wait (R401, R429, R506), to write where `write`
says so; of reads elsewhere at most CREDITS × 2,048 B at a time. -/
def State.goAskOne (s : State) (c : Core) (e : Eng) (write : Bool) (p : StrAsk) : State :=
  match (s.eng c e).cur with
  | none => s
  | some r =>
    let known := (findGot p.key r.cache).isSome
    if !known && decide (32 * r.credits ≤ r.waiting) then s
    else
      let s := if known then s else s.setRun c e { r with reads := r.reads ++ [(p.key, p.part)] }
      if s.farAddr p.addr then
        (if known then s
         else if s.isLocal (BitVec.ofNat 64 p.addr) then s.cmemAsk (.stream c e p.key false) (localOf p.addr) none
         else s.remoteRead (.stream c e p.key false) (BitVec.ofNat 64 p.addr) p.n)
      else
        let s := if known then s else s.answer (.stream c e p.key false) (.waiting s.tb.time.toNat 1024)
        (s.anyWaits (.unit c (4 + e.val)) (if inRegs (localOf p.addr) || inQueue p.addr then [] else piecesOf (localOf p.addr) p.n) write).2
/-- Ask for what a transfer waits for: index words first, for what it reads then follows from them. -/
def State.goAsk (s : State) (c : Core) (e : Eng) (write : Bool) (asks : List StrAsk) : State :=
  let ix := asks.filter (fun p => p.part == 64)
  (if ix.isEmpty then asks else ix).foldl (fun s p => s.goAskOne c e write p) s

/-- Send the writes that still have to leave, as far as transaction numbers allow. -/
def State.strPump (s : State) (c : Core) (e : Eng) : State :=
  match (s.eng c e).cur with
  | none => s
  | some r =>
    r.sends.foldl (fun s q =>
      let s := s.farAsk (.stream c e q.1 true) (BitVec.ofNat 64 q.2.1) (some q.2.2)
      match (s.eng c e).cur with
      | some r => if (findGot q.1 r.acks).isSome then s.setRun c e { r with sends := r.sends.filter (fun x => x.1 != q.1) } else s
      | none => s) s

/-- Is every write of the stream's earlier GOs acknowledged (R300)? -/
def StrRun.quiet (r : StrRun) : Bool := r.sends.isEmpty && r.acks.all (fun a => !a.2.isWaiting)

/-! ### GO, SIG, END -/

/-- A stream stopped by TILE_POL (R607): it ends ABORTED and its sequencer enters FAULTED. -/
def State.strStop (s : State) (c : Core) (e : Eng) : State :=
  (match (s.eng c e).cur with
   | some r => s.strFinish c e r 3
   | none => s).seqFault c

/-- Does a stream read no more once the word at its place is done: is there no later GO? -/
def StrRun.lastGo (r : StrRun) : Bool := r.job.copy.isSome || !((r.words.drop (r.pc + 1)).any (fun w => Sw.op w == swGo))

/-- Perform a GO or a copy: once every word it reads is there, its rows are written. Where it is the last, every read of the stream has
delivered (R346). -/
def State.strGo (s : State) (c : Core) (e : Eng) (r : StrRun) (w : W64) : State :=
  let v : GoEnv := ⟨c, e⟩
  let g := (Go.eval v w ⟨s, r, [], [], [], [], [], [], 0, 0, none, [], [], false, false⟩).ended
  if !g.asks.isEmpty then s.goAsk c e false g.asks.eraseDups
  else
    let ps := g.writes.flatMap (fun w => w.words (inQueue (w.addrs.headD 0)))
    let t := g.tryPuts v ps
    if !t.2.asks.isEmpty then s.goAsk c e true t.2.asks.eraseDups
    else
      let g := g.puts v ps t.1 t.2.r.fail
      let s := g.s.cohLeave (· == v.who)
      let job := g.r.job
      let s := match (s.eng c e).cur with
        | some _ =>
          ((if r.lastGo then s.readsDone c job.guard else s).setRun c e { g.r.step with
            job := if r.lastGo then { job with guard := job.guard.released } else job, cache := [], reads := [] }).strPump c e
        | none => s
      (if g.stop then s.strStop c e else s).settle c

/-- STREAM_GO (R284 to R299, R305 to R308). -/
def execStreamGo (c : Core) (e : Eng) (ecc : List (W64 × Ecc)) (s : State) : Host.Outcome State Fault Refusal := s.live <|
  let s := s.strikes (ecc.map (fun p => (localOf p.1.toNat, p.2)))
  .next (match (s.eng c e).cur with
    | some r =>
      if r.phase ≠ .run ∨ !s.coreOn c then s
      else if r.job.copy.isSome then (if r.pc = 0 then s.strGo c e r 0 else s)
      else (match r.words[r.pc]? with
        | some w => if Sw.op w = swGo then s.strGo c e r w else s
        | none => s)
    | none => s)

/-- STREAM_SIG (R300): once every earlier write is acknowledged. -/
def execStreamSig (c : Core) (e : Eng) (s : State) : Host.Outcome State Fault Refusal := s.live <|
  .next ((s.strPump c e).strWord c e 0x0B (fun r w =>
    let s := s.strPump c e
    if r.quiet then ((s.setRun c e r.absorb.step).setFlag c (fld w 0 6) (bitOf w 57)).settle c else s))

/-- STREAM_END (R307, R309, R310, R334). -/
def execStreamEnd (c : Core) (e : Eng) (s : State) : Host.Outcome State Fault Refusal := s.live <|
  let s := s.strPump c e
  .next (match (s.eng c e).cur with
    | some r =>
      let here := if r.job.copy.isSome then r.pc == 1
        else (match r.words[r.pc]? with
          | some w => Sw.op w == swEnd
          | none => false)
      if r.phase = .run ∧ here ∧ r.quiet ∧ s.coreOn c then
        let r := r.absorb
        (s.strFinish c e r r.status).settle c
      else s
    | none => s)

/-- PART_TIMEOUT (R307): an access of a part with no response within PART_TIMEOUT microseconds fails with reason 5. GLOBAL_TIME reaches
the time at which the first is late; an access here that fails so keeps its place no longer. -/
def execPartTimeout (c : Core) (e : Eng) (part : Fin 64) (s : State) : Host.Outcome State Fault Refusal := s.live <|
  .next (match (s.eng c e).cur with
    | some r =>
      let lim := 1000 * s.rf (rStrCtl c) 0 16
      let readP (a : Nat) : Bool := r.reads.any (fun p => p.1 == a && (p.2 == part.val || p.2 == 64))
      let writeP (k : Nat) : Bool := r.pend.any (fun p => p.key == k && p.part == part.val)
      let since (l : List (Nat × Got)) (mine : Nat → Bool) : List (Nat × Nat) := l.filterMap (fun x => match x.2 with
        | .waiting t _ => if mine x.1 then some (x.1, t + lim) else none
        | _ => none)
      let due := since r.cache readP ++ since r.acks writeP
      match (due.map (·.2)).min?.bind s.reachBy with
      | none => s
      | some s =>
        let late (l : List (Nat × Nat)) : List Nat := (l.filter (fun x => decide (x.2 ≤ s.tb.time.toNat))).map (·.1)
        let lateR := late (since r.cache readP)
        let lateW := late (since r.acks writeP)
        let mark (l : List Nat) (x : Nat × Got) : Nat × Got := if l.contains x.1 then (x.1, .failed 5 0) else x
        ((s.strForget c e (fun a w => if w then lateW.contains a else lateR.contains a)).setRun c e
          { r with cache := r.cache.map (mark lateR), acks := r.acks.map (mark lateW) }).cohDone (.unit c (4 + e.val))
            ((lateR.filter (fun a => !(s.farAddr a))).map (fun a => localOf a / 64))
    | none => s)

/-- STR_CTL_WRITE (R315). -/
def execStrCtlWrite (c : Core) (v : W64) (s : State) : Host.Outcome State Fault Refusal := s.live <|
  .next (s.ifOn c.val (fun s => s.strCtlWrite c v))

/-! ### The trickle path (R312 to R314, R344, R345) -/

/-- Replace the transfer at the front. -/
def State.setTrk (s : State) (c : Core) (j : TrkJob) : State := s.onCore c (fun k => { k with trk := j :: k.trk.tail })
/-- The transfer at the front leaves. -/
def State.popTrk (s : State) (c : Core) : State :=
  (s.cohLeave (fun w => w == NzWho.unit c 13)).onCore c (fun k => { k with trk := k.trk.tail })

/-- A transfer fails (R313). -/
def State.trkFail (s : State) (c : Core) (j : TrkJob) : State :=
  ((s.popTrk c).bumpHi (rStrCnt c 3) 1).raise fStrTrk 6 c.val [j.src.toNat, j.dst.toNat, j.flag.getD 0]

/-- What has come of words of another device or the companion, in order: all of them, a failure, or those to ask for. -/
def gather (got : List (Nat × Got)) : List Nat → Except Bool (List (BitVec 512)) × List Nat
  | [] => (.ok [], [])
  | a :: as =>
    let t := gather got as
    match findGot a got, t.1 with
    | some (.data w), .ok l => (.ok (w :: l), t.2)
    | some (.bytes bs), .ok l => (.ok (BitVec.ofNat 512 (natOf bs) :: l), t.2)
    | some (.failed _ _), _ => (.error true, t.2)
    | some (.waiting _ _), .ok _ => (.error false, t.2)
    | some (.waiting _ _), .error f => (.error f, t.2)
    | some (.data _), .error f | some (.bytes _), .error f => (.error f, t.2)
    | none, .ok _ => (.error false, a :: t.2)
    | none, .error f => (.error f, a :: t.2)

/-- What a read of n bytes of another device in one packet has come to. -/
def gotBytes (n : Nat) : Got → Except Bool (List Byte)
  | .data w => .ok (padTo n (bytesOf 64 w.toNat))
  | .bytes bs => .ok (padTo n bs)
  | .failed _ _ => .error true
  | .waiting _ _ => .error false
/-- Is a read of another device one packet of its own bytes: a pop, or a register (R422, R641)? -/
def State.readsWhole (s : State) (a : Nat) : Bool := s.farAddr a && (inQueue a || inRegs (localOf a))

/-- Read n bytes at a full address for the trickle path: the bytes, a failure (true) or a wait (false). -/
def State.trkRead (s : State) (c : Core) (j : TrkJob) (a n : Nat) : Except Bool (List Byte) × State :=
  if s.readsWhole a then
    match findGot a j.got with
    | some g => (gotBytes n g, s)
    | none => (.error false, s.remoteRead (.trickle c a false) (BitVec.ofNat 64 a) n)
  else if s.farAddr a then
    let ps := piecesOf a n
    let g := gather j.got (ps.map (fun p => p.1 / 64 * 64))
    match g.1 with
    | .ok ws => (.ok ((ps.zip ws).flatMap (fun p => ((bytesOf 64 p.2.toNat).drop (p.1.1 % 64)).take p.1.2)), s)
    | .error true => (.error true, s)
    | .error false => (.error false, g.2.foldl (fun s x => s.farAsk (.trickle c x false) (BitVec.ofNat 64 x) none) s)
  else match s.busRead (.unit c 13) 13 (localOf a) n with
    | (.data bs, s) => (.ok bs, s)
    | (.wait, s) => (.error false, s)
    | (_, s) => (.error true, s)

/-- Write bytes at a full address whole or not at all (R313): done (true), failed (false), or still to come. -/
def State.trkWrite (s : State) (c : Core) (j : TrkJob) (bs : List Byte) : Option Bool × State :=
  let a := j.dst.toNat
  if s.farAddr a then
    match findGot (a + 2 ^ 64) j.got with
    | some (.data _) | some (.bytes _) => (some true, s)
    | some (.failed _ _) => (some false, s)
    | some (.waiting _ _) => (none, s)
    | none => (none, s.farAsk (.trickle c a true) j.dst (some bs))
  else
    let l := localOf a
    let r := s.writeKeep (.unit c 13) (.program c) 13 (coreProd c) l bs
    match r.1 with
    | .fail _ => (some false, s.undone r.2 l)
    | .wait => (none, r.2)
    | _ => (some true, r.2)

/-- Write the bytes of a transfer and end it. -/
def State.trkStore (s : State) (c : Core) (j : TrkJob) (bs : List Byte) : State :=
  match s.trkWrite c j bs with
  | (some true, s) => (s.popTrk c).guardDone c j.guard
  | (some false, s) => s.trkFail c j
  | (none, s) => s

/-- The tiles of a PTEST's range: their header addresses. -/
def ptestAddrs (w : StepWord) (d : Desc) (xa xb : Nat) : List Nat :=
  let one := W.fn w 0 2 == 1
  (List.range (if one then 1 else W.fn w 8 6 + 1)).flatMap (fun i =>
    (List.range (if one then 1 else W.fn w 14 6 + 1)).map (fun j => D.pairAddr d (xa + i) (xb + j)))

/-- The outcome of a PTEST (R344). -/
def ptestTrue (w : StepWord) (hs : List Hdr) : Bool :=
  let flag (h : Hdr) : Bool := tb h.uflags (W.fn w 2 3)
  match W.fn w 0 2 with
  | 0 => hs.all (fun h => h.format == 0)
  | 1 => (hs.head?.map flag).getD false
  | _ => hs.any flag

/-- The other transfers of the step that queued a transfer leave with it. -/
def State.dropTrk (s : State) (c : Core) (j : TrkJob) : State :=
  (s.cohLeave (fun w => w == NzWho.unit c 13)).onCore c (fun k => { k with trk := k.trk.filter (fun x => x.seq != j.seq) })

/-- The next transfer of a PTEST takes over the headers read so far. -/
def State.passHdrs (s : State) (c : Core) (hs : List Hdr) (ok : Bool) : State :=
  s.onCore c (fun k => { k with trk := match k.trk with
    | j :: js => (match j.kind with
      | .ptest pd w last _ _ => { j with kind := .ptest pd w last hs ok } :: js
      | _ => j :: js)
    | [] => [] })

/-- A PTEST has read one header pair (R61, R73, R344, R345): the last one decides its predicate, which stays where a pair did not match.
TILE_POL stops the step at such a pair (R607). -/
def State.ptestPair (s : State) (c : Core) (j : TrkJob) (pd : Nat) (w : StepWord) (last : Bool) (hs : List Hdr) (ok : Bool)
    (pair : Nat) : State :=
  let n := s.noteHdr c 7 j.src.toNat (judgeHdr pair)
  let hs := hs ++ [n.1]
  let ok := ok && n.2.1
  if !n.2.1 && s.tileStop then (n.2.2.dropTrk c j).seqFault c
  else if last then
    let t := (n.2.2.popTrk c).guardDone c j.guard
    if ok then t.onSeq c (fun q => q.setP pd (ptestTrue w hs)) else t
  else (n.2.2.popTrk c).passHdrs c hs ok

/-- TRICKLE_DONE (R312 to R314; R344, R345 for PTEST). A transfer whose access has to wait stays in front. The error of the command
strikes what the transfer reads, or the word it writes where it reads none. A plain transfer that has read its bytes has delivered
its reads (R346). -/
def execTrickleDone (c : Core) (ecc : Ecc) (s : State) : Host.Outcome State Fault Refusal := s.live <|
  .next (match (s.core c).trk with
    | [] => s
    | j :: _ =>
      if !s.coreOn c then s else
      (match j.kind with
       | .store bs => (s.strike (localOf j.dst.toNat) ecc).trkStore c j bs
       | .plain =>
         (match (s.strike (localOf j.src.toNat) ecc).trkRead c j j.src.toNat j.len with
          | (.ok bs, s) =>
            let s := s.readsDone c j.guard
            let j := { j with kind := .store bs, guard := j.guard.released }
            (s.setTrk c j).trkStore c j bs
          | (.error true, s) => s.trkFail c j
          | (.error false, s) => s)
       | .ptest pd w last hs ok =>
         (match (s.strike (localOf j.src.toNat) ecc).trkRead c j j.src.toNat 64 with
          | (.ok bs, t) => t.ptestPair c j pd w last hs ok (natOf bs)
          | (.error true, t) => (t.trkFail c j).dropTrk c j
          | (.error false, t) => t)).settle c)

end Sys2Proof.Machine
end

