-- ==== Sys2Proof/Machine/Sequencer.lean ====
section
/-! DEFINITION. The sequencer (spec/11_recipes.md): decode checks, predicates, guards, the hand-over of a step to its unit,
and the data, synchronisation, control and queue steps. -/
namespace Sys2Proof.Machine

/-! ### Decode (R326 to R328, Table 11-5) -/

/-- How many SUB values Table 11-12 lists for an opcode. -/
def subCount (op : Nat) : Nat := match op with
  | 0xA0 => 11 | 0xA2 => 7 | 0xA3 => 6 | _ => 16

/-- A reserved encoding that the sequencer rejects (R328). -/
def reservedField (w : StepWord) : Bool :=
  let op := W.opcode w
  let arr := decide (5 < W.fn w 0 3)
  match op with
  | 0x00 => arr || W.fn w 3 3 == 0 || W.fn w 3 3 == 7
  | 0x01 => arr || W.fn w 3 2 == 3
  | 0x03 | 0x04 | 0x05 | 0x06 => arr
  | 0x21 => W.fn w 0 3 == 7
  | 0x40 | 0x41 | 0x42 | 0x43 | 0x44 => decide (funcCount op ≤ W.fn w 0 6)
  | 0x61 => W.fn w 2 2 == 3
  | 0x65 => decide (5 < W.fn w 0 3)
  | 0xA0 | 0xA2 | 0xA3 => decide (subCount op ≤ W.aSUB w)
  | 0xAC => W.fn w 0 2 == 3
  | _ => false

/-- The reason code that decode finds, the lowest that applies (codes 1 to 4 and 6). -/
def decodeBad (w : StepWord) : Option Nat :=
  let op := W.opcode w
  let g := W.guard w
  if !(opcodeKnown op) then some 1
  else if W.cls w ≠ op / 32 then some 2
  else if 8 ≤ W.psel w ∧ W.psel w ≤ 14 then some 3
  else if reservedField w then some 4
  else if hasGuard op ∧ g.rge ∧ g.wge ∧ g.rf = g.wf then some 6
  else none

/-- Does the predicate let the step execute (R343)? -/
def SeqSt.predicate (q : SeqSt) (w : StepWord) : Bool := W.psel w == 15 || (q.getP (W.psel w) != W.psense w)

/-- The address of DLOAD and DSTORE. -/
def dAddr (q : SeqSt) (w : StepWord) : Nat := unsign 64 ((q.getX (W.xa w)).toNat + signed 32 (W.fn w 32 32))
/-- The address of LD and ST. -/
def lsAddr (q : SeqSt) (w : StepWord) : Nat := ((q.getX (W.aXA w)).toNat + W.imm w) % 2 ^ 64

/-- Code 5: an address that DLOAD, DSTORE, LD or ST may not name. -/
def State.addrBad (s : State) (c : Core) (w : StepWord) : Bool :=
  let q := s.seq c
  match W.opcode w with
  | 0x63 | 0x64 => dAddr q w % 32 != 0 || !(s.inOwnPantry c (dAddr q w) (32 * (W.fn w 0 4 + 1)))
  | 0xA4 | 0xA5 => lsAddr q w % 8 != 0 || !(s.inOwnPantry c (lsAddr q w) 8)
  | _ => false

/-- The predicates a step names (R321). -/
def namedP (w : StepWord) : List Nat :=
  let op := W.opcode w
  (if W.psel w < 8 then [W.psel w] else []) ++ (match op with
    | 0x08 | 0xA2 => [W.aPD w]
    | 0xA3 => [W.aPD w, W.imm w % 8, W.imm w / 8 % 8]
    | 0xAC => [W.fn w 5 3]
    | 0xE0 => if W.dPDE w then [W.dPD w] else []
    | 0xE2 => [W.dPD w]
    | _ => [])

/-- The predicates a PTEST has still to write. -/
def CoreSt.pendingP (k : CoreSt) : List Nat := k.trk.filterMap (fun j => match j.kind with
  | .ptest pd _ _ _ _ => some pd
  | _ => none)

/-! ### Data steps (Table 11-10) -/

/-- The engine a step names. -/
def W.engine (w : StepWord) : Eng := ⟨W.fn w 0 2 % 4, by omega⟩

/-- A start enters its engine's queue. -/
def State.startAdd (s : State) (c : Core) (e : Eng) (j : StrJob) : State :=
  s.setEng c e { s.eng c e with q := (s.eng c e).q ++ [j] }

/-- A start waits in its engine's queue of four. -/
def State.strStart (s : State) (c : Core) (e : Eng) (j : StrJob) : Issue :=
  if 4 ≤ (s.eng c e).q.length then .hold 4 0 else .ok (s.startAdd c e j)

/-- What a STRM step starts (R279). -/
def State.strmJob (s : State) (c : Core) (w : StepWord) : StrJob :=
  let q := s.seq c
  ⟨s.now c, (q.getX (W.xa w)) &&& ~~~63#64, none, W.fn w 2 16, q.getX (W.xb w), q.x, s.numctl c, s.denseCut c, W.guard w, q.pc.toNat⟩

/-- STRM (R279). -/
def issueStrm (c : Core) (w : StepWord) (s : State) : Issue := s.strStart c (W.engine w) (s.strmJob c w)

/-- What decode finds wrong with an operand of a COPY (R23, R263, R264, R339): none in a reserved type, else a reason code. A TILED source's
type is its headers' (R340). -/
def State.copyOperand (s : State) (d : Desc) (turn src : Bool) : Option (Option Nat) :=
  match (if src && D.tiled d then some tF32 else D.ety d) with
  | none => some none
  | some t =>
    let pan := s.inPantry (D.base d)
    let td := D.tiled d
    (firstCode [
      (1, (pan && (D.base d % 64 != 0 || (!td && D.layout d == 0 && decide (D.pitch d < rowWords t (D.cols d)))))
        || (td && D.hdrp d % 64 != 0)),
      (2, pan && !td && D.layout d == 1 && ((D.base d / 64) % 64 != 0 || D.pitch d % 64 != 0)),
      (3, !td && D.layout d == 2 && t.scaled),
      (4, turn && !td && turnType t),
      (5, D.layout d == 3)]).map some

/-- What the decode of a COPY finds wrong with its operands. -/
def State.copyRefusal (s : State) (c : Core) (w : StepWord) : Option State :=
  let src := (s.seq c).getT (W.ta w)
  let dst := (s.seq c).getT (W.tb w)
  let turn := W.fn w 2 2 == 1 || (W.fn w 2 2 == 2 && W.fn w 4 2 != 0)
  match s.copyOperand src turn true, s.copyOperand dst false false with
  | some none, _ | _, some none => some (s.badType c 6)
  | some (some r), some (some k) => some (s.panReject c (min r k))
  | some (some r), none | none, some (some r) => some (s.panReject c r)
  | none, none => none

/-- What a COPY step starts (R281, R334). -/
def State.copyStart (s : State) (c : Core) (w : StepWord) : StrJob :=
  let q := s.seq c
  ⟨s.now c, 0,
    some ⟨q.getT (W.ta w), q.getT (W.tb w), W.fn w 2 2, W.fn w 4 8, q.getX (W.xc w), W.fnb w 28, q.getX (W.xa w)⟩, W.fn w 12 16,
    q.getX (W.xb w), q.x, s.numctl c, s.denseCut c, W.guard w, q.pc.toNat⟩

/-- COPY (R281, R334); its scale words are read and judged, and not applied (R342). -/
def issueCopy (c : Core) (w : StepWord) (s : State) : Issue :=
  match s.copyRefusal c w with
  | some t => .ok t
  | none =>
    let q := s.seq c
    let e := W.engine w
    if 4 ≤ (s.eng c e).q.length then .hold 4 0
    else s.readScales c 6 [q.getT (W.ta w), q.getT (W.tb w)] (fun s => .ok (s.startAdd c e (s.copyStart c w)))

/-- Transfers enter the trickle path. -/
def State.trkAdd (s : State) (c : Core) (js : List TrkJob) : State := s.onCore c (fun k => { k with trk := k.trk ++ js })

/-- Queue the transfers of a step on the trickle path, whose queue of eight must have a place (R312). Those beyond the eighth enter it as
places come free, and the sequencer stalls until the last has entered. A stall for the trickle path carries flag 1 (TRK_WAIT_CYC). -/
def State.trkQueue (s : State) (c : Core) (js : List TrkJob) : Issue :=
  if 8 ≤ (s.core c).trk.length then .hold 4 1 else .ok (s.trkAdd c js)

/-- The flag a guard sets. -/
def Guard.flag? (g : Guard) : Option Nat := if g.wge then some g.wf else Option.none

/-- TRICKLE (R312). -/
def issueTrickle (c : Core) (w : StepWord) (s : State) : Issue :=
  let q := s.seq c
  s.trkQueue c [⟨s.now c, .plain, q.getX (W.xa w), q.getX (W.xb w), W.fn w 0 8 + 1, (W.guard w).flag?, W.guard w, []⟩]

/-- DLOAD: its descriptors land at once; where a word is not delivered the step ends (R613). -/
def issueDload (c : Core) (w : StepWord) (s : State) : Issue :=
  let a := dAddr (s.seq c) w
  let n := W.fn w 0 4 + 1
  let bs := s.rdFull a (32 * n)
  let r := s.readWords 12 (wordsAt a (32 * n))
  if r.1 ≠ 0 then .ok (r.2.readFault c)
  else .ok ((r.2.onSeq c (fun q => (List.range n).foldl (fun q k =>
    q.setT (W.ta w + k) (BitVec.ofNat 256 (natOf ((bs.drop (32 * k)).take 32)))) q)).guardDone c (W.guard w))

/-- DSTORE: transfers of at most 256 B; the last carries the guard. -/
def issueDstore (c : Core) (w : StepWord) (s : State) : Issue :=
  let q := s.seq c
  let a := dAddr q w
  let n := W.fn w 0 4 + 1
  let bs := (List.range n).flatMap (fun k => bytesOf 32 (q.getT (W.ta w + k)).toNat)
  let job (off : Nat) (b : List Byte) (g : Guard) : TrkJob :=
    ⟨s.now c, .store b, BitVec.ofNat 64 (a + off), BitVec.ofNat 64 (a + off), b.length, g.flag?, g, []⟩
  s.trkQueue c (if n ≤ 8 then [job 0 bs (W.guard w)] else [job 0 (bs.take 256) .none, job 256 (bs.drop 256) (W.guard w)])

/-- The descriptor after a DSET of a field code of FN [2:0] (Table 11-10). -/
def dsetFn (field : Nat) (d : Desc) (v : Nat) : Desc :=
  match field with
  | 0 => setFld d 0 64 v
  | 1 => setFld d 0 64 (D.base d + v)
  | 2 => setFld d 64 64 v
  | 3 => setFld d 160 24 v
  | 4 => setFld d 184 24 v
  | _ => setFld d 128 32 v

/-- DSET. -/
def issueDset (c : Core) (w : StepWord) (s : State) : Issue :=
  .ok ((s.onSeq c (fun q => q.setT (W.ta w) (dsetFn (W.fn w 0 3) (q.getT (W.ta w)) (q.getX (W.xa w)).toNat))).guardDone c (W.guard w))

/-! ### Synchronisation steps (Table 11-11) -/

/-- FSET. -/
def issueFset (c : Core) (w : StepWord) (s : State) : Issue := .ok (s.setFlag c (W.dFLAG w) (W.dSTATE w))

/-- Have the steps issued to the units of a mask completed? -/
def State.fenceMet (s : State) (c : Core) (m : Nat) : Bool := (List.range 14).all (fun b => !(m.testBit b) || (s.core c).unitIdle b)

/-- FSIGR (R335): a set on another device leaves as a packet of the model's own layout. -/
def issueFsigr (c : Core) (w : StepWord) (s : State) : Issue :=
  let q := s.seq c
  let i := W.imm w
  if tb i 7 ∧ !(s.fenceMet c 0x3FFF) then .hold 9 0
  else
    let dev : BitVec 16 := if tb i 6 then BitVec.ofNat 16 (fld (q.getX (W.dXA w)) 0 16) else s.devId
    let step := fld (q.getX (W.dXB w)) 0 20
    match coreOf? (i % 64) with
    | none => .ok s
    | some k =>
      if dev = s.devId then
        if s.coreOn k then
          let s := s.setFlag k (W.dFLAG w) (W.dSTATE w)
          .ok (if tb i 8 then s.requestStart k 2 ⟨step, 0, none⟩ else s)
        else .ok s
      else
        let a := rSeqCtl k + (if W.dSTATE w then 0x30 else 0x38)
        .ok (s.sendPkt (s.mkPkt dev 7 0 1 (bytesOf 8 (a + dev.toNat * 2 ^ 48) ++ bytesOf 8 (2 ^ W.dFLAG w)
          ++ (if tb i 8 then bytesOf 4 step else []))))

/-- FWAIT (R350). -/
def issueFwait (c : Core) (w : StepWord) (s : State) : Issue :=
  if s.flag c (W.dFLAG w) = W.dSTATE w then .ok s else .hold 3 (W.dFLAG w)

/-- FENCE. -/
def issueFence (c : Core) (w : StepWord) (s : State) : Issue := if s.fenceMet c (W.imm w) then .ok s else .hold 9 0

/-! ### Control steps (Table 11-12) -/

/-- Operand B of a scalar step. -/
def SeqSt.opB (q : SeqSt) (w : StepWord) : W64 := if W.aIMMB w then BitVec.ofNat 64 (W.imm w) else q.getX (W.aXB w)

/-- The ALU functions. -/
def aluFn (sub : Nat) (a b : W64) : W64 :=
  match sub with
  | 0 => a + b
  | 1 => a - b
  | 2 => a &&& b
  | 3 => a ||| b
  | 4 => a ^^^ b
  | 5 => a <<< (b.toNat % 64)
  | 6 => a >>> (b.toNat % 64)
  | 7 => a.sshiftRight (b.toNat % 64)
  | 8 => a * b
  | 9 => if b.toInt < a.toInt then b else a
  | _ => if a.toInt < b.toInt then b else a

/-- ALU (R336). -/
def issueAlu (c : Core) (w : StepWord) (s : State) : Issue :=
  .ok (s.onSeq c (fun q => q.setX (W.aXD w) (aluFn (W.aSUB w) (q.getX (W.aXA w)) (q.opB w))))

/-- MOVI. -/
def issueMovi (c : Core) (w : StepWord) (s : State) : Issue :=
  .ok (s.onSeq c (fun q => q.setX (W.aXD w) (BitVec.ofNat 64 (W.imm w))))

/-- The conditions of CMP. -/
def cmpFn (sub : Nat) (a b : W64) : Bool :=
  match sub with
  | 0 => a == b
  | 1 => a != b
  | 2 => decide (a.toInt < b.toInt)
  | 3 => decide (b.toInt ≤ a.toInt)
  | 4 => decide (a.toNat < b.toNat)
  | 5 => decide (b.toNat ≤ a.toNat)
  | _ => (a &&& b) != 0

/-- CMP. -/
def issueCmp (c : Core) (w : StepWord) (s : State) : Issue :=
  .ok (s.onSeq c (fun q => q.setP (W.aPD w) (cmpFn (W.aSUB w) (q.getX (W.aXA w)) (q.opB w))))

/-- The functions of PLOG. -/
def plogFn (sub : Nat) (a b : Bool) : Bool :=
  match sub with
  | 0 => a && b
  | 1 => a || b
  | 2 => a != b
  | 3 => a && !b
  | 4 => true
  | _ => false

/-- PLOG. -/
def issuePlog (c : Core) (w : StepWord) (s : State) : Issue :=
  .ok (s.onSeq c (fun q => q.setP (W.aPD w) (plogFn (W.aSUB w) (q.getP (W.imm w % 8)) (q.getP (W.imm w / 8 % 8)))))

/-- LD; where the word is not delivered the step ends (R613). -/
def issueLd (c : Core) (w : StepWord) (s : State) : Issue :=
  let a := lsAddr (s.seq c) w
  let v := natOf (s.rdFull a 8)
  let r := s.readWords 12 [a / 64 * 64]
  if r.1 ≠ 0 then .ok (r.2.readFault c) else .ok (r.2.onSeq c (fun q => q.setX (W.aXD w) (BitVec.ofNat 64 v)))

/-- ST. -/
def issueSt (c : Core) (w : StepWord) (s : State) : Issue :=
  let q := s.seq c
  let a : W64 := BitVec.ofNat 64 (lsAddr q w)
  s.trkQueue c [⟨s.now c, .store (bytesOf 8 (q.getX (W.aXB w)).toNat), a, a, 8, none, .none, []⟩]

/-- PTEST (R344, R345): a transfer for each header pair; the last carries the guard. A header pointer that is not aligned is refused
(R339). -/
def issuePtest (c : Core) (w : StepWord) (s : State) : Issue :=
  let q := s.seq c
  let d := q.getT (W.ta w)
  let as := ptestAddrs w d (q.getX (W.xa w)).toNat (q.getX (W.xb w)).toNat
  let job (i a : Nat) : TrkJob :=
    let last := i + 1 == as.length
    let g := if last then W.guard w else .none
    ⟨s.now c, .ptest (W.fn w 5 3) w last [] true, BitVec.ofNat 64 a, 0, 64, g.flag?, g, []⟩
  if D.hdrp d % 64 ≠ 0 then .ok (s.panReject c 1) else s.trkQueue c (as.mapIdx job)

/-- LOOP: what it loads. -/
def SeqSt.loopVal (q : SeqSt) (w : StepWord) : W32 :=
  if W.eXSRC w then BitVec.ofNat 32 (q.getX (W.eXA w)).toNat else W.eCOUNT w

/-- LOOP: the counter; its branch is `nextPc`. -/
def issueLoop (c : Core) (w : StepWord) (s : State) : Issue := .ok (s.onSeq c (fun q => q.setL (W.eLC w) (q.loopVal w)))
/-- ENDL: the counter; its branch is `nextPc`. -/
def issueEndl (c : Core) (w : StepWord) (s : State) : Issue := .ok (s.onSeq c (fun q => q.setL (W.eLC w) (q.getL (W.eLC w) - 1)))

/-- END (R337): issue stops. -/
def issueEnd (c : Core) (w : StepWord) (s : State) : Issue :=
  .ok (s.onSeq c (fun q => { q with ending := some (if tb (W.imm w) 6 then some (W.imm w % 64) else none) }))

/-- The address of the step after this one (R319, Table 11-12). -/
def SeqSt.nextPc (q : SeqSt) (w : StepWord) : BitVec 20 :=
  let away := q.pc + BitVec.ofInt 20 (W.eTARGET w)
  match W.opcode w with
  | 0xA8 => away
  | 0xA9 => if q.loopVal w = 0 then away else q.pc + 1
  | 0xAA => if q.getL (W.eLC w) - 1 ≠ 0 then away else q.pc + 1
  | _ => q.pc + 1

/-! ### Queue and time steps (Table 11-13) -/

/-- Bytes that a queue step reads: all of them, a failure (true), or that they are still to come (false). Words of other devices and the
companion are asked for (R20), a packet of another device's queue or its registers by one READ. -/
def State.stepBytes (s : State) (c : Core) (a n : Nat) : Except Bool (List Byte) × State :=
  if s.readsWhole a then
    match findGot a (s.seq c).got with
    | some g => (gotBytes n g, s)
    | none => (.error false, s.remoteRead (.seq c a false) (BitVec.ofNat 64 a) n)
  else if s.farAddr a then
    let ps := piecesOf a n
    let g := gather (s.seq c).got (ps.map (fun p => p.1 / 64 * 64))
    match g.1 with
    | .ok ws => (.ok ((ps.zip ws).flatMap (fun p => ((bytesOf 64 p.2.toNat).drop (p.1.1 % 64)).take p.1.2)), s)
    | .error true => (.error true, s)
    | .error false => (.error false, g.2.foldl (fun s x => s.farAsk (.seq c x false) (BitVec.ofNat 64 x) none) s)
  else match s.busRead (.unit c 12) 12 (localOf a) n with
  | (.data bs, s) => (.ok bs, s)
  | (.wait, s) => (.error false, s)
  | (_, s) => (.error true, s)

/-- QPUSH (R422, R424 to R426); where its bytes cannot be read the step ends (R613). -/
def issueQpush (c : Core) (w : StepWord) (s : State) : Issue :=
  let q := W.dQUEUE w
  let n := W.imm w % 2 ^ 13
  if n = 0 ∨ 4096 < n then .ok (s.qpReject q [c.val, (s.seq c).pc.toNat])
  else match s.stepBytes c ((s.seq c).getX (W.dXA w)).toNat n with
    | (.error true, s) => .ok (s.readFault c)
    | (.error false, s) => .wait 4 s
    | (.ok bs, s) =>
      let ok := s.domOn (76 + dieOf q) && (s.lookFreed q).admits q n
      let s := if s.domOn (76 + dieOf q) then s.pushPkt q (coreProd c) bs (cellsOf n) else s
      .ok (if W.dPDE w then s.onSeq c (fun k => k.setP (W.dPD w) ok) else s)

/-- Is there room for k more accesses to where an address lies, another device or the companion? -/
def State.farRoom (s : State) (a k : Nat) : Bool :=
  if s.isLocal (BitVec.ofNat 64 a) then (List.finRange 2).all (fun h =>
    decide ((s.half h).reqs.length + (s.half h).msgs.length + (s.nz.snoops.filter (fun p => p.half == h.val && p.txid.isSome)).length + k ≤ 1024))
  else decide (s.bv.txns.length + k ≤ 1024)

/-- The writes that bytes for another device or the companion take: of at most a word each (R20), to another device's queue page or register
space one (R422). -/
def farPieces (a n : Nat) : List (Nat × Nat) := if inQueue a || inRegs (localOf a) then [(a, n)] else piecesOf a n

/-- A pop of a recipe (R430): the bytes go to XA, the length and the broken bit to XD; `got` is what else follows, `empty` what
happens where no packet is visible. A packet begun whose later cells are still to come is waited for (R433). Where the bytes cannot be
written here the step ends after the pop (DESIGN CHOICE: the spec does not say). -/
def State.stepPop (s : State) (c : Core) (w : StepWord) (limit : Nat) (got : State → State) (empty : Issue) : Issue :=
  let q := W.dQUEUE w
  if !(s.domOn (76 + dieOf q)) then empty
  else match s.popPkt q limit with
  | (.none, _) => empty
  | (.begun, t) => .wait 7 t
  | (.got bs n broken, t) =>
    let a := ((s.seq c).getX (W.dXA w)).toNat
    let fin (t : State) : State := got (t.onSeq c (fun k => k.setX (W.dXD w) (BitVec.ofNat 64 (n + 2 ^ 63 * b2n broken))))
    if bs.isEmpty then .ok (fin t)
    else if s.farAddr a then
      let ps := farPieces a bs.length
      let key (p : Nat) : Nat := 2 ^ 66 * ((s.seq c).issued + 1) + p
      if s.farRoom a ps.length then
        .ok (fin (ps.foldl (fun t p =>
          t.farAsk (.seq c (key p.1) true) (BitVec.ofNat 64 p.1) (some ((bs.drop (p.1 - a)).take p.2))) t))
      else .hold 4 0
    else
      let put (t : State) : BusRes × State := t.busWrite (.unit c 12) (.program c) 12 (coreProd c) (localOf a) bs
      match put t with
      | (.wait, _) => .wait 4 (put s).2
      | (.fail _, t) => .ok ((fin t).readFault c)
      | (_, t) => .ok (fin t)

/-- QPOP (R338, R424, R429, R430). -/
def issueQpop (c : Core) (w : StepWord) (s : State) : Issue :=
  let limit := W.imm w % 2 ^ 13
  if limit = 0 then .ok (s.qpReject (W.dQUEUE w) [c.val, (s.seq c).pc.toNat]) else s.stepPop c w limit id (.hold 7 0)

/-- QTRY. -/
def issueQtry (c : Core) (w : StepWord) (s : State) : Issue :=
  let limit := W.imm w % 2 ^ 13
  let p (b : Bool) (s : State) : State := s.onSeq c (fun k => k.setP (W.dPD w) b)
  if limit = 0 then .ok (s.qpReject (W.dQUEUE w) [c.val, (s.seq c).pc.toNat])
  else s.stepPop c w limit (p true) (.ok (p false s))

/-- TWAIT (R338), which completes in no pitch before pitch 0 (R450): a relative target counts from the pitch of issue, in which the
stall began. -/
def issueTwait (c : Core) (w : StepWord) (s : State) : Issue :=
  let q := s.seq c
  let x := (q.getX (W.dXA w)).toNat
  let base := match q.stall with
    | some t => if t.w = w ∧ t.why = 8 then t.since else s.tb.pitch
    | none => s.tb.pitch
  let target := if tb (W.imm w) 0 then base + x else x % 2 ^ 48
  if target ≤ s.tb.pitch ∧ (s.reg rTbOrigin).toNat ≤ s.tb.time.toNat then .ok s else .hold 8 0

/-- TTIME. -/
def issueTtime (c : Core) (w : StepWord) (s : State) : Issue :=
  .ok (s.onSeq c (fun q => q.setX (W.dXD w) (if tb (W.imm w) 0 then BitVec.ofNat 64 s.tb.pitch else BitVec.ofNat 64 s.tb.time.toNat)))

/-! ### Issue (R320 to R322, R327, R343, R346, R347, R355) -/

/-- What the steps of an opcode do at issue. -/
def issueOf (op : Nat) (c : Core) (w : StepWord) (s : State) : Issue :=
  match op with
  | 0x00 => issueLoad c w s
  | 0x01 => issuePass c w s
  | 0x02 => issueFeed c w s
  | 0x03 => issueExport c w s
  | 0x04 => issueAclr c w s
  | 0x05 => issueAsave c w s
  | 0x06 => issueArestore c w s
  | 0x08 => issueFres c w s
  | 0x09 => issueFpres c w s
  | 0x0A => issueFflush c w s
  | 0x0B => issueFrel c w s
  | 0x20 => issueDisp c w s
  | 0x21 => issueSop c w s
  | 0x22 => issueSdrain c w s
  | 0x23 => issueSclr c w s
  | 0x40 | 0x41 | 0x42 | 0x43 | 0x44 => issueVector c w s
  | 0x60 => issueStrm c w s
  | 0x61 => issueCopy c w s
  | 0x62 => issueTrickle c w s
  | 0x63 => issueDload c w s
  | 0x64 => issueDstore c w s
  | 0x65 => issueDset c w s
  | 0x80 => issueFset c w s
  | 0x81 => issueFsigr c w s
  | 0x82 => issueFwait c w s
  | 0x83 => issueFence c w s
  | 0xA0 => issueAlu c w s
  | 0xA1 => issueMovi c w s
  | 0xA2 => issueCmp c w s
  | 0xA3 => issuePlog c w s
  | 0xA4 => issueLd c w s
  | 0xA5 => issueSt c w s
  | 0xA9 => issueLoop c w s
  | 0xAA => issueEndl c w s
  | 0xAC => issuePtest c w s
  | 0xAF => issueEnd c w s
  | 0xC0 => issueBset c w s
  | 0xC1 => issueBelay c w s
  | 0xE0 => issueQpush c w s
  | 0xE1 => issueQpop c w s
  | 0xE2 => issueQtry c w s
  | 0xE8 => issueTwait c w s
  | 0xE9 => issueTtime c w s
  | _ => .ok s

/-- Hand a step to its unit by its opcode. -/
def issueAny (c : Core) (w : StepWord) (s : State) : Issue := issueOf (W.opcode w) c w s

/-- A step rejected at decode (R327). -/
def State.seqBad (s : State) (c : Core) (code : Nat) : State :=
  let pc := (s.seq c).pc.toNat
  ((s.bumpLo (rSeqCnt c 0) 1).raise fSeqBad 7 c.val [pc, code]).seqFault c

/-- A step stalls (SEQ_STAT.STALL); a stall for the same reason goes on. It holds the count of pitch starts from which its wait counts
(R350, R450), for TWAIT the pitch of its issue (R338). -/
def State.stallOn (s : State) (c : Core) (w : StepWord) (why flag : Nat) : State :=
  let start := if why = 8 then s.tb.pitch else s.pitchMark
  let since := match (s.seq c).stall with
    | some t => if t.w = w ∧ t.why = why ∧ t.flag = flag then t.since else start
    | none => start
  s.onSeq c (fun q => { q with st := .stalled, stall := some ⟨w, why, flag, since⟩ })

/-- The guard that holds a step at issue: the reason and the flag (R346, R347). -/
def State.guardHolds (s : State) (c : Core) (w : StepWord) : Option (Nat × Nat) :=
  let g := W.guard w
  if hasGuard (W.opcode w) && g.rge && !(s.flag c g.rf) then some (1, g.rf)
  else if hasGuard (W.opcode w) && g.wge && s.flag c g.wf then some (2, g.wf)
  else none

/-- The step leaves issue for its unit. -/
def State.handOver (s : State) (c : Core) (w : StepWord) : State :=
  let next := (s.seq c).nextPc w
  match issueAny c w s with
  | .ok t => (t.advancePc c next true).settle c
  | .hold why flag => s.stallOn c w why flag
  | .wait why t => t.stallOn c w why 0
  | .bad code => s.seqBad c code

/-- One attempt to issue a step word; while transfers of the last step have still to enter the trickle queue none issues (R312). A step that
stalls takes CORE_NUMCTL and the registers as they stand at the attempt at which it issues (R53, R320; DESIGN CHOICE: the spec does not say
when a stalled step counts as decoded). -/
def State.attempt (s : State) (c : Core) (w : StepWord) : State :=
  match decodeBad w with
  | some code => s.seqBad c code
  | none =>
    let q := s.seq c
    let busy := (s.core c).pendingP
    if (namedP w).any busy.contains then s.stallOn c w 5 0
    else if 8 < (s.core c).trk.length then s.stallOn c w 4 1
    else if !(q.predicate w) then (s.bumpLo (rSeqCnt c 1) 1).advancePc c (q.pc + 1) false
    else if s.addrBad c w then s.seqBad c 5
    else match s.guardHolds c w with
      | some (why, flag) => s.stallOn c w why flag
      | none => if s.unitOff c w then (s.dropStep c w).settle c else s.handOver c w

/-- May the sequencer issue this word now: it runs, or the word is the one that is stalled? -/
def State.mayIssue (s : State) (c : Core) (w : StepWord) : Bool :=
  let q := s.seq c
  s.coreOn c && (s.core c).getUnit 12 == .enabled && q.ending.isNone && (match q.st, q.stall with
    | .running, _ => true
    | .stalled, some t => t.w == w
    | _, _ => false)

/-- A step command: the word must hold the row's opcode, or a reserved one, which the sequencer rejects (R327). -/
def State.stepCmd (s : State) (c : Core) (w : StepWord) (mine : Bool) : Host.Outcome State Fault Refusal :=
  if mine || !(opcodeKnown (W.opcode w)) then .next (if s.mayIssue c w then s.attempt c w else s) else .refused .illFormed

end Sys2Proof.Machine
end

