-- ==== Sys2Proof/Machine/ExecSteps.lean ====
section
/-! DEFINITION. The step commands of a recipe (Tables 11-6 to 11-13), and the events that let a stalled step go on
(spec/11_recipes.md R346, R350; R338, R429, R450). -/
namespace Sys2Proof.Machine

/-- The OSM step of a FUNC value; a FUNC that no row lists belongs to every row, since the sequencer rejects it (R328). -/
def isOsm (w : StepWord) (func : Nat) : Bool := W.opcode w == 0x43 && (W.fn w 0 6 == func || decide (2 < W.fn w 0 6))

/-- LOAD (R98, R101). -/
def execLoad (c : Core) (w : StepWord) (s : State) : Host.Outcome State Fault Refusal :=
  s.live <| s.stepCmd c w (W.opcode w == 0x00)
/-- PASS (R94, R102, R330). -/
def execPass (c : Core) (w : StepWord) (s : State) : Host.Outcome State Fault Refusal :=
  s.live <| s.stepCmd c w (W.opcode w == 0x01)
/-- FEED (R123, R127, R331). -/
def execFeed (c : Core) (w : StepWord) (s : State) : Host.Outcome State Fault Refusal :=
  s.live <| s.stepCmd c w (W.opcode w == 0x02)
/-- EXPORT (R111). -/
def execExportStep (c : Core) (w : StepWord) (s : State) : Host.Outcome State Fault Refusal :=
  s.live <| s.stepCmd c w (W.opcode w == 0x03)
/-- ACLR (R155). -/
def execAclr (c : Core) (w : StepWord) (s : State) : Host.Outcome State Fault Refusal :=
  s.live <| s.stepCmd c w (W.opcode w == 0x04)
/-- ASAVE (R155). -/
def execAsave (c : Core) (w : StepWord) (s : State) : Host.Outcome State Fault Refusal :=
  s.live <| s.stepCmd c w (W.opcode w == 0x05)
/-- ARESTORE (R155). -/
def execArestore (c : Core) (w : StepWord) (s : State) : Host.Outcome State Fault Refusal :=
  s.live <| s.stepCmd c w (W.opcode w == 0x06)
/-- FRES (R133). -/
def execFres (c : Core) (w : StepWord) (s : State) : Host.Outcome State Fault Refusal :=
  s.live <| s.stepCmd c w (W.opcode w == 0x08)
/-- FPRES (R134). -/
def execFpres (c : Core) (w : StepWord) (s : State) : Host.Outcome State Fault Refusal :=
  s.live <| s.stepCmd c w (W.opcode w == 0x09)
/-- FFLUSH (R136). -/
def execFflush (c : Core) (w : StepWord) (s : State) : Host.Outcome State Fault Refusal :=
  s.live <| s.stepCmd c w (W.opcode w == 0x0A)
/-- FREL (R134, R137). -/
def execFrel (c : Core) (w : StepWord) (s : State) : Host.Outcome State Fault Refusal :=
  s.live <| s.stepCmd c w (W.opcode w == 0x0B)
/-- DISP (R180 to R185). -/
def execDisp (c : Core) (w : StepWord) (s : State) : Host.Outcome State Fault Refusal :=
  s.live <| s.stepCmd c w (W.opcode w == 0x20)
/-- SOP (R199). -/
def execSop (c : Core) (w : StepWord) (s : State) : Host.Outcome State Fault Refusal :=
  s.live <| s.stepCmd c w (W.opcode w == 0x21)
/-- SDRAIN (R197). -/
def execSdrain (c : Core) (w : StepWord) (s : State) : Host.Outcome State Fault Refusal :=
  s.live <| s.stepCmd c w (W.opcode w == 0x22)
/-- SCLR (R195). -/
def execSclr (c : Core) (w : StepWord) (s : State) : Host.Outcome State Fault Refusal :=
  s.live <| s.stepCmd c w (W.opcode w == 0x23)
/-- VOP (R220, R247). -/
def execVop (c : Core) (w : StepWord) (s : State) : Host.Outcome State Fault Refusal :=
  s.live <| s.stepCmd c w (W.opcode w == 0x40)
/-- VRED (R333). -/
def execVred (c : Core) (w : StepWord) (s : State) : Host.Outcome State Fault Refusal :=
  s.live <| s.stepCmd c w (W.opcode w == 0x41)
/-- VROW (Table 11-9). -/
def execVrow (c : Core) (w : StepWord) (s : State) : Host.Outcome State Fault Refusal :=
  s.live <| s.stepCmd c w (W.opcode w == 0x42)
/-- OSM UPDATE. -/
def execOsmUpdate (c : Core) (w : StepWord) (s : State) : Host.Outcome State Fault Refusal := s.live <| s.stepCmd c w (isOsm w 0)
/-- OSM RESCALE. -/
def execOsmRescale (c : Core) (w : StepWord) (s : State) : Host.Outcome State Fault Refusal := s.live <| s.stepCmd c w (isOsm w 1)
/-- OSM FINAL. -/
def execOsmFinal (c : Core) (w : StepWord) (s : State) : Host.Outcome State Fault Refusal := s.live <| s.stepCmd c w (isOsm w 2)
/-- QUANT. -/
def execQuant (c : Core) (w : StepWord) (s : State) : Host.Outcome State Fault Refusal :=
  s.live <| s.stepCmd c w (W.opcode w == 0x44)
/-- STRM (R279). -/
def execStrm (c : Core) (w : StepWord) (s : State) : Host.Outcome State Fault Refusal :=
  s.live <| s.stepCmd c w (W.opcode w == 0x60)
/-- COPY (R281, R334). -/
def execCopy (c : Core) (w : StepWord) (s : State) : Host.Outcome State Fault Refusal :=
  s.live <| s.stepCmd c w (W.opcode w == 0x61)
/-- TRICKLE (R312). -/
def execTrickle (c : Core) (w : StepWord) (s : State) : Host.Outcome State Fault Refusal :=
  s.live <| s.stepCmd c w (W.opcode w == 0x62)
/-- DLOAD (R339). -/
def execDload (c : Core) (w : StepWord) (s : State) : Host.Outcome State Fault Refusal :=
  s.live <| s.stepCmd c w (W.opcode w == 0x63)
/-- DSTORE (R339). -/
def execDstore (c : Core) (w : StepWord) (s : State) : Host.Outcome State Fault Refusal :=
  s.live <| s.stepCmd c w (W.opcode w == 0x64)
/-- DSET. -/
def execDset (c : Core) (w : StepWord) (s : State) : Host.Outcome State Fault Refusal :=
  s.live <| s.stepCmd c w (W.opcode w == 0x65)
/-- FSET. -/
def execFset (c : Core) (w : StepWord) (s : State) : Host.Outcome State Fault Refusal :=
  s.live <| s.stepCmd c w (W.opcode w == 0x80)
/-- FSIGR (R335). -/
def execFsigr (c : Core) (w : StepWord) (s : State) : Host.Outcome State Fault Refusal :=
  s.live <| s.stepCmd c w (W.opcode w == 0x81)
/-- FWAIT (R350). -/
def execFwait (c : Core) (w : StepWord) (s : State) : Host.Outcome State Fault Refusal :=
  s.live <| s.stepCmd c w (W.opcode w == 0x82)
/-- FENCE (R323). -/
def execFence (c : Core) (w : StepWord) (s : State) : Host.Outcome State Fault Refusal :=
  s.live <| s.stepCmd c w (W.opcode w == 0x83)
/-- ALU (R336). -/
def execAlu (c : Core) (w : StepWord) (s : State) : Host.Outcome State Fault Refusal :=
  s.live <| s.stepCmd c w (W.opcode w == 0xA0)
/-- MOVI. -/
def execMovi (c : Core) (w : StepWord) (s : State) : Host.Outcome State Fault Refusal :=
  s.live <| s.stepCmd c w (W.opcode w == 0xA1)
/-- CMP. -/
def execCmp (c : Core) (w : StepWord) (s : State) : Host.Outcome State Fault Refusal :=
  s.live <| s.stepCmd c w (W.opcode w == 0xA2)
/-- PLOG (R336). -/
def execPlog (c : Core) (w : StepWord) (s : State) : Host.Outcome State Fault Refusal :=
  s.live <| s.stepCmd c w (W.opcode w == 0xA3)
/-- LD (R351). -/
def execLd (c : Core) (w : StepWord) (s : State) : Host.Outcome State Fault Refusal :=
  s.live <| s.stepCmd c w (W.opcode w == 0xA4)
/-- ST (R351). -/
def execSt (c : Core) (w : StepWord) (s : State) : Host.Outcome State Fault Refusal :=
  s.live <| s.stepCmd c w (W.opcode w == 0xA5)
/-- BR. -/
def execBr (c : Core) (w : StepWord) (s : State) : Host.Outcome State Fault Refusal :=
  s.live <| s.stepCmd c w (W.opcode w == 0xA8)
/-- LOOP. -/
def execLoop (c : Core) (w : StepWord) (s : State) : Host.Outcome State Fault Refusal :=
  s.live <| s.stepCmd c w (W.opcode w == 0xA9)
/-- ENDL. -/
def execEndl (c : Core) (w : StepWord) (s : State) : Host.Outcome State Fault Refusal :=
  s.live <| s.stepCmd c w (W.opcode w == 0xAA)
/-- PTEST (R344). -/
def execPtest (c : Core) (w : StepWord) (s : State) : Host.Outcome State Fault Refusal :=
  s.live <| s.stepCmd c w (W.opcode w == 0xAC)
/-- NOP. -/
def execNop (c : Core) (w : StepWord) (s : State) : Host.Outcome State Fault Refusal :=
  s.live <| s.stepCmd c w (W.opcode w == 0xAE)
/-- END (R337). -/
def execEndStep (c : Core) (w : StepWord) (s : State) : Host.Outcome State Fault Refusal :=
  s.live <| s.stepCmd c w (W.opcode w == 0xAF)
/-- BSET (R171). -/
def execBset (c : Core) (w : StepWord) (s : State) : Host.Outcome State Fault Refusal :=
  s.live <| s.stepCmd c w (W.opcode w == 0xC0)
/-- BELAY (R179). -/
def execBelay (c : Core) (w : StepWord) (s : State) : Host.Outcome State Fault Refusal :=
  s.live <| s.stepCmd c w (W.opcode w == 0xC1)
/-- QPUSH (R425). -/
def execQpush (c : Core) (w : StepWord) (s : State) : Host.Outcome State Fault Refusal :=
  s.live <| s.stepCmd c w (W.opcode w == 0xE0)
/-- QPOP (R338). -/
def execQpop (c : Core) (w : StepWord) (s : State) : Host.Outcome State Fault Refusal :=
  s.live <| s.stepCmd c w (W.opcode w == 0xE1)
/-- QTRY (R429). -/
def execQtry (c : Core) (w : StepWord) (s : State) : Host.Outcome State Fault Refusal :=
  s.live <| s.stepCmd c w (W.opcode w == 0xE2)
/-- TWAIT (R338). -/
def execTwait (c : Core) (w : StepWord) (s : State) : Host.Outcome State Fault Refusal :=
  s.live <| s.stepCmd c w (W.opcode w == 0xE8)
/-- TTIME. -/
def execTtime (c : Core) (w : StepWord) (s : State) : Host.Outcome State Fault Refusal :=
  s.live <| s.stepCmd c w (W.opcode w == 0xE9)

/-! ### Stalled steps -/

/-- Attempt the stalled step again, if it waits for one of these reasons; the cycles waited count once it no longer waits for
the same thing (R322; R312 for the trickle path), and monitors of source 6 take those of a guarded step (Table 23-6). -/
def State.retry (s : State) (c : Core) (ok : Nat → Bool) (waited : Nat) : State :=
  match (s.seq c).st, (s.seq c).stall with
  | .stalled, some t =>
    if ok t.why && s.mayIssue c t.w then
      let n := s.attempt c t.w
      if (n.seq c).stall = some t then n
      else
        let n := n.bumpLo (rSeqCnt c 2) waited
        let n := if t.why = 1 ∨ t.why = 2 then n.monCore c 6 waited else n
        if t.why = 4 ∧ t.flag = 1 then n.bumpLo (rStrCnt c 3) waited else n
    else s
  | _, _ => s

/-- GUARD_SATISFIED (R346, R347): a step held by a guard, FWAIT, a full queue, a register still to be written or a FENCE is
attempted again. -/
def execGuardSatisfied (c : Core) (waited : Nat) (s : State) : Host.Outcome State Fault Refusal := s.live <|
  .next (s.retry c (fun why => why != 7 && why != 8) waited)

/-- SLOT_TIMEOUT (R350). -/
def execSlotTimeout (c : Core) (s : State) : Host.Outcome State Fault Refusal := s.live <|
  .next (match (s.seq c).st, (s.seq c).stall with
    | .stalled, some t =>
      if 1 ≤ t.why ∧ t.why ≤ 3 ∧ watchdogPast (s.slotWd c) t.since s.tb.starts then
        ((s.bumpHi (rSeqCnt c 0) 1).raise fSlotTimeout 7 c.val [c.val, (s.seq c).pc.toNat, t.flag]).seqFault c
      else s
    | _, _ => s)

/-- QPOP_WAKE (R429). -/
def execQpopWake (c : Core) (waited : Nat) (s : State) : Host.Outcome State Fault Refusal :=
  s.live <| .next (s.retry c (fun why => why == 7) waited)

/-- TWAIT_DONE (R450). -/
def execTwaitDone (c : Core) (waited : Nat) (s : State) : Host.Outcome State Fault Refusal :=
  s.live <| .next (s.retry c (fun why => why == 8) waited)

end Sys2Proof.Machine
end

