-- ==== Sys2Proof/Machine/Dispatch.lean ====
section
/-! DEFINITION. The dispatch of a command to its meaning: one arm per row of the opcode table. -/
namespace Sys2Proof.Machine

def exec (i : Instr) (s : State) : Host.Outcome State Fault Refusal :=
  match i with
  -- 04 the MAC array
  | .load c w => Sys2Proof.Machine.execLoad c w s
  | .loadBegin c a waited => Sys2Proof.Machine.execLoadBegin c a waited s
  | .loadDone c a => Sys2Proof.Machine.execLoadDone c a s
  | .pass c w => Sys2Proof.Machine.execPass c w s
  | .planeSwap c a => Sys2Proof.Machine.execPlaneSwap c a s
  -- 05 feeders
  | .feed c w => Sys2Proof.Machine.execFeed c w s
  | .feedStart c f starve => Sys2Proof.Machine.execFeedStart c f starve s
  | .exportStep c w => Sys2Proof.Machine.execExportStep c w s
  | .aclr c w => Sys2Proof.Machine.execAclr c w s
  | .asave c w => Sys2Proof.Machine.execAsave c w s
  | .arestore c w => Sys2Proof.Machine.execArestore c w s
  | .fres c w => Sys2Proof.Machine.execFres c w s
  | .fpres c w => Sys2Proof.Machine.execFpres c w s
  | .fflush c w => Sys2Proof.Machine.execFflush c w s
  | .frel c w => Sys2Proof.Machine.execFrel c w s
  | .fillDeadline c g => Sys2Proof.Machine.execFillDeadline c g s
  | .fillWatchdog c g f => Sys2Proof.Machine.execFillWatchdog c g f s
  | .coreFgctxWrite c g v => Sys2Proof.Machine.execCoreFgctxWrite c g v s
  -- 07 the sieve engine
  | .disp c w => Sys2Proof.Machine.execDisp c w s
  | .dispResume c waited => Sys2Proof.Machine.execDispResume c waited s
  | .sop c w => Sys2Proof.Machine.execSop c w s
  | .sieveJobStart c dealWait bankWait resWait => Sys2Proof.Machine.execSieveJobStart c dealWait bankWait resWait s
  | .mergeTileClose c waited => Sys2Proof.Machine.execMergeTileClose c waited s
  | .sdrain c w => Sys2Proof.Machine.execSdrain c w s
  | .sclr c w => Sys2Proof.Machine.execSclr c w s
  -- 08 the vector unit
  | .vop c w => Sys2Proof.Machine.execVop c w s
  | .vred c w => Sys2Proof.Machine.execVred c w s
  | .vrow c w => Sys2Proof.Machine.execVrow c w s
  | .osmUpdate c w => Sys2Proof.Machine.execOsmUpdate c w s
  | .osmRescale c w => Sys2Proof.Machine.execOsmRescale c w s
  | .osmFinal c w => Sys2Proof.Machine.execOsmFinal c w s
  | .quant c w => Sys2Proof.Machine.execQuant c w s
  | .tileOutputWrite c => Sys2Proof.Machine.execTileOutputWrite c s
  | .vecAmaxWrite c n v => Sys2Proof.Machine.execVecAmaxWrite c n v s
  -- 10, 11 data and control steps
  | .strm c w => Sys2Proof.Machine.execStrm c w s
  | .copy c w => Sys2Proof.Machine.execCopy c w s
  | .trickle c w => Sys2Proof.Machine.execTrickle c w s
  | .trickleDone c ecc => Sys2Proof.Machine.execTrickleDone c ecc s
  | .dload c w => Sys2Proof.Machine.execDload c w s
  | .dstore c w => Sys2Proof.Machine.execDstore c w s
  | .dset c w => Sys2Proof.Machine.execDset c w s
  | .fset c w => Sys2Proof.Machine.execFset c w s
  | .fsigr c w => Sys2Proof.Machine.execFsigr c w s
  | .fwait c w => Sys2Proof.Machine.execFwait c w s
  | .fence c w => Sys2Proof.Machine.execFence c w s
  | .guardSatisfied c waited => Sys2Proof.Machine.execGuardSatisfied c waited s
  | .slotTimeout c => Sys2Proof.Machine.execSlotTimeout c s
  | .alu c w => Sys2Proof.Machine.execAlu c w s
  | .movi c w => Sys2Proof.Machine.execMovi c w s
  | .cmp c w => Sys2Proof.Machine.execCmp c w s
  | .plog c w => Sys2Proof.Machine.execPlog c w s
  | .ld c w => Sys2Proof.Machine.execLd c w s
  | .st c w => Sys2Proof.Machine.execSt c w s
  | .br c w => Sys2Proof.Machine.execBr c w s
  | .loop c w => Sys2Proof.Machine.execLoop c w s
  | .endl c w => Sys2Proof.Machine.execEndl c w s
  | .ptest c w => Sys2Proof.Machine.execPtest c w s
  | .nop c w => Sys2Proof.Machine.execNop c w s
  | .endStep c w => Sys2Proof.Machine.execEndStep c w s
  | .bset c w => Sys2Proof.Machine.execBset c w s
  | .belay c w => Sys2Proof.Machine.execBelay c w s
  -- 06 the belay chain
  | .belayStageReady c n => Sys2Proof.Machine.execBelayStageReady c n s
  | .belayCreditGrant c n src => Sys2Proof.Machine.execBelayCreditGrant c n src s
  | .belayRowReceive c n src row => Sys2Proof.Machine.execBelayRowReceive c n src row s
  | .belayTimeout c n => Sys2Proof.Machine.execBelayTimeout c n s
  | .qpush c w => Sys2Proof.Machine.execQpush c w s
  | .qpop c w => Sys2Proof.Machine.execQpop c w s
  | .qpopWake c waited => Sys2Proof.Machine.execQpopWake c waited s
  | .qtry c w => Sys2Proof.Machine.execQtry c w s
  | .twait c w => Sys2Proof.Machine.execTwait c w s
  | .twaitDone c waited => Sys2Proof.Machine.execTwaitDone c waited s
  | .ttime c w => Sys2Proof.Machine.execTtime c w s
  -- 11 starts, enables and flags
  | .startTake c => Sys2Proof.Machine.execStartTake c s
  | .clearFault c v => Sys2Proof.Machine.execClearFault c v s
  | .unitDisable c v => Sys2Proof.Machine.execUnitDisable c v s
  | .abort c v => Sys2Proof.Machine.execAbort c v s
  | .unitEnable c v => Sys2Proof.Machine.execUnitEnable c v s
  | .drainDone c unit => Sys2Proof.Machine.execDrainDone c unit s
  | .seqFlagset c v => Sys2Proof.Machine.execSeqFlagset c v s
  | .seqFlagclr c v => Sys2Proof.Machine.execSeqFlagclr c v s
  | .accWindowAccess who addr op => Sys2Proof.Machine.execAccWindowAccess who addr op s
  | .meshPantryAccess a ecc => Sys2Proof.Machine.execMeshPantryAccess a ecc s
  | .panInvalGo c v => Sys2Proof.Machine.execPanInvalGo c v s
  -- 10 stream engines
  | .streamBegin c e => Sys2Proof.Machine.execStreamBegin c e s
  | .streamAdmit c e waited => Sys2Proof.Machine.execStreamAdmit c e waited s
  | .streamAddr c e => Sys2Proof.Machine.execStreamAddr c e s
  | .streamDesc c e => Sys2Proof.Machine.execStreamDesc c e s
  | .streamLoop c e => Sys2Proof.Machine.execStreamLoop c e s
  | .streamStride c e => Sys2Proof.Machine.execStreamStride c e s
  | .streamIdx c e => Sys2Proof.Machine.execStreamIdx c e s
  | .streamFill c e => Sys2Proof.Machine.execStreamFill c e s
  | .streamCvt c e => Sys2Proof.Machine.execStreamCvt c e s
  | .streamWina c e => Sys2Proof.Machine.execStreamWina c e s
  | .streamWinb c e => Sys2Proof.Machine.execStreamWinb c e s
  | .streamCred c e => Sys2Proof.Machine.execStreamCred c e s
  | .streamGo c e ecc => Sys2Proof.Machine.execStreamGo c e ecc s
  | .streamWait c e => Sys2Proof.Machine.execStreamWait c e s
  | .streamSig c e => Sys2Proof.Machine.execStreamSig c e s
  | .streamEnd c e => Sys2Proof.Machine.execStreamEnd c e s
  | .streamWaitTimeout c e => Sys2Proof.Machine.execStreamWaitTimeout c e s
  | .partTimeout c e part => Sys2Proof.Machine.execPartTimeout c e part s
  | .strCtlWrite c v => Sys2Proof.Machine.execStrCtlWrite c v s
  -- 12 the format governor
  | .monGovrun d v => Sys2Proof.Machine.execMonGovrun d v s
  | .governorRun d => Sys2Proof.Machine.execGovernorRun d s
  -- 13 token dispatch
  | .topoXdispCount => Sys2Proof.Machine.execTopoXdispCount s
  | .xdispRows c => Sys2Proof.Machine.execXdispRows c s
  | .xdCountReceive c g rank m => Sys2Proof.Machine.execXdCountReceive c g rank m s
  | .xdRowReceive c g rank j srcDev srcCore entry row => Sys2Proof.Machine.execXdRowReceive c g rank j srcDev srcCore entry row s
  | .topoXdispReturn => Sys2Proof.Machine.execTopoXdispReturn s
  | .xdReturnReceive c entry row => Sys2Proof.Machine.execXdReturnReceive c entry row s
  | .coreXrxWrite c g b v => Sys2Proof.Machine.execCoreXrxWrite c g b v s
  -- 14 memory tiers
  | .memRequest m r => Sys2Proof.Machine.execMemRequest m r s
  | .memGrant m ecc => Sys2Proof.Machine.execMemGrant m ecc s
  | .memPreempt m words => Sys2Proof.Machine.execMemPreempt m words s
  | .hbmPeriodicCal pc => Sys2Proof.Machine.execHbmPeriodicCal pc s
  | .zeroFillDone t => Sys2Proof.Machine.execZeroFillDone t s
  | .hbmPriocommit v => Sys2Proof.Machine.execHbmPriocommit v s
  | .lpPriocommit v => Sys2Proof.Machine.execLpPriocommit v s
  | .coreMpriocommit v => Sys2Proof.Machine.execCoreMpriocommit v s
  | .hbmNmgreq h r => Sys2Proof.Machine.execHbmNmgreq h r s
  | .nmgRun h ecc => Sys2Proof.Machine.execNmgRun h ecc s
  | .nmgDone h => Sys2Proof.Machine.execNmgDone h s
  -- 15 the queue pool
  | .packetPush q port data written => Sys2Proof.Machine.execPacketPush q port data written s
  | .packetPop q pop => Sys2Proof.Machine.execPacketPop q pop s
  | .packetBreak q => Sys2Proof.Machine.execPacketBreak q s
  | .qpQcfgWrite q v => Sys2Proof.Machine.execQpQcfgWrite q v s
  | .qpFlush q v => Sys2Proof.Machine.execQpFlush q v s
  -- 16 time and topo
  | .tbTimeset v => Sys2Proof.Machine.execTbTimeset v s
  | .syncInEdge now => Sys2Proof.Machine.execSyncInEdge now s
  | .timeLock => Sys2Proof.Machine.execTimeLock s
  | .refLost why => Sys2Proof.Machine.execRefLost why s
  | .holdoverExpiry => Sys2Proof.Machine.execHoldoverExpiry s
  | .timeRequest t1 => Sys2Proof.Machine.execTimeRequest t1 s
  | .timeRequestReceive l t2 t3 => Sys2Proof.Machine.execTimeRequestReceive l t2 t3 s
  | .timeReply t1 t2 t3 t4 state depth => Sys2Proof.Machine.execTimeReply t1 t2 t3 t4 state depth s
  | .syncOutPulse => Sys2Proof.Machine.execSyncOutPulse s
  | .pitchStart => Sys2Proof.Machine.execPitchStart s
  | .topoStart => Sys2Proof.Machine.execTopoStart s
  | .topoSwap => Sys2Proof.Machine.execTopoSwap s
  | .topoLinkwin => Sys2Proof.Machine.execTopoLinkwin s
  | .linkwinEnd l => Sys2Proof.Machine.execLinkwinEnd l s
  | .topoColl => Sys2Proof.Machine.execTopoColl s
  | .topoCalwin => Sys2Proof.Machine.execTopoCalwin s
  | .topoDeadline => Sys2Proof.Machine.execTopoDeadline s
  | .topoSleep => Sys2Proof.Machine.execTopoSleep s
  | .topoHeart => Sys2Proof.Machine.execTopoHeart s
  | .topoEpoch => Sys2Proof.Machine.execTopoEpoch s
  -- 17 Borvik links
  | .flitReceive l flit => Sys2Proof.Machine.execFlitReceive l flit s
  | .retryRequest l seq => Sys2Proof.Machine.execRetryRequest l seq s
  | .ackTimeout l => Sys2Proof.Machine.execAckTimeout l s
  | .recordClose e => Sys2Proof.Machine.execRecordClose e s
  | .sealReceive l flit => Sys2Proof.Machine.execSealReceive l flit s
  | .packetForward p => Sys2Proof.Machine.execPacketForward p s
  | .pktWrite p => Sys2Proof.Machine.execPktWrite p s
  | .pktRead p => Sys2Proof.Machine.execPktRead p s
  | .pktResponse p => Sys2Proof.Machine.execPktResponse p s
  | .linkDown l reason => Sys2Proof.Machine.execLinkDown l reason s
  | .linkRetrainTimer e => Sys2Proof.Machine.execLinkRetrainTimer e s
  | .trainingDone e x4 laneHi half => Sys2Proof.Machine.execTrainingDone e x4 laneHi half s
  | .trainingTimeout e => Sys2Proof.Machine.execTrainingTimeout e s
  | .linkKeying l peer => Sys2Proof.Machine.execLinkKeying l peer s
  | .rekey l => Sys2Proof.Machine.execRekey l s
  | .retrain l => Sys2Proof.Machine.execRetrain l s
  | .wakeTx l => Sys2Proof.Machine.execWakeTx l s
  | .wakeDet l => Sys2Proof.Machine.execWakeDet l s
  | .collFailNotice c coll ring dev link => Sys2Proof.Machine.execCollFailNotice c coll ring dev link s
  | .collTimeout c ring => Sys2Proof.Machine.execCollTimeout c ring s
  | .collEnd c => Sys2Proof.Machine.execCollEnd c s
  -- 18 the Nimzen link
  | .rdShared h txid addr => Sys2Proof.Machine.execRdShared h txid addr s
  | .rdOwn h txid addr => Sys2Proof.Machine.execRdOwn h txid addr s
  | .rdNc h txid addr lines => Sys2Proof.Machine.execRdNc h txid addr lines s
  | .wrNc h txid addr data => Sys2Proof.Machine.execWrNc h txid addr data s
  | .wrPart h txid addr data mask => Sys2Proof.Machine.execWrPart h txid addr data mask s
  | .wbDirty h txid addr data => Sys2Proof.Machine.execWbDirty h txid addr data s
  | .evict h txid addr => Sys2Proof.Machine.execEvict h txid addr s
  | .snpRsp h tag data => Sys2Proof.Machine.execSnpRsp h tag data s
  | .snoopTimeout h addr => Sys2Proof.Machine.execSnoopTimeout h addr s
  | .menuReq h txid entry data => Sys2Proof.Machine.execMenuReq h txid entry data s
  | .doorbell h txid queue data => Sys2Proof.Machine.execDoorbell h txid queue data s
  | .popWaitExpiry h => Sys2Proof.Machine.execPopWaitExpiry h s
  | .cData h txid reason data => Sys2Proof.Machine.execCData h txid reason data s
  | .cCmp h txid reason => Sys2Proof.Machine.execCCmp h txid reason s
  | .cInv h txid addr => Sys2Proof.Machine.execCInv h txid addr s
  | .nzFlitReceive h body => Sys2Proof.Machine.execNzFlitReceive h body s
  | .msgSend h => Sys2Proof.Machine.execMsgSend h s
  | .msgResend h => Sys2Proof.Machine.execMsgResend h s
  | .halfDown h => Sys2Proof.Machine.execHalfDown h s
  | .nzKeying h compKey compSig => Sys2Proof.Machine.execNzKeying h compKey compSig s
  | .nzRetrain h => Sys2Proof.Machine.execNzRetrain h s
  | .nzRekey h => Sys2Proof.Machine.execNzRekey h s
  -- 19 reset, boot, flash and larder
  | .porNAssert => Sys2Proof.Machine.execPorNAssert s
  | .resetNAssert => Sys2Proof.Machine.execResetNAssert s
  | .resetRelease devid => Sys2Proof.Machine.execResetRelease devid s
  | .imageRead => Sys2Proof.Machine.execImageRead s
  | .imageReadDone => Sys2Proof.Machine.execImageReadDone s
  | .weightLoadDone entry => Sys2Proof.Machine.execWeightLoadDone entry s
  | .loadWaitExpiry => Sys2Proof.Machine.execLoadWaitExpiry s
  | .erase paddr => Sys2Proof.Machine.execErase paddr s
  | .program paddr => Sys2Proof.Machine.execProgram paddr s
  | .bootRead paddr => Sys2Proof.Machine.execBootRead paddr s
  | .verify paddr => Sys2Proof.Machine.execVerify paddr s
  | .flashCmdDone ok => Sys2Proof.Machine.execFlashCmdDone ok s
  | .bootReset => Sys2Proof.Machine.execBootReset s
  | .lardWrite n v who => Sys2Proof.Machine.execLardWrite n v who s
  | .lardWriteDone => Sys2Proof.Machine.execLardWriteDone s
  -- 20 security
  | .getId p => Sys2Proof.Machine.execGetId p s
  | .attest p => Sys2Proof.Machine.execAttest p s
  | .challenge p => Sys2Proof.Machine.execChallenge p s
  | .debugOpen p => Sys2Proof.Machine.execDebugOpen p s
  | .pwTry p arg => Sys2Proof.Machine.execPwTry p arg s
  | .pwSet p arg => Sys2Proof.Machine.execPwSet p arg s
  | .pwClear p => Sys2Proof.Machine.execPwClear p s
  | .commitVersion p => Sys2Proof.Machine.execCommitVersion p s
  | .ownSet p => Sys2Proof.Machine.execOwnSet p s
  | .ownClear p => Sys2Proof.Machine.execOwnClear p s
  | .debugClose p => Sys2Proof.Machine.execDebugClose p s
  | .never p => Sys2Proof.Machine.execNever p s
  | .nonceExpiry => Sys2Proof.Machine.execNonceExpiry s
  | .trngFail => Sys2Proof.Machine.execTrngFail s
  -- 21 roped pairs
  | .heartbeatReceive l hb => Sys2Proof.Machine.execHeartbeatReceive l hb s
  | .attachWaitExpiry => Sys2Proof.Machine.execAttachWaitExpiry s
  | .attachMsg l m => Sys2Proof.Machine.execAttachMsg l m s
  | .resyncDone => Sys2Proof.Machine.execResyncDone s
  | .rejoinPitch => Sys2Proof.Machine.execRejoinPitch s
  | .detach => Sys2Proof.Machine.execDetach s
  | .attach => Sys2Proof.Machine.execAttach s
  | .detachAck => Sys2Proof.Machine.execDetachAck s
  | .pairDetach => Sys2Proof.Machine.execPairDetach s
  | .releasePitch => Sys2Proof.Machine.execReleasePitch s
  -- 22 power
  | .pwrReqActive who => Sys2Proof.Machine.execPwrReqActive who s
  | .pwrReqIdle => Sys2Proof.Machine.execPwrReqIdle s
  | .pwrReqNap len => Sys2Proof.Machine.execPwrReqNap len s
  | .pwrReqBivouac save len => Sys2Proof.Machine.execPwrReqBivouac save len s
  | .pwrReqWatch save len => Sys2Proof.Machine.execPwrReqWatch save len s
  | .domainQuery => Sys2Proof.Machine.execDomainQuery s
  | .delayLimExpiry => Sys2Proof.Machine.execDelayLimExpiry s
  | .pwrCommit => Sys2Proof.Machine.execPwrCommit s
  | .saveDone => Sys2Proof.Machine.execSaveDone s
  | .offStep => Sys2Proof.Machine.execOffStep s
  | .avsAck => Sys2Proof.Machine.execAvsAck s
  | .avsTimeout => Sys2Proof.Machine.execAvsTimeout s
  | .wakeNLow => Sys2Proof.Machine.execWakeNLow s
  | .nzIdleExit h => Sys2Proof.Machine.execNzIdleExit h s
  | .wakePitch => Sys2Proof.Machine.execWakePitch s
  | .tempWake temp => Sys2Proof.Machine.execTempWake temp s
  | .railWake aon vio => Sys2Proof.Machine.execRailWake aon vio s
  | .watchSample smp => Sys2Proof.Machine.execWatchSample smp s
  | .wakeStep => Sys2Proof.Machine.execWakeStep s
  | .restoreDone failed => Sys2Proof.Machine.execRestoreDone failed s
  | .pwrPadRelease v => Sys2Proof.Machine.execPwrPadRelease v s
  | .ungate d => Sys2Proof.Machine.execUngate d s
  | .opChange op => Sys2Proof.Machine.execOpChange op s
  | .thermalStep temp => Sys2Proof.Machine.execThermalStep temp s
  | .thermtrip temp => Sys2Proof.Machine.execThermtrip temp s
  | .vddAonLow => Sys2Proof.Machine.execVddAonLow s
  | .railUndervolt => Sys2Proof.Machine.execRailUndervolt s
  -- 23 self-test and monitors
  | .fltBistreq v => Sys2Proof.Machine.execFltBistreq v s
  | .bistStart c a => Sys2Proof.Machine.execBistStart c a s
  | .bistDone c a pass => Sys2Proof.Machine.execBistDone c a pass s
  | .bistRefuse c a => Sys2Proof.Machine.execBistRefuse c a s
  | .fltCalreq v => Sys2Proof.Machine.execFltCalreq v s
  | .serdesCalDone links halves => Sys2Proof.Machine.execSerdesCalDone links halves s
  | .fieldRestore f copyOk => Sys2Proof.Machine.execFieldRestore f copyOk s
  | .monWindowEnd m => Sys2Proof.Machine.execMonWindowEnd m s
  | .monClr m => Sys2Proof.Machine.execMonClr m s
  | .monCfgWrite m v => Sys2Proof.Machine.execMonCfgWrite m v s
  | .registerWrite who addr data => Sys2Proof.Machine.execRegisterWrite who addr data s
  | .secCmdDone => Sys2Proof.Machine.execSecCmdDone s
  | .monSample m v => Sys2Proof.Machine.execMonSample m v s

end Sys2Proof.Machine
end

