-- ==== Sys2Proof/WellFormed.lean ====
section
/-! DEFINITION. Which commands are well formed: a step word holds its row's opcode, and lists have the lengths the rules give
them. -/
namespace Sys2Proof

/-- The step word of a step command and its row's opcode (Tables 11-6 to 11-13). -/
def Instr.step? : Instr → Option (StepWord × Nat)
  | .load _ w => some (w, 0x00)
  | .loadBegin _ _ _ => none
  | .loadDone _ _ => none
  | .pass _ w => some (w, 0x01)
  | .planeSwap _ _ => none
  | .feed _ w => some (w, 0x02)
  | .feedStart _ _ _ => none
  | .exportStep _ w => some (w, 0x03)
  | .aclr _ w => some (w, 0x04)
  | .asave _ w => some (w, 0x05)
  | .arestore _ w => some (w, 0x06)
  | .fres _ w => some (w, 0x08)
  | .fpres _ w => some (w, 0x09)
  | .fflush _ w => some (w, 0x0A)
  | .frel _ w => some (w, 0x0B)
  | .fillDeadline _ _ => none
  | .fillWatchdog _ _ _ => none
  | .coreFgctxWrite _ _ _ => none
  | .disp _ w => some (w, 0x20)
  | .dispResume _ _ => none
  | .sop _ w => some (w, 0x21)
  | .sieveJobStart _ _ _ _ => none
  | .mergeTileClose _ _ => none
  | .sdrain _ w => some (w, 0x22)
  | .sclr _ w => some (w, 0x23)
  | .vop _ w => some (w, 0x40)
  | .vred _ w => some (w, 0x41)
  | .vrow _ w => some (w, 0x42)
  | .osmUpdate _ w => some (w, 0x43)
  | .osmRescale _ w => some (w, 0x43)
  | .osmFinal _ w => some (w, 0x43)
  | .quant _ w => some (w, 0x44)
  | .tileOutputWrite _ => none
  | .vecAmaxWrite _ _ _ => none
  | .strm _ w => some (w, 0x60)
  | .copy _ w => some (w, 0x61)
  | .trickle _ w => some (w, 0x62)
  | .trickleDone _ _ => none
  | .dload _ w => some (w, 0x63)
  | .dstore _ w => some (w, 0x64)
  | .dset _ w => some (w, 0x65)
  | .fset _ w => some (w, 0x80)
  | .fsigr _ w => some (w, 0x81)
  | .fwait _ w => some (w, 0x82)
  | .fence _ w => some (w, 0x83)
  | .guardSatisfied _ _ => none
  | .slotTimeout _ => none
  | .alu _ w => some (w, 0xA0)
  | .movi _ w => some (w, 0xA1)
  | .cmp _ w => some (w, 0xA2)
  | .plog _ w => some (w, 0xA3)
  | .ld _ w => some (w, 0xA4)
  | .st _ w => some (w, 0xA5)
  | .br _ w => some (w, 0xA8)
  | .loop _ w => some (w, 0xA9)
  | .endl _ w => some (w, 0xAA)
  | .ptest _ w => some (w, 0xAC)
  | .nop _ w => some (w, 0xAE)
  | .endStep _ w => some (w, 0xAF)
  | .bset _ w => some (w, 0xC0)
  | .belay _ w => some (w, 0xC1)
  | .belayStageReady _ _ => none
  | .belayCreditGrant _ _ _ => none
  | .belayRowReceive _ _ _ _ => none
  | .belayTimeout _ _ => none
  | .qpush _ w => some (w, 0xE0)
  | .qpop _ w => some (w, 0xE1)
  | .qpopWake _ _ => none
  | .qtry _ w => some (w, 0xE2)
  | .twait _ w => some (w, 0xE8)
  | .twaitDone _ _ => none
  | .ttime _ w => some (w, 0xE9)
  | .startTake _ => none
  | .clearFault _ _ => none
  | .unitDisable _ _ => none
  | .abort _ _ => none
  | .unitEnable _ _ => none
  | .drainDone _ _ => none
  | .seqFlagset _ _ => none
  | .seqFlagclr _ _ => none
  | .accWindowAccess _ _ _ => none
  | .meshPantryAccess _ _ => none
  | .panInvalGo _ _ => none
  | .streamBegin _ _ => none
  | .streamAdmit _ _ _ => none
  | .streamAddr _ _ => none
  | .streamDesc _ _ => none
  | .streamLoop _ _ => none
  | .streamStride _ _ => none
  | .streamIdx _ _ => none
  | .streamFill _ _ => none
  | .streamCvt _ _ => none
  | .streamWina _ _ => none
  | .streamWinb _ _ => none
  | .streamCred _ _ => none
  | .streamGo _ _ _ => none
  | .streamWait _ _ => none
  | .streamSig _ _ => none
  | .streamEnd _ _ => none
  | .streamWaitTimeout _ _ => none
  | .partTimeout _ _ _ => none
  | .strCtlWrite _ _ => none
  | .monGovrun _ _ => none
  | .governorRun _ => none
  | .topoXdispCount => none
  | .xdispRows _ => none
  | .xdCountReceive _ _ _ _ => none
  | .xdRowReceive _ _ _ _ _ _ _ _ => none
  | .topoXdispReturn => none
  | .xdReturnReceive _ _ _ => none
  | .coreXrxWrite _ _ _ _ => none
  | .memRequest _ _ => none
  | .memGrant _ _ => none
  | .memPreempt _ _ => none
  | .hbmPeriodicCal _ => none
  | .zeroFillDone _ => none
  | .hbmPriocommit _ => none
  | .lpPriocommit _ => none
  | .coreMpriocommit _ => none
  | .hbmNmgreq _ _ => none
  | .nmgRun _ _ => none
  | .nmgDone _ => none
  | .packetPush _ _ _ _ => none
  | .packetPop _ _ => none
  | .packetBreak _ => none
  | .qpQcfgWrite _ _ => none
  | .qpFlush _ _ => none
  | .tbTimeset _ => none
  | .syncInEdge _ => none
  | .timeLock => none
  | .refLost _ => none
  | .holdoverExpiry => none
  | .timeRequest _ => none
  | .timeRequestReceive _ _ _ => none
  | .timeReply _ _ _ _ _ _ => none
  | .syncOutPulse => none
  | .pitchStart => none
  | .topoStart => none
  | .topoSwap => none
  | .topoLinkwin => none
  | .linkwinEnd _ => none
  | .topoColl => none
  | .topoCalwin => none
  | .topoDeadline => none
  | .topoSleep => none
  | .topoHeart => none
  | .topoEpoch => none
  | .flitReceive _ _ => none
  | .retryRequest _ _ => none
  | .ackTimeout _ => none
  | .recordClose _ => none
  | .sealReceive _ _ => none
  | .packetForward _ => none
  | .pktWrite _ => none
  | .pktRead _ => none
  | .pktResponse _ => none
  | .linkDown _ _ => none
  | .linkRetrainTimer _ => none
  | .trainingDone _ _ _ _ => none
  | .trainingTimeout _ => none
  | .linkKeying _ _ => none
  | .rekey _ => none
  | .retrain _ => none
  | .wakeTx _ => none
  | .wakeDet _ => none
  | .collFailNotice _ _ _ _ _ => none
  | .collTimeout _ _ => none
  | .collEnd _ => none
  | .rdShared _ _ _ => none
  | .rdOwn _ _ _ => none
  | .rdNc _ _ _ _ => none
  | .wrNc _ _ _ _ => none
  | .wrPart _ _ _ _ _ => none
  | .wbDirty _ _ _ _ => none
  | .evict _ _ _ => none
  | .snpRsp _ _ _ => none
  | .snoopTimeout _ _ => none
  | .menuReq _ _ _ _ => none
  | .doorbell _ _ _ _ => none
  | .popWaitExpiry _ => none
  | .cData _ _ _ _ => none
  | .cCmp _ _ _ => none
  | .cInv _ _ _ => none
  | .nzFlitReceive _ _ => none
  | .msgSend _ => none
  | .msgResend _ => none
  | .halfDown _ => none
  | .nzKeying _ _ _ => none
  | .nzRetrain _ => none
  | .nzRekey _ => none
  | .porNAssert => none
  | .resetNAssert => none
  | .resetRelease _ => none
  | .imageRead => none
  | .imageReadDone => none
  | .weightLoadDone _ => none
  | .loadWaitExpiry => none
  | .erase _ => none
  | .program _ => none
  | .bootRead _ => none
  | .verify _ => none
  | .flashCmdDone _ => none
  | .bootReset => none
  | .lardWrite _ _ _ => none
  | .lardWriteDone => none
  | .getId _ => none
  | .attest _ => none
  | .challenge _ => none
  | .debugOpen _ => none
  | .pwTry _ _ => none
  | .pwSet _ _ => none
  | .pwClear _ => none
  | .commitVersion _ => none
  | .ownSet _ => none
  | .ownClear _ => none
  | .debugClose _ => none
  | .never _ => none
  | .nonceExpiry => none
  | .trngFail => none
  | .heartbeatReceive _ _ => none
  | .attachWaitExpiry => none
  | .attachMsg _ _ => none
  | .resyncDone => none
  | .rejoinPitch => none
  | .detach => none
  | .attach => none
  | .detachAck => none
  | .pairDetach => none
  | .releasePitch => none
  | .pwrReqActive _ => none
  | .pwrReqIdle => none
  | .pwrReqNap _ => none
  | .pwrReqBivouac _ _ => none
  | .pwrReqWatch _ _ => none
  | .domainQuery => none
  | .delayLimExpiry => none
  | .pwrCommit => none
  | .saveDone => none
  | .offStep => none
  | .avsAck => none
  | .avsTimeout => none
  | .wakeNLow => none
  | .nzIdleExit _ => none
  | .wakePitch => none
  | .tempWake _ => none
  | .railWake _ _ => none
  | .watchSample _ => none
  | .wakeStep => none
  | .restoreDone _ => none
  | .pwrPadRelease _ => none
  | .ungate _ => none
  | .opChange _ => none
  | .thermalStep _ => none
  | .thermtrip _ => none
  | .vddAonLow => none
  | .railUndervolt => none
  | .fltBistreq _ => none
  | .bistStart _ _ => none
  | .bistDone _ _ _ => none
  | .bistRefuse _ _ => none
  | .fltCalreq _ => none
  | .serdesCalDone _ _ => none
  | .fieldRestore _ _ => none
  | .monWindowEnd _ => none
  | .monClr _ => none
  | .monCfgWrite _ _ => none
  | .registerWrite _ _ _ => none
  | .secCmdDone => none
  | .monSample _ _ => none

/-- The opcode of a step word (Table 11-3). -/
def wordOpcode (w : StepWord) : Nat := w.toNat / 2 ^ 120

/-- A step word holds its row's opcode. -/
def Instr.opcodeOk (i : Instr) : Bool := match i.step? with
  | some (w, op) => wordOpcode w == op
  | none => true

/-- An access names at least one byte. -/
def accessOk (a : Access) : Bool := match a.data with
  | some d => decide (1 ≤ d.length)
  | none => decide (1 ≤ a.len)

/-- A packet has 1 to 4,096 B of body (R472). -/
def pktOk (p : Pkt) : Bool := decide (1 ≤ p.body.length) && decide (p.body.length ≤ 4096)

/-- The OSM rows share an opcode: a word belongs to the row of its FUNC, and to each of them where its FUNC is none of theirs
(Table 11-9, R328). -/
def funcOk (w : StepWord) (func : Nat) : Bool := w.toNat % 64 == func || decide (2 < w.toNat % 64)

/-- What a command's operands must be beside the opcode: the lengths of lists and counts, and the FUNC of an OSM step. -/
def Instr.sizeOk : Instr → Bool
  | .load _ _ => true
  | .loadBegin _ _ _ => true
  | .loadDone _ _ => true
  | .pass _ _ => true
  | .planeSwap _ _ => true
  | .feed _ _ => true
  | .feedStart _ _ _ => true
  | .exportStep _ _ => true
  | .aclr _ _ => true
  | .asave _ _ => true
  | .arestore _ _ => true
  | .fres _ _ => true
  | .fpres _ _ => true
  | .fflush _ _ => true
  | .frel _ _ => true
  | .fillDeadline _ _ => true
  | .fillWatchdog _ _ _ => true
  | .coreFgctxWrite _ _ _ => true
  | .disp _ _ => true
  | .dispResume _ _ => true
  | .sop _ _ => true
  | .sieveJobStart _ _ _ _ => true
  | .mergeTileClose _ _ => true
  | .sdrain _ _ => true
  | .sclr _ _ => true
  | .vop _ _ => true
  | .vred _ _ => true
  | .vrow _ _ => true
  | .osmUpdate _ w => funcOk w 0
  | .osmRescale _ w => funcOk w 1
  | .osmFinal _ w => funcOk w 2
  | .quant _ _ => true
  | .tileOutputWrite _ => true
  | .vecAmaxWrite _ _ _ => true
  | .strm _ _ => true
  | .copy _ _ => true
  | .trickle _ _ => true
  | .trickleDone _ _ => true
  | .dload _ _ => true
  | .dstore _ _ => true
  | .dset _ _ => true
  | .fset _ _ => true
  | .fsigr _ _ => true
  | .fwait _ _ => true
  | .fence _ _ => true
  | .guardSatisfied _ _ => true
  | .slotTimeout _ => true
  | .alu _ _ => true
  | .movi _ _ => true
  | .cmp _ _ => true
  | .plog _ _ => true
  | .ld _ _ => true
  | .st _ _ => true
  | .br _ _ => true
  | .loop _ _ => true
  | .endl _ _ => true
  | .ptest _ _ => true
  | .nop _ _ => true
  | .endStep _ _ => true
  | .bset _ _ => true
  | .belay _ _ => true
  | .belayStageReady _ _ => true
  | .belayCreditGrant _ _ _ => true
  | .belayRowReceive _ _ _ row => row.row.length == 64
  | .belayTimeout _ _ => true
  | .qpush _ _ => true
  | .qpop _ _ => true
  | .qpopWake _ _ => true
  | .qtry _ _ => true
  | .twait _ _ => true
  | .twaitDone _ _ => true
  | .ttime _ _ => true
  | .startTake _ => true
  | .clearFault _ _ => true
  | .unitDisable _ _ => true
  | .abort _ _ => true
  | .unitEnable _ _ => true
  | .drainDone _ _ => true
  | .seqFlagset _ _ => true
  | .seqFlagclr _ _ => true
  | .accWindowAccess who addr op => accessOk (op.access who addr)
  | .meshPantryAccess a _ => accessOk a
  | .panInvalGo _ _ => true
  | .streamBegin _ _ => true
  | .streamAdmit _ _ _ => true
  | .streamAddr _ _ => true
  | .streamDesc _ _ => true
  | .streamLoop _ _ => true
  | .streamStride _ _ => true
  | .streamIdx _ _ => true
  | .streamFill _ _ => true
  | .streamCvt _ _ => true
  | .streamWina _ _ => true
  | .streamWinb _ _ => true
  | .streamCred _ _ => true
  | .streamGo _ _ _ => true
  | .streamWait _ _ => true
  | .streamSig _ _ => true
  | .streamEnd _ _ => true
  | .streamWaitTimeout _ _ => true
  | .partTimeout _ _ _ => true
  | .strCtlWrite _ _ => true
  | .monGovrun _ _ => true
  | .governorRun _ => true
  | .topoXdispCount => true
  | .xdispRows _ => true
  | .xdCountReceive _ _ _ _ => true
  | .xdRowReceive _ _ _ _ _ _ _ _ => true
  | .topoXdispReturn => true
  | .xdReturnReceive _ _ _ => true
  | .coreXrxWrite _ _ _ _ => true
  | .memRequest _ r => decide (1 ≤ r.words) && (match r.data with
      | some d => d.length == 64 * r.words
      | none => true)
  | .memGrant _ _ => true
  | .memPreempt _ _ => true
  | .hbmPeriodicCal _ => true
  | .zeroFillDone _ => true
  | .hbmPriocommit _ => true
  | .lpPriocommit _ => true
  | .coreMpriocommit _ => true
  | .hbmNmgreq _ _ => true
  | .nmgRun _ _ => true
  | .nmgDone _ => true
  | .packetPush _ _ data _ => decide (1 ≤ data.length) && decide (data.length ≤ 4096)
  | .packetPop _ _ => true
  | .packetBreak _ => true
  | .qpQcfgWrite _ _ => true
  | .qpFlush _ _ => true
  | .tbTimeset _ => true
  | .syncInEdge _ => true
  | .timeLock => true
  | .refLost _ => true
  | .holdoverExpiry => true
  | .timeRequest _ => true
  | .timeRequestReceive _ _ _ => true
  | .timeReply _ _ _ _ _ _ => true
  | .syncOutPulse => true
  | .pitchStart => true
  | .topoStart => true
  | .topoSwap => true
  | .topoLinkwin => true
  | .linkwinEnd _ => true
  | .topoColl => true
  | .topoCalwin => true
  | .topoDeadline => true
  | .topoSleep => true
  | .topoHeart => true
  | .topoEpoch => true
  | .flitReceive _ _ => true
  | .retryRequest _ _ => true
  | .ackTimeout _ => true
  | .recordClose _ => true
  | .sealReceive _ _ => true
  | .packetForward p => pktOk p
  | .pktWrite p => pktOk p
  | .pktRead p => pktOk p
  | .pktResponse p => pktOk p
  | .linkDown _ _ => true
  | .linkRetrainTimer _ => true
  | .trainingDone _ _ _ _ => true
  | .trainingTimeout _ => true
  | .linkKeying _ _ => true
  | .rekey _ => true
  | .retrain _ => true
  | .wakeTx _ => true
  | .wakeDet _ => true
  | .collFailNotice _ _ _ _ _ => true
  | .collTimeout _ _ => true
  | .collEnd _ => true
  | .rdShared _ _ _ => true
  | .rdOwn _ _ _ => true
  | .rdNc _ _ _ lines => decide (1 ≤ lines)
  | .wrNc _ _ _ data => decide (1 ≤ data.length) && data.length % 64 == 0
  | .wrPart _ _ _ data _ => data.length == 64
  | .wbDirty _ _ _ data => data.length == 64
  | .evict _ _ _ => true
  | .snpRsp _ _ data => match data with
    | some d => d.length == 64
    | none => true
  | .snoopTimeout _ _ => true
  | .menuReq _ _ _ _ => true
  | .doorbell _ _ _ _ => true
  | .popWaitExpiry _ => true
  | .cData _ _ _ _ => true
  | .cCmp _ _ _ => true
  | .cInv _ _ _ => true
  | .nzFlitReceive _ _ => true
  | .msgSend _ => true
  | .msgResend _ => true
  | .halfDown _ => true
  | .nzKeying _ _ _ => true
  | .nzRetrain _ => true
  | .nzRekey _ => true
  | .porNAssert => true
  | .resetNAssert => true
  | .resetRelease _ => true
  | .imageRead => true
  | .imageReadDone => true
  | .weightLoadDone _ => true
  | .loadWaitExpiry => true
  | .erase _ => true
  | .program _ => true
  | .bootRead _ => true
  | .verify _ => true
  | .flashCmdDone _ => true
  | .bootReset => true
  | .lardWrite _ _ _ => true
  | .lardWriteDone => true
  | .getId _ => true
  | .attest _ => true
  | .challenge _ => true
  | .debugOpen _ => true
  | .pwTry _ _ => true
  | .pwSet _ _ => true
  | .pwClear _ => true
  | .commitVersion _ => true
  | .ownSet _ => true
  | .ownClear _ => true
  | .debugClose _ => true
  | .never _ => true
  | .nonceExpiry => true
  | .trngFail => true
  | .heartbeatReceive _ _ => true
  | .attachWaitExpiry => true
  | .attachMsg _ _ => true
  | .resyncDone => true
  | .rejoinPitch => true
  | .detach => true
  | .attach => true
  | .detachAck => true
  | .pairDetach => true
  | .releasePitch => true
  | .pwrReqActive _ => true
  | .pwrReqIdle => true
  | .pwrReqNap _ => true
  | .pwrReqBivouac _ _ => true
  | .pwrReqWatch _ _ => true
  | .domainQuery => true
  | .delayLimExpiry => true
  | .pwrCommit => true
  | .saveDone => true
  | .offStep => true
  | .avsAck => true
  | .avsTimeout => true
  | .wakeNLow => true
  | .nzIdleExit _ => true
  | .wakePitch => true
  | .tempWake _ => true
  | .railWake _ _ => true
  | .watchSample _ => true
  | .wakeStep => true
  | .restoreDone _ => true
  | .pwrPadRelease _ => true
  | .ungate _ => true
  | .opChange _ => true
  | .thermalStep _ => true
  | .thermtrip _ => true
  | .vddAonLow => true
  | .railUndervolt => true
  | .fltBistreq _ => true
  | .bistStart _ _ => true
  | .bistDone _ _ _ => true
  | .bistRefuse _ _ => true
  | .fltCalreq _ => true
  | .serdesCalDone _ _ => true
  | .fieldRestore _ _ => true
  | .monWindowEnd _ => true
  | .monClr _ => true
  | .monCfgWrite _ _ => true
  | .registerWrite _ _ data => decide (1 ≤ data.length)
  | .secCmdDone => true
  | .monSample _ _ => true

/-- A well-formed command. -/
def Instr.wf (i : Instr) : Bool := i.opcodeOk && i.sizeOk

end Sys2Proof
end

