-- ==== Sys2Proof/Safety.lean ====
section
/-! DEFINITION. What statements about the whole block are made of: the canonical form of its memory, a run without a stop, and
when a step command issues. -/
namespace Sys2Proof

open Machine

/-- The memory of a state is in canonical form: addresses strictly rising, no listed byte equal to what an unlisted address
reads as. -/
abbrev MemOk (s : State) : Prop := Memory.wf s.mem = true

/-- A step is safe where it neither faults nor refuses. -/
def SafeStep (s : State) : Prop := ∃ t, step s = .next t

/-- The device runs: no thermal trip has stopped it (R673). -/
abbrev Live (s : State) : Prop := s.pwr.trip = false

/-- Core c issues the step word w now, and nothing holds, skips or rejects it at issue: the sequencer may take it, it decodes
(Table 11-5), no predicate it names is still to be written (R321), its predicate lets it execute (R343), its guards hold
(R346, R347), its unit is enabled (R355), and every transfer of the step before it has a place in the trickle queue (R322). -/
abbrev StepReady (s : State) (c : Core) (w : StepWord) : Prop :=
  Live s ∧ s.mayIssue c w = true ∧ decodeBad w = none ∧ (namedP w).any (s.core c).pendingP.contains = false
    ∧ (s.seq c).predicate w = true ∧ s.addrBad c w = false ∧ s.guardHolds c w = none ∧ s.unitOff c w = false
    ∧ (s.core c).trk.length ≤ 8

/-- A step that has issued from s, its own effect being t: the sequencer goes on to pc, and what waited in the core's units
moves on. -/
def stepDone (t : State) (c : Core) (pc : BitVec 20) : State := (t.advancePc c pc true).settle c

/-- The scale words of the descriptors of a step are delivered, and none holds the byte 0x80 (R342, R613). -/
abbrev ScalesOk (s : State) (c : Core) (ds : List Desc) : Prop :=
  (s.scaleReads c ds).1 = 0 ∧ ds.any (fun d => ((s.scaleReads c ds).2.tensorExp c d).isNone) = false

/-- No queued vector step and no routed dispatch of core c waits for something that a sequencer step could change. -/
abbrev UnitsQuiet (s : State) (c : Core) : Prop := (s.vec c).jobs = [] ∧ (s.sieve c).routed = []

/-- The commands of core c that hold step word w, one of every row of Tables 11-6 to 11-13. -/
def stepRows (c : Core) (w : StepWord) : List Instr :=
  [.load c w, .pass c w, .feed c w, .exportStep c w, .aclr c w, .asave c w, .arestore c w, .fres c w, .fpres c w,
   .fflush c w, .frel c w, .disp c w, .sop c w, .sdrain c w, .sclr c w, .vop c w, .vred c w, .vrow c w, .osmUpdate c w,
   .osmRescale c w, .osmFinal c w, .quant c w, .strm c w, .copy c w, .trickle c w, .dload c w, .dstore c w, .dset c w,
   .fset c w, .fsigr c w, .fwait c w, .fence c w, .alu c w, .movi c w, .cmp c w, .plog c w, .ld c w, .st c w, .br c w,
   .loop c w, .endl c w, .ptest c w, .nop c w, .endStep c w, .bset c w, .belay c w, .qpush c w, .qpop c w, .qtry c w,
   .twait c w, .ttime c w]

/-- The registers of a state are in canonical form. -/
abbrev RegsOk (s : State) : Prop := SMap.wf regReset s.regs = true

end Sys2Proof
end

