-- ==== Sys2Proof/Certificates/Slice0/Obligations.lean ====
section
/-! DEFINITION. The statements about the block: what its queue does, what every command answers and leaves unchanged, family
by family, and the invariants that every step keeps. -/

open Sys2Proof Sys2Proof.Machine

/-! ### The block as a whole -/

/-- A step takes the command at the front of the queue and runs it on the queue's rest; on an empty queue the block idles (the
model's choice, log entry 1). -/
def Obligations.StepRunsTheFront : Prop :=
  (∀ (s : State) (i : Instr) (rest : List Instr), step { s with pending := i :: rest } = exec i { s with pending := rest }) ∧
  (∀ s : State, s.pending = [] → step s = .next s)

/-- Every well-formed command is answered by a next state, in every state: ordinary data never stops the block.
The model's choices: log entry 7. -/
def Obligations.EveryCommandAnswers : Prop :=
  ∀ (s : State) (i : Instr), i.wf = true → ∃ t, exec i s = .next t

/-- A step command whose word holds the known opcode of another row is refused by name. The model's choices: log entry 8. -/
def Obligations.OtherRowsWordRefused : Prop :=
  ∀ (s : State) (i : Instr) (w : StepWord) (op : Nat), Live s → i.step? = some (w, op) → opcodeKnown (wordOpcode w) = true →
    wordOpcode w ≠ op → exec i s = .refused .illFormed

/-- R673: once THERMTRIP_N is asserted only POR_N starts the device again. Until then the reset pins and a low VDD_AON can only
put it back into reset with the trip still held, a larder write that is under way can end, and every other command leaves the
state as it is. The model's choices: log entry 57. -/
def Obligations.ThermalTripHolds : Prop :=
  ∀ (s t : State) (i : Instr) (rest : List Instr), s.pwr.trip = true → s.pending = i :: rest → step s = .next t →
    (i ≠ .porNAssert → t.pwr.trip = true) ∧
    ((i ≠ .porNAssert ∧ i ≠ .resetNAssert ∧ i ≠ .vddAonLow ∧ i ≠ .lardWriteDone ∧ ∀ temp, i ≠ .thermtrip temp) →
      t = { s with pending := rest })

/-- The memory of every state that a step reaches is in canonical form if it was before. The model's choices: log entry 4. -/
def Obligations.StepKeepsMemoryForm : Prop :=
  ∀ s t : State, MemOk s → step s = .next t → MemOk t

/-- The block right after reset: no command waits, memory is in canonical form and reads zero (R401), every sequencer is IDLE with
no start, no stall and every flag EMPTY, every unit is enabled and idle, no queue holds a packet, links and halves are OFF,
boot is STARTING, the pair is UNPAIRED, the device is ACTIVE with every domain on, and the registers below read the reset
values that their chapters give. The model's choices: log entries 2, 3, 4. -/
def Obligations.ResetState : Prop :=
  let r := State.reset
  r.pending = [] ∧ MemOk r ∧ RegsOk r ∧ (∀ a, Memory.get r.mem a = 0) ∧ Live r ∧
  (∀ c : Core, (r.seq c).st = .idle ∧ (r.seq c).starts = [] ∧ (r.seq c).stall = none ∧ (∀ k, r.flag c k = false) ∧
    (∀ u : Fin 13, (r.core c).getUnit u = .enabled) ∧ (r.core c).allIdle = true) ∧
  (∀ q, (r.queue q).pkts = []) ∧ (∀ l : Link, (r.link l).st = 0) ∧ (∀ h : Half, (r.half h).st = 0) ∧
  r.boot.st = 0 ∧ r.pair.st = 0 ∧ r.pwr.st = 0 ∧ (∀ d, d < 80 → r.powered d = true) ∧ r.tb.time = 0 ∧ r.tb.st = 0 ∧
  (∀ c : Core, r.reg (rSrstate c) = 0x9E3779B9 ∧ r.reg (rTilectl c) = 0x200 ∧ r.reg (rEn c) = 0x1FFF ∧
    r.reg (rSeqCtl c) = 0x3E8 ∧ r.reg (rStrCtl c) = 0x3E8) ∧
  r.reg (rQcfg 0) = 0x0800200000020400 ∧ r.reg rTbCfg = 0x000007D004E20000 ∧ r.reg rNzCfg = 0xA ∧ r.reg rBootCtl = 0x2710 ∧ r.reg rPairGen = 0xFFFFFFFF00000000 ∧
  r.reg rPwrRetcfg = 0x1000 ∧ r.reg rPwrCfg = 0x191F4190 ∧ r.reg rFltCtl = 0xC8

/-- R54: a counter field that advances by n holds the sum, or stays at 0xFFFF_FFFF, and the other field of its register and every
other register keep their value; advances by several units add up. A write of 0xFFFF_FFFF to a counter field clears it to zero
and leaves the other field. -/
def Obligations.CountersSaturate : Prop :=
  ∀ (s : State) (a n m : Nat), RegsOk s →
    (s.bumpLo a n).rf a 0 32 = min 0xFFFFFFFF (s.rf a 0 32 + n) ∧ (s.bumpLo a n).rf a 32 32 = s.rf a 32 32 ∧
    (s.bumpHi a n).rf a 32 32 = min 0xFFFFFFFF (s.rf a 32 32 + n) ∧ (s.bumpHi a n).rf a 0 32 = s.rf a 0 32 ∧
    ((s.bumpLo a n).bumpLo a m).rf a 0 32 = min 0xFFFFFFFF (s.rf a 0 32 + (n + m)) ∧
    ((s.bumpHi a n).bumpHi a m).rf a 32 32 = min 0xFFFFFFFF (s.rf a 32 32 + (n + m)) ∧
    (∀ b, b ≠ a → (s.bumpLo a n).reg b = s.reg b ∧ (s.bumpHi a n).reg b = s.reg b) ∧
    (∀ (who : Writer) (p : RegPlace), p.kind = cntBoth ∨ p.kind = cntLow →
      let t := s.regWrite who a 0x00000000FFFFFFFF p
      t.rf a 0 32 = 0 ∧ t.rf a 32 32 = s.rf a 32 32 ∧ ∀ b, b ≠ a → t.reg b = s.reg b) ∧
    (∀ (who : Writer) (p : RegPlace), p.kind = cntBoth →
      let t := s.regWrite who a 0xFFFFFFFF00000000 p
      t.rf a 32 32 = 0 ∧ t.rf a 0 32 = s.rf a 0 32 ∧ ∀ b, b ≠ a → t.reg b = s.reg b)

/-! ### Steps of a recipe -/

/-- The scalar, descriptor and flag steps have their effect in the cycle of issue (Tables 11-10 to 11-13).
The model's choices: log entry 24. -/
def Obligations.ScalarStepsComplete : Prop :=
  ∀ (s : State) (c : Core) (w : StepWord), StepReady s c w →
    let q := s.seq c
    let pc := q.pc + 1
    (W.opcode w = 0xA0 → exec (.alu c w) s = .next (stepDone (s.onSeq c (fun q =>
      q.setX (W.aXD w) (aluFn (W.aSUB w) (q.getX (W.aXA w)) (q.opB w)))) c pc)) ∧
    (W.opcode w = 0xA1 → exec (.movi c w) s = .next (stepDone (s.onSeq c (fun q =>
      q.setX (W.aXD w) (BitVec.ofNat 64 (W.imm w)))) c pc)) ∧
    (W.opcode w = 0xA2 → exec (.cmp c w) s = .next (stepDone (s.onSeq c (fun q =>
      q.setP (W.aPD w) (cmpFn (W.aSUB w) (q.getX (W.aXA w)) (q.opB w)))) c pc)) ∧
    (W.opcode w = 0xA3 → exec (.plog c w) s = .next (stepDone (s.onSeq c (fun q =>
      q.setP (W.aPD w) (plogFn (W.aSUB w) (q.getP (W.imm w % 8)) (q.getP (W.imm w / 8 % 8))))) c pc)) ∧
    (W.opcode w = 0xE9 → exec (.ttime c w) s = .next (stepDone (s.onSeq c (fun q =>
      q.setX (W.dXD w) (BitVec.ofNat 64 (if (W.imm w).testBit 0 then s.tb.pitch else s.tb.time.toNat)))) c pc)) ∧
    (W.opcode w = 0x80 → exec (.fset c w) s = .next (stepDone (s.setFlag c (W.dFLAG w) (W.dSTATE w)) c pc)) ∧
    (W.opcode w = 0xAE → exec (.nop c w) s = .next (stepDone s c pc)) ∧
    (W.opcode w = 0x65 → exec (.dset c w) s = .next (stepDone ((s.onSeq c (fun q =>
      q.setT (W.ta w) (dsetFn (W.fn w 0 3) (q.getT (W.ta w)) (q.getX (W.xa w)).toNat))).guardDone c (W.guard w)) c pc))

/-- R336: ALU results wrap modulo 2^64, and nothing is counted. Shift counts use bits [5:0] of B. A set or clear condition of SUB 4
or 5 ignores its sources. -/
def Obligations.AluResults : Prop :=
  ∀ (s : State) (c : Core) (w : StepWord), StepReady s c w → UnitsQuiet s c →
    (W.opcode w = 0xA0 → ∃ t, exec (.alu c w) s = .next t ∧ t.regs = s.regs ∧
      let a := (s.seq c).getX (W.aXA w)
      let b := (s.seq c).opB w
      let v := (t.seq c).getX (W.aXD w)
      (W.aSUB w = 0 → v.toNat = (a.toNat + b.toNat) % 2 ^ 64) ∧
      (W.aSUB w = 1 → v.toNat = (a.toNat + 2 ^ 64 - b.toNat) % 2 ^ 64) ∧
      (W.aSUB w = 2 → ∀ i, v.getLsbD i = (a.getLsbD i && b.getLsbD i)) ∧
      (W.aSUB w = 3 → ∀ i, v.getLsbD i = (a.getLsbD i || b.getLsbD i)) ∧
      (W.aSUB w = 4 → ∀ i, v.getLsbD i = (a.getLsbD i != b.getLsbD i)) ∧
      (W.aSUB w = 5 → v.toNat = a.toNat * 2 ^ fld b 0 6 % 2 ^ 64) ∧
      (W.aSUB w = 6 → v.toNat = a.toNat / 2 ^ fld b 0 6) ∧
      (W.aSUB w = 7 → v.toInt = a.toInt / 2 ^ fld b 0 6) ∧
      (W.aSUB w = 8 → v.toNat = a.toNat * b.toNat % 2 ^ 64) ∧
      (W.aSUB w = 9 → v.toInt = min a.toInt b.toInt) ∧
      (W.aSUB w = 10 → v.toInt = max a.toInt b.toInt)) ∧
    (W.opcode w = 0xA3 → ∃ t, exec (.plog c w) s = .next t ∧
      (W.aSUB w = 4 → (t.seq c).getP (W.aPD w) = true) ∧ (W.aSUB w = 5 → (t.seq c).getP (W.aPD w) = false))

/-- What the scalar steps leave unchanged: memory, the registers of the block, every other core, the units of the core, and all
of the sequencer's own registers and flags but the one that the step writes. The model's choices: log entry 24. -/
def Obligations.ScalarStepsFrame : Prop :=
  ∀ (s t : State) (c : Core) (w : StepWord) (i : Instr), StepReady s c w → UnitsQuiet s c →
    (i ∈ [.alu c w, .movi c w, .cmp c w, .plog c w, .ttime c w, .fset c w, .nop c w, .br c w, .loop c w, Instr.endl c w]) →
    i.opcodeOk = true → exec i s = .next t →
    let q := s.seq c
    let r := t.seq c
    t.mem = s.mem ∧ t.regs = s.regs ∧ t.queues = s.queues ∧ (∀ d, d ≠ c → t.core d = s.core d) ∧
    { t.core c with seq := q } = s.core c ∧ r.t = q.t ∧ r.starts = q.starts ∧
    (∀ k, ¬ ((i = .alu c w ∨ i = .movi c w) ∧ k = W.aXD w) → ¬ (i = .ttime c w ∧ k = W.dXD w) → r.getX k = q.getX k) ∧
    (∀ k, ¬ ((i = .cmp c w ∨ i = .plog c w) ∧ k = W.aPD w) → r.getP k = q.getP k) ∧
    (∀ k, ¬ ((i = .loop c w ∨ i = .endl c w) ∧ k = W.eLC w) → r.getL k = q.getL k) ∧
    (∀ k, ¬ (i = .fset c w ∧ k = W.dFLAG w) → t.flag c k = s.flag c k)

/-- R343: when a step's selected predicate does not match PSENSE, the step is skipped. It takes one issue cycle and does nothing
else. It checks no guard, changes no flag or register, and enters no queue. SKIPPED advances by one. -/
def Obligations.SkippedStepsDoNothing : Prop :=
  ∀ (s : State) (c : Core) (w : StepWord) (i : Instr), Live s → RegsOk s → i ∈ stepRows c w → i.wf = true → s.mayIssue c w = true →
    decodeBad w = none → (namedP w).any (s.core c).pendingP.contains = false → (s.core c).trk.length ≤ 8 →
    (s.seq c).predicate w = false →
    ∃ t, exec i s = .next t ∧ (t.seq c).pc = (s.seq c).pc + 1 ∧
      t.rf (rSeqCnt c 1) 0 32 = min 0xFFFFFFFF (s.rf (rSeqCnt c 1) 0 32 + 1) ∧
      t.rf (rSeqCnt c 1) 32 32 = s.rf (rSeqCnt c 1) 32 32 ∧ (∀ a, a ≠ rSeqCnt c 1 → t.reg a = s.reg a) ∧ t.mem = s.mem ∧ t.queues = s.queues ∧ (∀ d, d ≠ c → t.core d = s.core d) ∧
      { t.core c with seq := s.seq c } = s.core c ∧ (t.seq c).x = (s.seq c).x ∧ (t.seq c).p = (s.seq c).p ∧
      (t.seq c).l = (s.seq c).l ∧ (t.seq c).t = (s.seq c).t ∧ (t.seq c).f = (s.seq c).f ∧ (t.seq c).starts = (s.seq c).starts

/-- BR, LOOP, ENDL and END, and the waits that are met at issue: FWAIT, FENCE and TWAIT. The model's choices: log entry 24. -/
def Obligations.FlowStepsComplete : Prop :=
  ∀ (s : State) (c : Core) (w : StepWord), StepReady s c w →
    let q := s.seq c
    let away := q.pc + BitVec.ofInt 20 (W.eTARGET w)
    let n : W32 := if W.eXSRC w then BitVec.ofNat 32 (q.getX (W.eXA w)).toNat else W.eCOUNT w
    (W.opcode w = 0xA8 → exec (.br c w) s = .next (stepDone s c away)) ∧
    (W.opcode w = 0xA9 → exec (.loop c w) s =
      .next (stepDone (s.onSeq c (fun q => q.setL (W.eLC w) n)) c (if n = 0 then away else q.pc + 1))) ∧
    (W.opcode w = 0xAA → exec (.endl c w) s =
      .next (stepDone (s.onSeq c (fun q => q.setL (W.eLC w) (q.getL (W.eLC w) - 1))) c
        (if q.getL (W.eLC w) - 1 = 0 then q.pc + 1 else away))) ∧
    (W.opcode w = 0xAF → exec (.endStep c w) s =
      .next (stepDone (s.onSeq c (fun q => { q with ending := some (if (W.imm w).testBit 6 then some (W.imm w % 64) else none) }))
        c (q.pc + 1))) ∧
    (W.opcode w = 0x82 → s.flag c (W.dFLAG w) = W.dSTATE w → exec (.fwait c w) s = .next (stepDone s c (q.pc + 1))) ∧
    (W.opcode w = 0x83 → s.fenceMet c (W.imm w) = true → exec (.fence c w) s = .next (stepDone s c (q.pc + 1))) ∧
    (W.opcode w = 0xE8 → (W.imm w).testBit 0 = false → fld (q.getX (W.dXA w)) 0 48 ≤ s.tb.pitch →
      (s.reg rTbOrigin).toNat ≤ s.tb.time.toNat →
      exec (.twait c w) s = .next (stepDone s c (q.pc + 1)))

/-- LD and DLOAD: their registers land at issue with the bytes of the own pantry (Tables 11-10 and 11-12), where every word is
delivered; where one is not, the step ends and the sequencer enters FAULTED (R613). The model's choices: log entries 22, 70. -/
def Obligations.PantryReadStepsComplete : Prop :=
  ∀ (s : State) (c : Core) (w : StepWord), StepReady s c w →
    let q := s.seq c
    (W.opcode w = 0xA4 →
      let a := ((q.getX (W.aXA w)).toNat + W.imm w) % 2 ^ 64
      let r := s.readWords 12 [a / 64 * 64]
      (r.1 = 0 → exec (.ld c w) s = .next (stepDone (r.2.onSeq c (fun q =>
        q.setX (W.aXD w) (BitVec.ofNat 64 (natOf (s.rdFull a 8))))) c (q.pc + 1))) ∧
      (r.1 ≠ 0 → exec (.ld c w) s = .next (stepDone (r.2.readFault c) c (q.pc + 1)))) ∧
    (W.opcode w = 0x63 →
      let a := dAddr q w
      let n := W.fn w 0 4 + 1
      let r := s.readWords 12 (wordsAt a (32 * n))
      (r.1 = 0 → exec (.dload c w) s = .next (stepDone ((r.2.onSeq c (fun q => (List.range n).foldl (fun q k =>
        q.setT (W.ta w + k) (BitVec.ofNat 256 (natOf (((s.rdFull a (32 * n)).drop (32 * k)).take 32)))) q)).guardDone c (W.guard w))
        c (q.pc + 1))) ∧
      (r.1 ≠ 0 → exec (.dload c w) s = .next (stepDone (r.2.readFault c) c (q.pc + 1))))

/-- ST, DSTORE, TRICKLE and PTEST put their transfers into the trickle path, which holds eight (Table 11-2, R312); PTEST one for each
header pair that it reads (R344). The model's choices: log entry 22. -/
def Obligations.TrickleStepsComplete : Prop :=
  ∀ (s : State) (c : Core) (w : StepWord), StepReady s c w →
    let q := s.seq c
    let g := W.guard w
    let flag := if g.wge then some g.wf else none
    (W.opcode w = 0x62 → (s.core c).trk.length < 8 → exec (.trickle c w) s = .next (stepDone (s.trkAdd c
      [⟨s.now c, .plain, q.getX (W.xa w), q.getX (W.xb w), W.fn w 0 8 + 1, flag, g, []⟩]) c (q.pc + 1))) ∧
    (W.opcode w = 0xA5 → (s.core c).trk.length < 8 →
      let a : W64 := BitVec.ofNat 64 (lsAddr q w)
      exec (.st c w) s = .next (stepDone (s.trkAdd c
        [⟨s.now c, .store (bytesOf 8 (q.getX (W.aXB w)).toNat), a, a, 8, none, .none, []⟩]) c (q.pc + 1))) ∧
    (W.opcode w = 0xAC → D.hdrp (q.getT (W.ta w)) % 64 = 0 → (s.core c).trk.length < 8 →
      let pairs := ptestAddrs w (q.getT (W.ta w)) (q.getX (W.xa w)).toNat (q.getX (W.xb w)).toNat
      exec (.ptest c w) s = .next (stepDone (s.trkAdd c (pairs.mapIdx (fun i a =>
        let last := i + 1 == pairs.length
        let h := if last then g else .none
        ⟨s.now c, .ptest (W.fn w 5 3) w last [] true, BitVec.ofNat 64 a, 0, 64, h.flag?, h, []⟩))) c (q.pc + 1))) ∧
    (W.opcode w = 0x64 → (s.core c).trk.length < 8 →
      let a := dAddr q w
      let n := W.fn w 0 4 + 1
      let bs := (List.range n).flatMap (fun k => bytesOf 32 (q.getT (W.ta w + k)).toNat)
      let job (off : Nat) (b : List Byte) (g : Guard) : TrkJob :=
        ⟨s.now c, .store b, BitVec.ofNat 64 (a + off), BitVec.ofNat 64 (a + off), b.length, g.flag?, g, []⟩
      exec (.dstore c w) s = .next (stepDone (s.trkAdd c
        (if n ≤ 8 then [job 0 bs g] else [job 0 (bs.take 256) .none, job 256 (bs.drop 256) g])) c (q.pc + 1)))

/-- QPUSH, QPOP and QTRY (Table 11-13, R424 to R430): a push of 1 to 4,096 bytes with its predicate; a pop that finds a packet, of
no bytes, whose bytes go to this device, or to another device and the companion; QTRY where no packet is visible. The model's
choices: log entries 22, 23, 69. The model's choices: log entries 22, 23, 69. -/
def Obligations.QueueStepsComplete : Prop :=
  ∀ (s : State) (c : Core) (w : StepWord), StepReady s c w →
    let q := s.seq c
    let n := W.imm w % 2 ^ 13
    let k := W.dQUEUE w
    let a := (q.getX (W.dXA w)).toNat
    (W.opcode w = 0xE0 → 1 ≤ n → n ≤ 4096 → ∀ bs u, s.stepBytes c a n = (.ok bs, u) →
      let on := u.domOn (76 + dieOf k)
      let t := if on then u.pushPkt k (coreProd c) bs (cellsOf n) else u
      exec (.qpush c w) s = .next (stepDone (if W.dPDE w then t.onSeq c (fun q =>
        q.setP (W.dPD w) (on && (u.lookFreed k).admits k n)) else t) c (q.pc + 1))) ∧
    (∀ bs m broken t u, n ≠ 0 → s.domOn (76 + dieOf k) = true → s.popPkt k n = (.got bs m broken, t) →
      ((bs = [] ∧ u = t) ∨
        (bs ≠ [] ∧ s.farAddr a = false ∧ t.busWrite (.unit c 12) (.program c) 12 (coreProd c) (localOf a) bs = (.done, u)) ∨
        (bs ≠ [] ∧ s.farAddr a = true ∧ s.farRoom a (farPieces a bs.length).length = true ∧
          u = (farPieces a bs.length).foldl (fun t p => t.farAsk (.seq c (2 ^ 66 * (q.issued + 1) + p.1) true) (BitVec.ofNat 64 p.1)
            (some ((bs.drop (p.1 - a)).take p.2))) t)) →
      let v := u.onSeq c (fun q => q.setX (W.dXD w) (BitVec.ofNat 64 (m + 2 ^ 63 * b2n broken)))
      (W.opcode w = 0xE1 → exec (.qpop c w) s = .next (stepDone v c (q.pc + 1))) ∧
      (W.opcode w = 0xE2 → exec (.qtry c w) s = .next (stepDone (v.onSeq c (fun q => q.setP (W.dPD w) true)) c (q.pc + 1)))) ∧
    (W.opcode w = 0xE2 → n ≠ 0 → (s.domOn (76 + dieOf k) = false ∨ (s.popPkt k n).1 = .none) →
      exec (.qtry c w) s = .next (stepDone (s.onSeq c (fun q => q.setP (W.dPD w) false)) c (q.pc + 1)))

/-- FSIGR to a powered core of this device, and to another device (Table 11-11, R335). The model's choices: log entries 24, 37. -/
def Obligations.SignalStepCompletes : Prop :=
  ∀ (s : State) (c k : Core) (w : StepWord), StepReady s c w → W.opcode w = 0x81 → W.imm w % 64 = k.val →
    ((W.imm w).testBit 7 = true → s.fenceMet c 0x3FFF = true) →
    let q := s.seq c
    let step := fld (q.getX (W.dXB w)) 0 20
    let dev : BitVec 16 := if (W.imm w).testBit 6 then BitVec.ofNat 16 (fld (q.getX (W.dXA w)) 0 16) else s.devId
    let u := s.setFlag k (W.dFLAG w) (W.dSTATE w)
    (dev = s.devId → s.coreOn k = true → exec (.fsigr c w) s =
      .next (stepDone (if (W.imm w).testBit 8 then u.requestStart k 2 ⟨step, 0, none⟩ else u) c (q.pc + 1))) ∧
    (dev ≠ s.devId → ∃ p : Pkt, p.dest = dev ∧ exec (.fsigr c w) s = .next (stepDone (s.sendPkt p) c (q.pc + 1)))

/-- BSET writes both words of a belay context, and BELAY starts it (R171, R172, R179), while the context is not busy.
The model's choices: log entry 36. -/
def Obligations.BelayStepsComplete : Prop :=
  ∀ (s : State) (c : Core) (w : StepWord) (n : Fin 8), StepReady s c w → W.fCTX w = n.val → (s.belay c n).busy = false →
    let q := s.seq c
    (W.opcode w = 0xC0 → exec (.bset c w) s = .next (stepDone
      ((s.belayCtxWrite c n false (q.getX (W.fXA w))).belayCtxWrite c n true (q.getX (W.fXB w))) c (q.pc + 1))) ∧
    (W.opcode w = 0xC1 → (Bctl.of (s.reg (rBelayA c n.val)) (s.reg (rBelayB c n.val))).bad = false →
      let b := Bctl.of (s.reg (rBelayA c n.val)) (s.reg (rBelayB c n.val))
      let u : State := { s with wire := s.wire.filter (fun m => !(m.toward c b)) }
      exec (.belay c w) s = .next (stepDone (u.setBelay c n { BelayCtx.reset with
        state := 1, ctlA := s.reg (rBelayA c n.val), ctlB := s.reg (rBelayB c n.val)
        flag := if W.fFLAGEN w then some (W.fFLAG w) else none, wrap := (s.numctl c).intWrap, seq := s.now c
        since := s.pitchMark }) c (q.pc + 1)))

/-- LOAD, PASS, EXPORT, ACLR, ASAVE, ARESTORE and FEED enter the queue of their array or feeder while it has room (Table 11-2,
Table 11-6). The model's choices: log entries 26, 68, 70. -/
def Obligations.ArrayStepsComplete : Prop :=
  ∀ (s : State) (c : Core) (w : StepWord) (a : Arr), StepReady s c w → W.fn w 0 3 = a.val →
    let q := s.seq c
    let d := q.getT (W.ta w)
    let lay := W.fn w 3 3
    let i := (q.getX (W.xa w)).toNat
    let j := (q.getX (W.xb w)).toNat
    let op (u : State) (k : ArrKind) : ArrOp := ⟨u.now c, k, u.numctl c, W.guard w, false, none⟩
    let r := s.scaleReads c [d]
    let e := (r.2.tensorExp c d).getD 0
    (W.opcode w = 0x00 → (s.arr c a).loadq.length < 2 → s.operandBad c 1 d false = none → ScalesOk s c [d] →
      (D.tiled d = false → lay ≠ 4 → lay ≠ 5 →
        exec (.load c w) s = .next (stepDone (r.2.loadEnqueue c a lay (W.guard w) ((layoutTiles lay).map (fun p =>
          ⟨.empty, some (d, i + p.1, j + p.2), e⟩))) c (q.pc + 1))) ∧
      (D.tiled d = true →
        let h := r.2.loadHdrs c d lay i j e
        h.2.1 = false → (lay = 4 ∨ lay = 5 → h.1.any (fun l => s24Refuses lay l.hdr) = false) →
        exec (.load c w) s = .next (stepDone (h.2.2.loadEnqueue c a lay (W.guard w) h.1) c (q.pc + 1)))) ∧
    ((s.arr c a).opq.length < 4 →
      (W.opcode w = 0x01 → W.fn w 3 2 ≠ 2 → exec (.pass c w) s = .next (stepDone (s.arrEnqueue c a (op s
        (.pass (W.fn w 3 2) (W.fnb w 5) (W.fnb w 6) (W.fn w 7 10) (W.fn w 17 10 + 1)
          (if W.fnb w 27 then q.getX (W.xa w) else BitVec.allOnes 64) (if W.fnb w 27 then q.getX (W.xb w) else BitVec.allOnes 64)
          d (q.getX (W.xc w)).toNat 0))) c (q.pc + 1))) ∧
      (W.opcode w = 0x01 → W.fn w 3 2 = 2 → s.operandBad c 1 d false = none → ScalesOk s c [d] →
        exec (.pass c w) s = .next (stepDone (r.2.arrEnqueue c a (op r.2
          (.pass 2 (W.fnb w 5) (W.fnb w 6) (W.fn w 7 10) (W.fn w 17 10 + 1)
            (if W.fnb w 27 then q.getX (W.xa w) else BitVec.allOnes 64) (if W.fnb w 27 then q.getX (W.xb w) else BitVec.allOnes 64)
            d (q.getX (W.xc w)).toNat e))) c (q.pc + 1))) ∧
      (W.opcode w = 0x03 → exec (.exportStep c w) s =
        .next (stepDone (s.arrEnqueue c a (op s (.exportTile (W.fn w 3 4) (W.fnb w 7)))) c (q.pc + 1))) ∧
      (W.fn w 3 4 + W.fn w 7 4 ≤ 15 →
        (W.opcode w = 0x04 → exec (.aclr c w) s =
          .next (stepDone (s.arrEnqueue c a (op s (.clear (64 * W.fn w 3 4) (64 * (W.fn w 7 4 + 1))))) c (q.pc + 1))) ∧
        (operandCode d false = none → ScalesOk s c [d] →
          (W.opcode w = 0x05 → exec (.asave c w) s =
            .next (stepDone (r.2.arrEnqueue c a (op r.2 (.save (W.fn w 3 4) (W.fn w 7 4 + 1) d))) c (q.pc + 1))) ∧
          (W.opcode w = 0x06 → exec (.arestore c w) s =
            .next (stepDone (r.2.arrEnqueue c a (op r.2 (.restore (W.fn w 3 4) (W.fn w 7 4 + 1) d e))) c (q.pc + 1))))))

/-- FEED from a descriptor, a window record and a gathering context enters the queue of its members' feeder (R123, R127, R331).
FRES, FPRES, FFLUSH and FREL on their gathering context (R133 to R137). The model's choices: log entries 26, 35. -/
def Obligations.FeedAndGatherStepsComplete : Prop :=
  (∀ (s : State) (c : Core) (w : StepWord) (f : Arr), StepReady s c w → W.opcode w = 0x02 → feederOfMask c (W.fn w 0 6) = some f →
    ((s.core c).getFeed f).length < 4 →
    let q := s.seq c
    let d := q.getT (W.ta w)
    let xa := (q.getX (W.xa w)).toNat
    let put (u : State) (x : FeedSrc) : State := u.feedEnqueue c f ⟨u.now c, W.fn w 0 6, x, W.fn w 12 10 + 1, W.guard w⟩
    (W.fn w 6 2 = 0 → D.tiled d = false →
      let r := s.scaleReads c [d]
      s.operandBad c 0 d false = none → ScalesOk s c [d] →
      exec (.feed c w) s = .next (stepDone (put r.2 (.desc d xa 0 ((r.2.tensorExp c d).getD 0))) c (q.pc + 1))) ∧
    (W.fn w 6 2 = 1 →
      let r : BitVec 512 := BitVec.ofNat 512 (s.unitWord xa)
      let u := s.readCheck (feedWho c f) xa
      u.1 = 0 → (Win.ofRec r).ok = true → (Win.ofRec r).ty.isSome = true → (Win.ofRec r).base % 64 = 0 →
      exec (.feed c w) s = .next (stepDone (put u.2 (.window r (q.getX (W.xb w)).toNat (q.getX (W.xc w)).toNat)) c (q.pc + 1))) ∧
    (W.fn w 6 2 = 2 → exec (.feed c w) s = .next (stepDone (put s (.gather (W.fn w 8 4))) c (q.pc + 1)))) ∧
  (∀ (s : State) (c : Core) (w : StepWord) (g : Ctx), StepReady s c w → W.imm w % 16 = g.val →
    let q := s.seq c
    (W.opcode w = 0x08 → ∀ f i t, s.reservePlace c g = (some (f, i), t) → exec (.fres c w) s = .next (stepDone (t.onSeq c (fun q =>
      (q.setX (W.aXD w) (t.placeAddr c g.val f i)).setP (W.aPD w) true)) c (q.pc + 1))) ∧
    (W.opcode w = 0x08 → ∀ t, s.reservePlace c g = (none, t) → exec (.fres c w) s = .next (stepDone (t.onSeq c (fun q =>
      q.setP (W.aPD w) false)) c (q.pc + 1))) ∧
    (W.opcode w = 0x09 → ∀ f i, s.placeOf c g (q.getX (W.aXA w)) = some (f, i) →
      exec (.fpres c w) s = .next (stepDone (s.presentPlace c g f i) c (q.pc + 1))) ∧
    (W.opcode w = 0x0A → exec (.fflush c w) s = .next (stepDone (s.closeTime c g) c (q.pc + 1))) ∧
    (W.opcode w = 0x0B → exec (.frel c w) s = .next (stepDone (s.releaseFill c g (W.imm w / 16 % 2)) c (q.pc + 1))))

/-- DISP, SOP, SDRAIN and SCLR enter the sieve job queue while it holds fewer than 16, a dispatch step that is routing keeping one
place (R184, R199, Table 11-8). VOP, VRED, VROW,
OSM UPDATE, RESCALE and FINAL, and QUANT enter the vector queue while it holds fewer than eight (Table 11-2, Table 11-9, R247).
The model's choices: log entries 30, 31, 68. -/
def Obligations.SieveAndVectorStepsComplete : Prop :=
  (∀ (s : State) (c : Core) (w : StepWord), StepReady s c w → (s.sieve c).jobs.length + b2n (s.sieve c).disp.isSome < 16 →
    let q := s.seq c
    let ta := q.getT (W.ta w)
    let tb := q.getT (W.tb w)
    (W.opcode w = 0x20 → s.dispRefusal c w = none → s.tilesRefused c ta = none → s.operandBad c 3 tb (W.fnb w 33) = none →
      ScalesOk s c [ta, tb] →
      let r := s.scaleReads c [ta, tb]
      exec (.disp c w) s = .next (stepDone (r.2.sieveAdd c w
        (.disp w ta tb (q.getX (W.xa w)).toNat (q.getX (W.xb w)).toNat (q.getX (W.xc w)).toNat (q.getX (W.xd w)).toNat
          ((s.tensorExp c ta).getD 0) ((s.tensorExp c tb).getD 0))) c (q.pc + 1))) ∧
    (W.opcode w = 0x21 → s.sopRefusal c w = none → ScalesOk s c (sopDescs q w) →
      exec (.sop c w) s = .next (stepDone ((s.scaleReads c (sopDescs q w)).2.sieveAdd c w (s.sopKind c w)) c (q.pc + 1))) ∧
    (W.opcode w = 0x22 → (D.ety ta).isSome = true → drainBad ta = none → ScalesOk s c [ta] →
      exec (.sdrain c w) s = .next (stepDone ((s.scaleReads c [ta]).2.sieveAdd c w (.drain (W.fn w 0 4) ta (q.getX (W.xa w)).toNat)) c (q.pc + 1))) ∧
    (W.opcode w = 0x23 → W.fn w 0 4 + W.fn w 4 4 ≤ 15 → exec (.sclr c w) s = .next (stepDone
      (s.sieveAdd c w (.clear (W.fn w 0 4) (W.fn w 4 4 + 1))) c (q.pc + 1)))) ∧
  (∀ (s : State) (c : Core) (w : StepWord), StepReady s c w → (s.vec c).jobs.length < 8 →
    let j := s.vecJob c w
    s.vecRefusal c j = none → ScalesOk s c (j.operands.map (·.1) ++ j.dests) →
    let t := stepDone ((s.scaleReads c (j.operands.map (·.1) ++ j.dests)).2.vecEnqueue c j) c ((s.seq c).pc + 1)
    (W.opcode w = 0x40 → exec (.vop c w) s = .next t) ∧
    (W.opcode w = 0x41 → exec (.vred c w) s = .next t) ∧
    (W.opcode w = 0x42 → exec (.vrow c w) s = .next t) ∧
    (W.opcode w = 0x43 → W.fn w 0 6 = 0 → exec (.osmUpdate c w) s = .next t) ∧
    (W.opcode w = 0x43 → W.fn w 0 6 = 1 → exec (.osmRescale c w) s = .next t) ∧
    (W.opcode w = 0x43 → W.fn w 0 6 = 2 → exec (.osmFinal c w) s = .next t) ∧
    (W.opcode w = 0x44 → exec (.quant c w) s = .next t))

/-- STRM and COPY enter the start queue of their engine while it holds fewer than four (R279, R281).
The model's choices: log entries 14, 20. -/
def Obligations.StartStepsComplete : Prop :=
  ∀ (s : State) (c : Core) (w : StepWord), StepReady s c w → (s.eng c (W.engine w)).q.length < 4 →
    (W.opcode w = 0x60 → exec (.strm c w) s =
      .next (stepDone (s.startAdd c (W.engine w) (s.strmJob c w)) c ((s.seq c).pc + 1))) ∧
    (W.opcode w = 0x61 → s.copyRefusal c w = none →
      let ds := [(s.seq c).getT (W.ta w), (s.seq c).getT (W.tb w)]
      let r := s.scaleReads c ds
      ScalesOk s c ds → exec (.copy c w) s =
        .next (stepDone (r.2.startAdd c (W.engine w) (r.2.copyStart c w)) c ((s.seq c).pc + 1)))

/-! ### Events of a core's units -/

/-- Loads and planes: LOAD_BEGIN reads the source tiles into the shadow plane, LOAD_DONE ends the load and sets its guards (R98,
R101), after an FP32 load the passes that it held back are judged (R107), PLANE_SWAP makes the other plane the active one (R103).
R101, R86, R109: after a load that is neither FP32 nor over an FP32 pair of planes, the shadow plane holds what the loader built,
the active plane is the one it was, and a NEXT pass may consume the load. The model's choices: log entries 26, 70. -/
def Obligations.LoadEventsComplete : Prop :=
  (∀ (s : State) (c : Core) (a : Arr), Live s →
    (∀ j rest waited, (s.arr c a).loadq = j :: rest → (s.arr c a).loadMayBegin = true →
      let r := (s.bumpHi (rArrCnt0 c a) waited).readSrcs c j.layout j.srcs
      r.2.1 = false → exec (.loadBegin c a waited) s = .next (r.2.2.setArr c a { r.2.2.arr c a with
        loadq := { j with busy := true, built := some (buildPlanes j.layout r.1) } :: rest })) ∧
    (∀ j rest ps, (s.arr c a).loadq = j :: rest → j.busy = true → j.built = some ps →
      let u := (s.setArr c a ((s.arr c a).finishLoad j ps)).guardDone c j.guard
      (j.layout ≠ 6 → exec (.loadDone c a) s = .next (u.settle c)) ∧
      (j.layout = 6 → exec (.loadDone c a) s = .next ((u.arrAdvance c a ((s.arr c a).opq.length + 1)).settle c))) ∧
    ((s.arr c a).swap = true → exec (.planeSwap c a) s =
      .next (s.setArr c a { s.arr c a with active := !(s.arr c a).active, swap := false }))) ∧
  (∀ (x : ArrSt) (j : LoadJob) (ps : Plane × Plane), j.layout ≠ 6 → x.fp32 = false →
    let y := x.finishLoad j ps
    y.plane (!x.active) = ps.1 ∧ y.plane x.active = x.plane x.active ∧ y.active = x.active ∧ y.loaded = some j.seq ∧
      y.loadq = x.loadq.tail ∧ y.opq = x.opq ∧ y.acc = x.acc)

/-- Feeders and fills: a feed whose vectors are ready runs, a fill closes at its deadline or expires under the watchdog (R123,
R133, R138), and CORE_FGCTXg takes a legal value while both fills are FREE (R145). The model's choices: log entries 26, 35. -/
def Obligations.FeederEventsComplete : Prop :=
  ∀ (s : State) (c : Core), Live s →
    (∀ f j rest starve, (s.core c).getFeed f = j :: rest → s.feedReady c j = true →
      exec (.feedStart c f starve) s = .next ((s.runFeed c f j starve).settle c)) ∧
    (∀ g f, (s.fg c g).openFill = some f → s.fgDeadline c g.val ≠ 0 → ((s.fg c g).fill f).due ≤ s.tb.starts →
      exec (.fillDeadline c g) s = .next (s.closeTime c g)) ∧
    (∀ (g : Ctx) (f : Fin 2), ((s.fg c g).fill f.val).st = .closed →
      watchdogPast (s.slotWd c) ((s.fg c g).fill f.val).closedAt s.tb.starts = true →
      exec (.fillWatchdog c g f) s = .next (s.expireFill c g f.val)) ∧
    (∀ (g : Ctx) (v : W64), s.powered c.val = true → (s.fg c g).f0.st = .free → (s.fg c g).f1.st = .free →
      fld v 38 3 < (if isSolo c then 6 else 2) → (bitOf v 41 = true → fld v 18 12 ≠ 0) → (EType.ofField (fld v 42 5)).isSome = true →
      exec (.coreFgctxWrite c g v) s = .next (s.setReg (rFgctx c g.val) (v &&& 0x00007FFFFFFFFFFF#64)))

/-- The sieve engine: a stalled dispatch goes on, the job at the head starts, and an open tile of the merge buffers is written; the
last one ends its step (R180, R184, R207, R209). The vector unit: an encoded tile leaves its buffer, payload first and header pair
after it, and sets the flag of its step (R63, R245); VEC_AMAXn takes AMAX, NANSEEN and INFSEEN.
The model's choices: log entries 29, 30, 31. -/
def Obligations.SieveAndVectorEventsComplete : Prop :=
  (∀ (s : State) (c : Core), Live s →
    (∀ d waited, (s.sieve c).disp = some d → exec (.dispResume c waited) s =
      .next ((((s.bumpLo (rSieveCnt c 4) waited).dispRun c d (dispFuel d)).sieveAdvance c 40).settle c)) ∧
    (∀ j rest deal bank res, (s.sieve c).headReady = true → (s.sieve c).jobs = j :: rest →
      let u := ((s.bumpHi (rSieveCnt c 1) deal).bumpLo (rSieveCnt c 2) bank).bumpHi (rSieveCnt c 2) res
      exec (.sieveJobStart c deal bank res) s =
        .next ((((u.setSieve c { s.sieve c with jobs := rest }).runSieveJob c j).sieveAdvance c 40).settle c)) ∧
    (∀ m rest waited, (s.sieve c).merge = m :: rest →
      let u := (((s.bumpLo (rSieveCnt c 5) waited).setSieve c { s.sieve c with merge := rest }).closeMerge c m).mergeFill c
      ((u.sieve c).merge ≠ [] → exec (.mergeTileClose c waited) s = .next u) ∧
      ((u.sieve c).merge = [] →
        (∀ g, (u.sieve c).merging = some g → exec (.mergeTileClose c waited) s = .next
          ((((u.setSieve c { u.sieve c with merging := none }).guardDone c g).sieveAdvance c 40).settle c)) ∧
        ((u.sieve c).merging = none → exec (.mergeTileClose c waited) s = .next ((u.sieveAdvance c 40).settle c))))) ∧
  (∀ (s : State) (c : Core), Live s →
    (∀ b rest, (s.vec c).bufs = b :: rest →
      let u := ((s.setVec c { s.vec c with bufs := rest }.fill).put 8 b.payAddr b.payload).put 8 b.hdrAddr (pairBytes b.hdr)
      exec (.tileOutputWrite c) s = .next ((match b.flag with
        | some f => u.setFlag c f true
        | none => u).settle c)) ∧
    (∀ (n : Fin 4) (v : W64), s.powered c.val = true →
      exec (.vecAmaxWrite c n v) s = .next (s.setReg (rVecAmax c n.val) (v &&& 0x3FFFFFFFF#64))))

/-- R317: taking a start request sets PC to the step address, X1 to the argument, X2 to the pitch, X3 to the device's own ID in
bits [63:48], and clears P0 to P7 and L0 to L7; every other register and every flag keeps its value. A topo start reseeds the
core's SR generator under R45. -/
def Obligations.StartTakeSetsTheRegisters : Prop :=
  ∀ (s : State) (c : Core) (r : StartReq) (rest : List StartReq), Live s → (s.seq c).starts = r :: rest → (s.seq c).st = .idle →
    (s.core c).getUnit 12 = .enabled → s.coreOn c = true →
    ∃ t, exec (.startTake c) s = .next t ∧
      (let q := t.seq c
       q.st = .running ∧ q.starts = rest ∧ q.pc = BitVec.ofNat 20 r.addr ∧ q.getX 1 = r.arg ∧
        q.getX 2 = BitVec.ofNat 64 (s.tb.pitch % 2 ^ 48) ∧ q.getX 3 = BitVec.ofNat 64 (s.devId.toNat * 2 ^ 48) ∧
        q.p = 0 ∧ (∀ k, q.getL k = 0) ∧ (∀ k, k ≠ 1 → k ≠ 2 → k ≠ 3 → q.getX k = (s.seq c).getX k) ∧
        q.t = (s.seq c).t ∧ q.f = (s.seq c).f) ∧
      (r.seed = none → t.regs = s.regs) ∧
      (∀ g, r.seed = some g → RegsOk s →
        let v := g ^^^ BitVec.ofNat 32 (s.devId.toNat * 2 ^ 8) ^^^ BitVec.ofNat 32 c.val
        t.rf (rSrstate c) 0 32 = (if v = 0 then 0x9E3779B9 else v.toNat) ∧
        ∀ a, a ≠ rSrstate c → t.reg a = s.reg a) ∧
      t.mem = s.mem ∧ (∀ d, d ≠ c → t.core d = s.core d)

/-- R318: the sequencer takes the oldest start request when it is IDLE. A request is refused while four are held, while the
sequencer is FAULTED, or while the core is DRAINING or DISABLED: nothing starts, START_LOST advances by one and a START_LOST record
names the core, the source and the step address. Otherwise it waits behind those already held. What is queued when the sequencer
is FAULTED stays queued, and CLEAR_FAULT returns the sequencer to IDLE with the queue as it was. -/
def Obligations.StartRequestsRefused : Prop :=
  ∀ (s : State) (c : Core) (src : Nat) (r : StartReq),
    ((s.seq c).starts.length < 4 ∧ (s.seq c).st ≠ .faulted ∧ (s.core c).getUnit 12 = .enabled ∧ s.coreOn c = true →
      s.requestStart c src r = s.onSeq c (fun q => { q with starts := q.starts ++ [r] })) ∧
    (4 ≤ (s.seq c).starts.length ∨ (s.seq c).st = .faulted ∨ (s.core c).getUnit 12 ≠ .enabled →
      s.requestStart c src r = (s.bumpHi (rSeqCnt c 2) 1).raise fStartLost 7 c.val [c.val, src, r.addr] ∧
      ∀ d, { (s.requestStart c src r).seq d with f := (s.seq d).f } = s.seq d) ∧
    (Live s → ∀ rest, (s.seq c).starts = r :: rest → (s.core c).getUnit 12 = .enabled → s.coreOn c = true →
      ((s.seq c).st = .idle → ∃ t, exec (.startTake c) s = .next t ∧ (t.seq c).st = .running ∧ (t.seq c).starts = rest ∧
        (t.seq c).pc = BitVec.ofNat 20 r.addr) ∧
      ((s.seq c).st = .faulted → exec (.startTake c) s = .next s ∧ ∀ v, ∃ t, exec (.clearFault c v) s = .next t ∧
        (t.seq c).st = .idle ∧ (t.seq c).starts = (s.seq c).starts))

/-- CORE_EN, SEQ_CTL and the flag registers of a powered core: the writes take place, a unit that has drained reads DISABLED, and
a FAULTED sequencer leaves FAULTED on CLEAR_FAULT (R349, R352 to R356). The model's choices: log entry 25. -/
def Obligations.CoreControlCompletes : Prop :=
  ∀ (s : State) (c : Core) (v : W64), Live s → s.powered c.val = true →
    exec (.unitEnable c v) s = .next (s.coreEnWrite c v) ∧
    exec (.unitDisable c v) s = .next (s.coreEnWrite c (setFld v 13 1 0)) ∧
    exec (.abort c v) s = .next (s.coreEnWrite c (setFld v 13 1 1)) ∧
    exec (.seqFlagset c v) s = .next (s.onSeq c (fun q => { q with f := q.f ||| v })) ∧
    exec (.seqFlagclr c v) s = .next (s.onSeq c (fun q => { q with f := q.f &&& ~~~v })) ∧
    ((s.seq c).st = .faulted → exec (.clearFault c v) s = .next ((s.setReg (rSeqCtl c) (BitVec.ofNat 64 (fld v 0 16))).onSeq c
      (fun q => { q with st := .idle, stall := none, ending := none }))) ∧
    (∀ u : Fin 13, (s.core c).getUnit u = .draining → s.drained c u = true →
      let t := s.onCore c (fun k => k.setUnit u .disabled)
      (u.val < 12 → exec (.drainDone c u) s = .next t) ∧
      (u.val = 12 → exec (.drainDone c u) s = .next (t.onSeq c (fun q => { q with
        st := if q.st == .faulted then .faulted else .idle, stall := none, ending := none }))))

/-- PAN_INVAL with GO set: every word of the granules it names loses its valid bit, and no byte of memory changes (R278). -/
def Obligations.PantryInvalidates : Prop :=
  ∀ (s : State) (c : Core) (v : W64), Live s → s.powered c.val = true → bitOf v 24 = true →
    ∃ t, exec (.panInvalGo c v) s = .next t ∧ t.mem = s.mem ∧
      (∀ w, w ∈ (t.core c).valid ↔ w ∈ (s.core c).valid ∧
        ¬ (64 * fld v 0 12 ≤ w ∧ w < 64 * fld v 0 12 + 64 * min (fld v 12 12 + 1) (4096 - fld v 0 12))) ∧
      (∀ d, d ≠ c → t.core d = s.core d)

/-- A step that is stalled is attempted again when what it waits for has come, and STALL_CYC (and for a full trickle path
TRK_WAIT_CYC) counts the wait, which monitor source 6 samples where it was on a guard or on FWAIT (Table 23-6); a wait on a guard or
on FWAIT that has passed the watchdog ends the recipe with a SLOT_TIMEOUT record (R322, R338, R346, R350). The model's choices: log
entries 9, 58. The model's choices: log entries 9, 58. -/
def Obligations.StallEventsComplete : Prop :=
  ∀ (s : State) (c : Core) (t : Stall) (waited : Nat), Live s → (s.seq c).st = .stalled → (s.seq c).stall = some t →
    (s.mayIssue c t.w = true → ((s.attempt c t.w).seq c).stall ≠ some t →
      let n := (s.attempt c t.w).bumpLo (rSeqCnt c 2) waited
      (t.why ≠ 7 → t.why ≠ 8 → exec (.guardSatisfied c waited) s =
        .next (if t.why = 1 ∨ t.why = 2 then n.monCore c 6 waited
          else if t.why = 4 ∧ t.flag = 1 then n.bumpLo (rStrCnt c 3) waited else n)) ∧
      (t.why = 7 → exec (.qpopWake c waited) s = .next n) ∧
      (t.why = 8 → exec (.twaitDone c waited) s = .next n)) ∧
    (1 ≤ t.why → t.why ≤ 3 → watchdogPast (s.slotWd c) t.since s.tb.starts = true →
      exec (.slotTimeout c) s =
        .next (((s.bumpHi (rSeqCnt c 0) 1).raise fSlotTimeout 7 c.val [c.val, (s.seq c).pc.toNat, t.flag]).seqFault c))

/-- A unit's or the mesh's write of bytes that stay inside one pantry: they read back, the words they touch are valid (R276),
every byte elsewhere is what it was, except that the other bytes of a word that was invalid read zero (R258, R277).
The model's choices: log entry 4. -/
def Obligations.PantryWriteReadsBack : Prop :=
  ∀ (s : State) (c : Core) (o : Nat) (bs : List Byte), MemOk s → o + bs.length ≤ 0x1000000 → bs ≠ [] →
    let a := pantryBase c + o
    let t := s.wrLocal a bs
    t.rdBytes a bs.length = bs ∧
      (∀ i, i < bs.length → t.wordValid c ((o + i) / 64) = true) ∧
      (∀ b, b < a ∨ a + bs.length ≤ b →
        Memory.get t.mem b = Memory.get s.mem b ∨
          (Memory.get t.mem b = 0 ∧ ∃ i, i < bs.length ∧ b / 64 = (a + i) / 64 ∧ s.wordValid c ((o + i) / 64) = false)) ∧
      t.regs = s.regs ∧ (∀ d, (t.core d).seq = (s.core d).seq)

/-- Accesses to an accumulator window and to a pantry from the mesh take place (R156, R258). A window write that is not whole 4-byte
elements changes no byte of memory, one that runs past a core's store writes the bytes in the store alone, and one that begins in
the reserved part and runs on into the next core's store writes the words there: ACC_BADADDR advances and an ACC_ADDR record names
the address (R156 to R158). The model's choices: log entries 34, 59. -/
def Obligations.WindowAccessesComplete : Prop :=
  (∀ (s : State) (a : Access) (op : AccessOp) (ecc : Ecc), Live s → s.isLocal a.addr = true →
    ((accWindow (localOf a.addr.toNat)).isSome = true →
      exec (.accWindowAccess a.who a.addr op) s = .next (s.access (op.access a.who a.addr))) ∧
    (∀ c w, pantryOf (localOf a.addr.toNat) = some (c, w) →
      exec (.meshPantryAccess a ecc) s = .next ((s.strike (localOf a.addr.toNat) ecc).access a))) ∧
  (∀ (s : State) (c : Core) (a : Nat) (bs : List Byte),
    (a % 4 ≠ 0 ∨ bs.length % 4 ≠ 0 →
      s.accWrite c a bs = (0, (s.bumpLo (rAccCnt1 c) 1).raise fAccAddr 2 c.val [(s.full a).toNat]) ∧
        (s.accWrite c a bs).2.mem = s.mem) ∧
    (∀ d off, a % 4 = 0 → bs.length % 4 = 0 → accWindow a = some (d, off) → s.coreOn d = true → accReserved a = false →
      0x180000 < off + bs.length → off + bs.length ≤ 0x200000 →
      let m := 0x180000 - off
      ∃ u : State, s.accWrite c a bs = (0, (u.bumpLo (rAccCnt1 d) 1).raise fAccAddr 2 d.val [(s.full (a + m)).toNat]) ∧
        u.mem = (s.wrBytes a (bs.take m)).mem ∧ u.regs = s.regs) ∧
    (∀ d e off, a % 4 = 0 → bs.length % 4 = 0 → accWindow a = some (d, off) → s.coreOn d = true → accReserved a = true →
      let m := 0x200000 - off
      accWindow (a + m) = some (e, 0) → s.coreOn e = true → m < bs.length → bs.length ≤ m + 0x180000 →
      ∃ u : State, s.accWrite c a bs = (0, u) ∧ u.regs = (s.accBad d a).regs ∧ u.mem = (s.wrBytes (a + m) (bs.drop m)).mem))

/-- The belay chain: a stage whose rows are ready runs, a credit from its next stage lets it send, the next row on its way from its
previous stage is taken, and a stage that waited past the watchdog fails (R160, R166 to R169).
The model's choices: log entries 36, 60. -/
def Obligations.BelayEventsComplete : Prop :=
  ∀ (s : State) (c : Core) (n : Fin 8), Live s →
    (s.belayReady c n = true → exec (.belayStageReady c n) s =
      .next (((s.setBelay c n { s.belay c n with state := 2 }).belayGo c n).settle c)) ∧
    ((s.belay c n).busy = true → (s.belay c n).ctl.role ≠ 2 → s.mayGrant c (s.belay c n) = true →
      exec (.belayCreditGrant c n (s.belay c n).ctl.next) s =
        .next (((s.setBelay c n { s.belay c n with credits := (s.belay c n).credits + 1 }).belayGo c n).settle c)) ∧
    (∀ row : BelayRow, (s.belay c n).busy = true → (s.belay c n).ctl.role ≠ 0 → row.tag = (s.belay c n).ctl.tag →
      (s.belay c n).state = 2 → (s.belay c n).bufs.length < 2 → row.row.length = 64 →
      (s.belay c n).recvd < (s.belay c n).ctl.rows →
      let b := (s.belay c n).ctl
      b.prev.kind = 2 ∨ s.onWire c b b.prev row = true →
      exec (.belayRowReceive c n b.prev row) s =
        .next ((((s.takeRow c b b.prev).belayTake c n row).belayGo c n).settle c)) ∧
    ((s.belay c n).busy = true → watchdogPast (s.slotWd c) (s.belay c n).since s.tb.starts = true →
      exec (.belayTimeout c n) s = .next ((s.belayFail c n 1 0).settle c))

/-- The words of a stream program that set fields, and CRED: each sets its fields and the stream goes on to its next word (R282,
R283, Table 10-2). The model's choices: log entry 11. -/
def Obligations.StreamFieldWordsComplete : Prop :=
  ∀ (s : State) (c : Core) (e : Eng) (r : StrRun) (w : W64), Live s → (s.eng c e).cur = some r → r.words[r.pc]? = some w →
    s.coreOn c = true →
    (r.phase = .run →
      let t := s.setRun c e { r with f := r.f.apply r.job w }.step
      (Sw.op w = 1 → exec (.streamAddr c e) s = .next t) ∧
      (Sw.op w = 2 → exec (.streamDesc c e) s = .next t) ∧
      (Sw.op w = 3 → exec (.streamLoop c e) s = .next t) ∧
      (Sw.op w = 4 → exec (.streamStride c e) s = .next t) ∧
      (Sw.op w = 5 → exec (.streamIdx c e) s = .next t) ∧
      (Sw.op w = 6 → exec (.streamFill c e) s = .next t) ∧
      (Sw.op w = 7 → exec (.streamCvt c e) s = .next t) ∧
      (Sw.op w = 8 → exec (.streamWina c e) s = .next t) ∧
      (Sw.op w = 9 → exec (.streamWinb c e) s = .next t)) ∧
    (r.phase = .head → Sw.op w = swCred → exec (.streamCred c e) s =
      .next (s.strHead c e { r with credits := fld w 0 8 } (r.pc + 1)))

/-- The course of a stream: an engine takes its next start, a stream at the head of the admission queue is admitted when its
credits are free (R302), GO makes its transfers, WAIT and SIG act on a flag (R300), END ends the stream with its record (R307,
R310), a WAIT that passed the watchdog times out (R301), and STR_CTL takes a PART_TIMEOUT that is not 0. A trickle transfer that
stores bytes of its own and whose target takes them: its guard flags follow, and it leaves the path (R312, R346, R347).
The model's choices: log entries 11, 14, 19, 20, 22. -/
def Obligations.StreamEventsComplete : Prop :=
  (∀ (s : State) (c : Core) (e : Eng), Live s →
    (∀ j rest, (s.eng c e).cur = none → (s.eng c e).q = j :: rest →
      (s.core c).getUnit ⟨8 + e.val, by omega⟩ ≠ .disabled → s.coreOn c = true →
      exec (.streamBegin c e) s = .next ((s.strBegin c e).settle c)) ∧
    (∀ r waited, (s.eng c e).cur = some r → r.phase = .queued → (s.core c).admitq.head? = some e → s.coreOn c = true →
      let u := s.bumpHi (rStrCnt c 1) waited
      let r := { r with held := r.held + waited }
      exec (.streamAdmit c e waited) s = .next (if r.credits ≤ u.freeCredits c then
          ((u.setRun c e { r with phase := .run, pc := r.nextRun 0 }).onCore c (fun k => { k with admitq := k.admitq.tail })).monCore c 4 r.held
        else u.setRun c e r)) ∧
    (∀ r w ecc, (s.eng c e).cur = some r → r.phase = .run → s.coreOn c = true → r.job.copy = none → r.words[r.pc]? = some w →
      Sw.op w = swGo → exec (.streamGo c e ecc) s =
        .next ((s.strikes (ecc.map (fun p => (localOf p.1.toNat, p.2)))).strGo c e r w)) ∧
    (∀ r ecc, (s.eng c e).cur = some r → r.phase = .run → s.coreOn c = true → r.job.copy.isSome = true → r.pc = 0 →
      exec (.streamGo c e ecc) s = .next ((s.strikes (ecc.map (fun p => (localOf p.1.toNat, p.2)))).strGo c e r 0)) ∧
    (∀ r w, (s.eng c e).cur = some r → r.phase = .run → s.coreOn c = true → r.words[r.pc]? = some w → Sw.op w = swWait →
      s.flag c (fld w 0 6) = bitOf w 57 → exec (.streamWait c e) s = .next (s.setRun c e r.step)) ∧
    (∀ r w, (s.eng c e).cur = some r → r.phase = .run → s.coreOn c = true → r.words[r.pc]? = some w → Sw.op w = 11 →
      r.sends = [] → r.quiet = true →
      exec (.streamSig c e) s = .next (((s.setRun c e r.absorb.step).setFlag c (fld w 0 6) (bitOf w 57)).settle c)) ∧
    (∀ r, (s.eng c e).cur = some r → r.phase = .run → s.coreOn c = true → r.sends = [] → r.quiet = true →
      (r.job.copy.isSome = true ∧ r.pc = 1 ∨ r.job.copy = none ∧ ∃ w, r.words[r.pc]? = some w ∧ Sw.op w = swEnd) →
      exec (.streamEnd c e) s = .next ((s.strFinish c e r.absorb r.absorb.status).settle c)) ∧
    (∀ r w n, (s.eng c e).cur = some r → r.phase ≠ .queued → s.coreOn c = true → r.words[r.pc]? = some w → Sw.op w = swWait →
      r.waitSince = some n → s.flag c (fld w 0 6) ≠ bitOf w 57 → watchdogPast (s.slotWd c) n s.tb.starts = true →
      exec (.streamWaitTimeout c e) s =
        .next (((s.strFinish c e { r with timedOut := true } 2).raise fSlotTimeout 6 c.val [c.val, e.val, fld w 0 6]).settle c)) ∧
    (∀ v : W64, s.powered c.val = true → fld v 0 16 ≠ 0 →
      exec (.strCtlWrite c v) s = .next (s.setReg (rStrCtl c) (v &&& lowMask 16)))) ∧
  (∀ (s u : State) (c : Core) (j : TrkJob) (rest : List TrkJob) (bs : List Byte) (ecc : Ecc), Live s → (s.core c).trk = j :: rest →
    j.kind = .store bs → s.coreOn c = true → (s.strike (localOf j.dst.toNat) ecc).trkWrite c j bs = (some true, u) →
    exec (.trickleDone c ecc) s = .next (((u.popTrk c).guardDone c j.guard).settle c))

/-- PART_TIMEOUT: a read or a write of a part that has waited for PART_TIMEOUT microseconds when the event is over fails with reason
5; every other answer and acknowledgement stays as it is. Where one of them is due within the present pitch, GLOBAL_TIME reaches the
first such time, so that one does fail (R307, Table 10-5). The model's choices: log entry 11. -/
def Obligations.PartTimeoutFailsLateTransfers : Prop :=
  ∀ (s : State) (c : Core) (e : Eng) (p : Fin 64) (r : StrRun), Live s → (s.eng c e).cur = some r →
    let lim := 1000 * s.rf (rStrCtl c) 0 16
    let due (l : List (Nat × Got)) (a now : Nat) : Prop := ∃ since id, (a, Got.waiting since id) ∈ l ∧ since + lim ≤ now
    let readOf (a : Nat) : Prop := (a, p.val) ∈ r.reads ∨ (a, 64) ∈ r.reads
    let writeOf (k : Nat) : Prop := ∃ w ∈ r.pend, w.key = k ∧ w.part = p.val
    ∃ t r', exec (.partTimeout c e p) s = .next t ∧ (t.eng c e).cur = some r' ∧ s.tb.time.toNat ≤ t.tb.time.toNat ∧
      let now := t.tb.time.toNat
      let lateRead (a : Nat) : Prop := due r.cache a now ∧ readOf a
      let lateWrite (k : Nat) : Prop := due r.acks k now ∧ writeOf k
      (∀ n, n < s.nextPitchTime → n < 2 ^ 64 → ((∃ a, due r.cache a n ∧ readOf a) ∨ (∃ k, due r.acks k n ∧ writeOf k)) →
        (∃ a, lateRead a) ∨ (∃ k, lateWrite k)) ∧
      ((∀ a g, (a, g) ∈ r.cache → s.farAddr a = true) → t.mem = s.mem ∧ t.regs = s.regs) ∧
      (∀ a g, (a, g) ∈ r'.cache ↔
        ((∃ g', (a, g') ∈ r.cache) ∧ lateRead a ∧ g = .failed 5 0) ∨ ((a, g) ∈ r.cache ∧ ¬ lateRead a)) ∧
      (∀ k g, (k, g) ∈ r'.acks ↔
        ((∃ g', (k, g') ∈ r.acks) ∧ lateWrite k ∧ g = .failed 5 0) ∨ ((k, g) ∈ r.acks ∧ ¬ lateWrite k))

/-! ### Memory tiers, gather engines and the queue pool -/

/-- Requests, grants and preemption at an arbiter: a request waits behind the others; a grant finishes the stopped transfer, or
makes one transfer of the request that wins; emergency work stops a transfer after the words it has made (R402 to R406). An
arbiter with a request waiting picks one, and it picks one of those that wait (R402); a request whose words wait for a snoop or a fill
keeps its place (R401, R506). The model's choices: log entries 42, 47. -/
def Obligations.MemoryArbitersComplete : Prop :=
  (∀ (s : State) (m : MemCtl) (r : MemReq), Live s →
    (r.words ≠ 0 → (∀ k, k < r.words → s.atCtl m (reqWord r k) = true) →
      exec (.memRequest m r) s = .next (s.setMemReqs m (s.memReqs m ++ [r]))) ∧
    (∀ u, s.serves m = true → s.readyReq m = (some r, u) →
      let n := transferWords m r
      let lane := u.lane m r.addr.toNat
      let v := u.setMemReqs m (replaceReq r (restOf r n) (u.memReqs m))
      (∀ ecc, u.memStopped lane = none → exec (.memGrant m ecc) s = .next (((v.strike r.addr.toNat ecc).transfer m r n).cohDone
        (memWho m r) ((memPieces r n).map (fun p => p.1 / 64)))) ∧
      (∀ ecc q, u.memStopped lane = some q → exec (.memGrant m ecc) s = .next ((((u.setMemStopped lane none).strike q.addr.toNat
        ecc).transfer m q q.words).cohDone (memWho m q) ((memPieces q q.words).map (fun p => p.1 / 64)))) ∧
      (∀ words, u.memStopped lane = none → words < n → exec (.memPreempt m words) s =
        .next (((v.grant m r words .ok).setMemStopped lane (some (reqRest { r with
          words := n, data := r.data.map (fun d => d.take (64 * n)) } words))).countPreempt m)))) ∧
  (∀ (s : State) (m : MemCtl) (l : List MemReq),
    (l = [] ↔ s.pick m l = none) ∧ (∀ r, s.pick m l = some r → r ∈ l) ∧
    (∀ r u, s.readyReq m = (some r, u) → r ∈ s.memReqs m))

/-- R401: when the fill of a tier completes every byte of that tier reads zero, and every byte elsewhere is what it was. -/
def Obligations.FillZeroesItsTier : Prop :=
  ∀ (s : State), Live s → MemOk s → s.boot.phase ≠ 0 → (∀ c, (s.core c).coll = []) → s.pair.todo = [] →
    (s.memc.hbmFilled = false → s.boot.weights = [] → ∃ t, exec (.zeroFillDone .hbm) s = .next t ∧ t.memc.hbmFilled = true ∧
      ∀ a, Memory.get t.mem a = if inHbm a then 0 else Memory.get s.mem a) ∧
    (s.memc.lpFilled = false → s.boot.weights = [] → ∃ t, exec (.zeroFillDone .lpddr) s = .next t ∧ t.memc.lpFilled = true ∧
      ∀ a, Memory.get t.mem a = if inLp a then 0 else Memory.get s.mem a)

/-- R10: a commit makes the seven shadowed registers of a tier, or the mesh's, take effect together, and changes no memory; the
periodic calibration of an HBM channel changes nothing that the model holds (log entry 21). The format governor: MON_GOVRUN queues
a run while fewer than 16 wait and is lost with a record otherwise, and a run takes the head of the queue (R367, R368).
The model's choices: log entries 21, 44. -/
def Obligations.CommitsAndGovernorComplete : Prop :=
  (∀ (s : State) (v : W64), Live s → bitOf v 0 = true →
    exec (.hbmPriocommit v) s = .next { s with inForce := ((List.range 7).map rHbmPrio).foldl (fun m a => m.put (fun _ => 0) a (s.reg a)) s.inForce } ∧
    exec (.lpPriocommit v) s = .next { s with inForce := ((List.range 7).map rLpPrio).foldl (fun m a => m.put (fun _ => 0) a (s.reg a)) s.inForce } ∧
    exec (.coreMpriocommit v) s = .next { s with inForce := s.inForce.put (fun _ => 0) rMprio (s.reg rMprio) } ∧
    (∀ pc, exec (.hbmPeriodicCal pc) s = .next s)) ∧
  (∀ (s : State) (d : Die), Live s →
    (∀ v : W64, s.powered 79 = true → (s.govQueue d.val).length < 16 →
      exec (.monGovrun d v) s = .next (s.setGovQueue d.val (s.govQueue d.val ++ [v]))) ∧
    (∀ v : W64, s.powered 79 = true → 16 ≤ (s.govQueue d.val).length →
      exec (.monGovrun d v) s = .next ((s.bumpHi (rGovCnt d.val 0) 1).raise fGovLost 20 d.val [d.val, fld v 0 6, fld v 6 18])) ∧
    (∀ v rest, s.govQueue d.val = v :: rest → exec (.governorRun d) s = .next ((s.setGovQueue d.val rest).govRun d v)))

/-- Gather engines: a request waits while fewer than 16 wait and is dropped and counted otherwise (R409); the engine runs the
oldest; the end of a run writes its record, sets its flag and, for a rejected request, reports it (R410, R417).
The model's choices: log entries 34, 43. -/
def Obligations.GatherEnginesComplete : Prop :=
  ∀ (s : State) (h : Stack) (r : BitVec 512), Live s →
    (s.powered (48 + h.val) = true → (s.nmgQueue h.val).length < 16 →
      exec (.hbmNmgreq h r) s = .next (s.setNmgQueue h.val (s.nmgQueue h.val ++ [r]))) ∧
    (s.powered (48 + h.val) = true → 16 ≤ (s.nmgQueue h.val).length →
      exec (.hbmNmgreq h r) s = .next (s.bumpLo (rNmgCnt h.val 1) 1)) ∧
    (∀ rest ecc, s.nmgRun h.val = none → s.nmgQueue h.val = r :: rest → s.memc.hbmFilled = true →
      s.domOn (48 + h.val) = true →
      let u := s.strikes (ecc.map (fun p => (p.1.toNat, p.2)))
      let rows := u.nmgRows (.of r) h.val
      (u.nmgBad (.of r) = 0 → (u.anyWaits (.gather h.val) (rows.map (fun a => (a, 64))) false).1 = false →
        exec (.nmgRun h ecc) s =
          .next (((u.setNmgQueue h.val rest).nmgGo h.val r).cohDone (.gather h.val) (rows.map (· / 64)).eraseDups)) ∧
      (u.nmgBad (.of r) ≠ 0 → exec (.nmgRun h ecc) s =
        .next ((u.setNmgQueue h.val rest).setNmgRun h.val (some ⟨r, 3, u.nmgBad (.of r), 0, 0, 0⟩)))) ∧
    (∀ x c, s.nmgRun h.val = some x → coreOf? (Nreq.of x.req).dcore = some c → s.coreOn c = true → x.status ≠ 3 →
      let u := (s.setNmgRun h.val none).wrLocal (pantryBase c + 64 * (Nreq.of x.req).sword) (x.record s.tb.time)
      exec (.nmgDone h) s = .next (if (Nreq.of x.req).flagEn then u.setFlag c (Nreq.of x.req).flag true else u))

/-- R425, R426: a packet of 1 to 4,096 bytes enters its queue where the queue is enabled and its cells fit both the queue's LIMIT,
as the producer side counts what it holds (R435, R436), and the die's free list; otherwise it is ignored whole, OVERRUN is set and
QP_OVR counts it. The model's choices: log entries 66, 69. -/
def Obligations.PushAdmitsOrIgnores : Prop :=
  ∀ (s : State) (q : QueueNo) (port : Fin 40) (data : List Byte) (written : Nat), Live s → 1 ≤ data.length → data.length ≤ 4096 →
    let prod := if port.val = 39 then 64 * (1 - dieOf q.val) + 39 else 64 * dieOf q.val + port.val
    s.domOn (76 + dieOf q.val) = true → s.morePkt q.val prod data written = none →
    let u := s.lookFreed q.val
    let x := u.queue q.val
    let n := min written (cellsOf data.length)
    let room := bitOf (s.reg (rQcfg q.val)) 59 = true ∧
      x.cells + x.rl.lag + cellsOf data.length ≤ s.rf (rQcfg q.val) 0 17 ∧ cellsOf data.length ≤ u.freeCells (dieOf q.val)
    let cells := u.takeFree (dieOf q.val) (cellsOf data.length)
    (room → exec (.packetPush q port data written) s = .next (((u.setQueue q.val { x with
      pkts := relinkLast (cells.headD 0) x.pkts ++ [⟨data, linkCells data.length cells, n, false, prod, u.tb.time, false⟩]
      wr := x.wr.add n u.tb.time }).levelCheck q.val x.cells).servePops q.val 1024)) ∧
    (¬ room → exec (.packetPush q port data written) s =
      .next ((u.setQueue q.val { x with overrun := true }).bumpLo (rQpCnt (dieOf q.val) 0) 1)) ∧
    ((s.queue q.val).rl.lag = 0 → u = s)

/-- Pops and breaks: a pop takes the oldest visible packet and counts one longer than its limit (R429, R430); where the link word
of that packet's first cell mismatches, the queue is disabled and loses its packets until the next FLUSH, with CMP_MISS and a
COMPLEMENT record (Table 23-1, class 3; log entry 66), an error that strikes a cell being there before the pop; a packet begun whose
cells are still to come is waited for (R433); the packets whose next cell is 10 us late break, their unwritten cells zero, each with
a QP_BROKEN record (R434); a legal write of QP_QCFGq, with and without FLUSH (R427, R428).
The model's choices: log entries 66, 69. -/
def Obligations.QueuePoolCompletes : Prop :=
  ∀ (s : State) (q : QueueNo), Live s →
    let x := s.queue q.val
    (∀ p limit, s.domOn (76 + dieOf q.val) = true →
      let u := s.lookWritten q.val
      let y := u.queue q.val
      (∀ k e, exec (.packetPop q ⟨limit, some (k, e)⟩) s =
        exec (.packetPop q ⟨limit, none⟩) (s.setQueue q.val { x with pkts := strikeCell k e x.pkts })) ∧
      (u.qHead q.val = some p →
        (p.linked = true → p.whole = true → y.flush = false →
          let t := u.setQueue q.val { y with pkts := y.pkts.drop 1, rl := y.rl.add p.cells.length u.tb.time }
          exec (.packetPop q ⟨limit, none⟩) s = .next (if limit < p.data.length then t.bumpHi (rQpCnt (dieOf q.val) 0) 1 else t)) ∧
        (p.linked = true → p.whole = false → exec (.packetPop q ⟨limit, none⟩) s = .next (u.setQueue q.val { y with
          pkts := ({ p with begun := true } : QPkt) :: y.pkts.drop 1 })) ∧
        (p.cells.findIdx? (fun c => !c.ok) = some 0 → exec (.packetPop q ⟨limit, none⟩) s = .next
          (((u.setQueue q.val { y with pkts := [], lost := y.lost ++ y.pkts.flatMap (fun p => p.cells.map (·.idx)) }).setRf
            (rQcfg q.val) 59 1 0).cmpMiss 3 q.val 0 11 (dieOf q.val))))) ∧
    (∀ t, s.breakAt q.val = some t →
      (t ≤ s.tb.time.toNat →
        let ps := x.pkts.map (fun p => if p.stuck s.tb.time then p.breakUp s.tb.time else p)
        let n := (ps.map (·.written)).sum - (x.pkts.map (·.written)).sum
        exec (.packetBreak q) s = .next ((forN (x.pkts.filter (fun p => p.stuck s.tb.time)).length (fun _ (s : State) =>
          (s.bumpLo (rQpCnt (dieOf q.val) 1) 1).raise fQpBroken 11 (dieOf q.val) [q.val])
          (s.setQueue q.val { x with pkts := ps, wr := x.wr.add n s.tb.time })).servePops q.val 1024)) ∧
      (s.tb.time.toNat < t → t < s.nextPitchTime → t < 2 ^ 64 →
        exec (.packetBreak q) s = exec (.packetBreak q) (s.reach (BitVec.ofNat 64 t)))) ∧
    (∀ v : W64, s.powered (76 + dieOf q.val) = true →
      (bitOf (s.reg (rQcfg q.val)) 59 = true ∨ x.cells ≠ 0 →
        fld (s.reg (rQcfg q.val)) 0 17 = fld v 0 17 ∧ fld (s.reg (rQcfg q.val)) 34 11 = fld v 34 11) →
      fld v 45 2 ≠ 3 → fld v 34 7 ≤ 64 →
      (bitOf v 60 = false → exec (.qpQcfgWrite q v) s = .next (s.setReg (rQcfg q.val) (v &&& qcfgMask))) ∧
      (bitOf v 59 = false → exec (.qpFlush q v) s = .next ((s.setReg (rQcfg q.val) (v &&& qcfgMask)).setQueue q.val
        (if x.pkts.any (·.begun) then { x with flush := true }
         else { x with pkts := [], lost := [], rl := x.rl.add x.cells s.tb.time }))))

/-! ### Token dispatch -/

/-- A topo COUNT or RETURN event acts on each core it names that can take it (R375, R386), COUNTs of a new dispatch and of one in
progress are noted at their slot and a late one counts as zero (R379, R381), ROWS sends what COUNT planned in the pitch after it and
an enabled slot that no count has reached in time has no rows (R379, R380, R382, R385), a row lands at its offset (R383, R385), a
returned row lands at its entry (R386), and CORE_XRXg takes a legal value while its slot is free (R387). The model's choices: log
entries 37, 41. The model's choices: log entries 37, 41. -/
def Obligations.TokenDispatchCompletes : Prop :=
  ∀ (s : State) (c : Core) (g : Ctx), Live s →
    (∀ n e, s.topoHead 4 = some (n, e) →
      (Te.at' e 29 0 1 = 0 → exec .topoXdispCount s =
        .next (s.topoPop.onCores n e (fun c s => s.xdCount c (Te.at' e 26 0 18)))) ∧
      (Te.at' e 29 0 1 = 1 → exec .topoXdispReturn s =
        .next (s.topoPop.onCores n e (fun c s => s.xdReturn c (Te.at' e 26 0 18))))) ∧
    (∀ rank count nsrc pitch,
      let u := s.countTaken c g rank.toNat
      let x := (s.core c).getXr g
      let noted (y : XdRecv) : State :=
        (u.onCore c (fun k => k.setXr g { y with counts := y.counts ++ [(rank.toNat, count)] })).xdTry c g
      (pitch.toNat = s.tb.pitch →
        (x.busy = true → x.pitch = s.tb.pitch → x.total = none → (∀ p ∈ x.counts, p.1 ≠ rank.toNat) →
          exec (.xdCountReceive c g rank ⟨count, nsrc, pitch⟩) s = .next (noted x)) ∧
        (¬ (x.busy = true ∧ x.pitch = s.tb.pitch) → exec (.xdCountReceive c g rank ⟨count, nsrc, pitch⟩) s =
          .next (noted { XdRecv.none with pitch := s.tb.pitch, nsrc := nsrc, busy := true }))) ∧
      (pitch.toNat < s.tb.pitch → exec (.xdCountReceive c g rank ⟨count, nsrc, pitch⟩) s = .next (u.xdZero c g pitch.toNat true))) ∧
    exec (.xdispRows c) s = .next (((List.finRange 16).foldl (fun s g =>
      (let t := s.xdStart c g; if t.tb.pitch = 0 then t else t.xdZero c g (t.tb.pitch - 1) false)) (s.xdRows c)).settle c) ∧
    (∀ x, (s.core c).xsrc = [x] → x.sent = false → x.pitch + 1 = s.tb.pitch →
      let u := s.onCore c (fun k => { k with xsrc := [{ x with sent := true }] })
      s.xdRows c = (x.rows.foldl (fun (s : State) e => s.xdSendRow c x.record x.pitch e) u).xdFlag c x.record) ∧
    (∀ p busy, let x := (s.core c).getXr g
      x.busy = false → x.pitch ≤ p → (s.core c).returned p = false → s.xrEnabled c g.val = true → (x.pitch = p → x.total = none) →
      s.xdZero c g p busy =
        (s.onCore c (fun k => k.setXr g { XdRecv.none with pitch := p, total := some 0, busy := busy })).xdComplete c g) ∧
    (∀ rank j srcDev srcCore entry row n k, s.xrEnabled c g.val = true →
      let t := (s.xdTaken srcDev (xdHead 1 c.val g.val srcCore.toNat rank.toNat j entry.toNat 0 0)).xdStart c g
      let x := (t.core c).getXr g
      let o := x.offset rank.toNat + j
      x.total = some n → x.counts.find? (fun p => p.1 == rank.toNat) = some (rank.toNat, k) → j < k → o < n →
      x.dropFrom.any (fun d => decide (d ≤ o)) = false →
      let v := (t.xdLand c g x o row).put 14 (t.full (t.xrItem c g.val o)).toNat
        (bytesOf 8 (srcDev.toNat + 2 ^ 16 * srcCore.toNat + 2 ^ 22 * entry.toNat))
      exec (.xdRowReceive c g rank j srcDev srcCore entry row) s =
        .next (((v.onCore c (fun k => k.setXr g { x with landed := x.landed + 1 })).xdComplete c g).settle c) ∧
      (t.xrRegion c g.val = true → row.length ≤ 64 → row ≠ [] → t.xdLand c g x o row = t.put 14
        (t.full (pantryBase c + 64 * ((t.rf (rXrxa c g.val) 0 18 + o * t.rf (rXrxa c g.val) 18 12) % 262144))).toNat row)) ∧
    (∀ x entry rank pitch row, (s.core c).xsrc.find? (fun x => x.awaits entry.toNat rank.toNat pitch.toNat) = some x →
      exec (.xdReturnReceive c ⟨entry, rank, pitch⟩ row) s = .next ((((s.returnTaken c entry.toNat rank.toNat pitch.toNat).put 14
        (Xd.ret x.record + 64 * entry.toNat * Xd.pitch x.record) (row.take (64 * Xd.rw x.record))).onXsrc c x.word
          (fun x => { x with got := x.got ++ [entry.toNat] })).xdRetEnd c x.word)) ∧
    (∀ (b : Bool) (v : W64), s.powered c.val = true → ((s.core c).getXr g).busy = false →
      let va := if b then s.reg (rXrxa c g.val) else v
      let vb := if b then v else s.reg (rXrxb c g.val)
      (bitOf va 31 = true → fld vb 18 12 ≠ 0 ∧ (bitOf va 30 = true → fld va 18 12 ≠ 0)) →
      exec (.coreXrxWrite c g b v) s = .next (if b then s.setReg (rXrxb c g.val) (v &&& 0x3FFFFFFF#64)
        else s.setReg (rXrxa c g.val) (v &&& 0x00FFFFFFFFFFFFFF#64)))

/-! ### Time and topo -/

/-- The commands of the time base: TB_TIMESET from SYNC_IN and as free running, the edge at which a value applies, locking, loss
of the reference, the end of holdover, and the exchange with the parent and with a child (R441 to R446). PITCH_START: with every
event of the last pitch fired, GLOBAL_TIME and the pitch number become those of the next pitch, an epoch that waits takes effect,
the returns whose pitch has passed end, and a topo that runs builds its due list (R449, R452 to R454).
The model's choices: log entry 45. -/
def Obligations.TimeCommandsComplete : Prop :=
  (∀ (s : State), Live s →
    (∀ v : W64, s.tb.st ≤ 1 → s.timeSrc = 0 → v.toNat % 1000000000 = 0 →
      exec (.tbTimeset v) s = .next { s with tb := { s.tb with st := 1, value := some v, applied := false } }) ∧
    (∀ v : W64, s.tb.st ≤ 1 → s.timeSrc = 2 → s.tb.time.toNat ≤ v.toNat →
      exec (.tbTimeset v) s =
        .next { s with tb := { s.tb with
          time := v, pitch := s.pitchOf v.toNat, starts := if v.toNat < s.origin then 0 else max 1 s.tb.starts, st := 5, depth := 0 } }) ∧
    (∀ now v : W64, s.mayBe now = true → s.timeSrc = 0 → s.tb.st = 1 → s.tb.value = some v → now.toNat ≤ v.toNat →
      exec (.syncInEdge now) s = .next { s with tb := { s.tb with
        time := v, pitch := s.pitchOf v.toNat, starts := if v.toNat < s.origin then 0 else max 1 s.tb.starts,
        value := none, applied := true, depth := 0 } }) ∧
    (s.timeSrc = 0 → (s.tb.st = 1 ∧ s.tb.applied = true) ∨ ((s.tb.st = 3 ∨ s.tb.st = 4) ∧ ∃ d, s.tb.edge = some d ∧ d ≤ 50) →
      exec .timeLock s = .next { s with tb := { s.tb with st := 2 } }) ∧
    (∀ why, why ≠ .link → s.timeSrc = 0 → s.tb.st = 2 → exec (.refLost why) s =
      .next (({ s with tb := { s.tb with st := 3, held := s.tb.time, edge := none, offs := [] } }.bumpLo (rTbCnt 2) 1).raise
        fTimeHold 12 0 [])) ∧
    (∀ u, s.tb.st = 3 → s.reachBy (s.tb.held.toNat + 1000000 * s.rf rTbCfg 33 16) = some u →
      exec .holdoverExpiry s = .next ({ u with tb := { u.tb with st := 4 } }.raise fTimeLost 12 0 [])) ∧
    (∀ (t1 : W64) (l : Link), s.timeSrc = 1 → s.mayBe t1 = true → s.parentLink = some l → (s.link l).up = true →
      exec (.timeRequest t1) s = .next ({ s with tb := { s.tb with
        time := t1, asked := some t1, bad := if s.tb.asked.isSome then s.tb.bad + 1 else s.tb.bad
        offs := if s.tb.asked.isSome then [] else s.tb.offs } }.sendTime l (bytesOf 8 t1.toNat))) ∧
    (∀ (l : Link) (t2 t3 : W64), (s.link l).up = true → s.mayBe t3 = true → t2.toNat ≤ t3.toNat →
      exec (.timeRequestReceive l t2 t3) s = .next ({ s with tb := { s.tb with time := t3 } }.sendTime l
        (bytesOf 8 t2.toNat ++ bytesOf 8 t3.toNat ++ bytesOf 1 s.tb.st ++ bytesOf 1 s.tb.depth))) ∧
    (∀ (t1 t2 t3 t4 : W64) (st : BitVec 3) (depth : BitVec 4), s.tb.asked = some t1 → s.timeSrc = 1 → s.mayBe t4 = true →
      (st = 2 ∨ st = 5) → depth ≠ 15 →
      let o := timeOffset t1 t2 t3 t4
      exec (.timeReply t1 t2 t3 t4 st depth) s = .next ({ s with tb := { s.tb with
        time := t4, asked := none, offset := BitVec.ofInt 32 o, offs := (o :: s.tb.offs).take 4, bad := 0, depth := depth.toNat + 1
        st := if s.tb.st = 0 then 1 else s.tb.st } }.monOffset o)) ∧
    (∀ u, s.tb.st = 2 ∨ s.tb.st = 5 → s.reachBy (1000000000 * s.nextSecond) = some u → exec .syncOutPulse s =
      .next { u with tb := { u.tb with pulse := some s.nextSecond } })) ∧
  (∀ (s : State), Live s → s.tb.due = [] →
    let now := s.nextPitchTime
    let u := ((s.stepTime now).onTb (fun x => { x with starts := s.tb.starts + 1 })).shiftWins (if s.tb.time.toNat < s.origin then now - s.tb.time.toNat else s.pitchLen)
    let y := u.takeEpoch.pitchOpen
    exec .pitchStart s = .next (if y.tb.running && y.topoAllowed then y.buildDue else y))

/-- The events of the topo: each takes its entry off the due list and acts on the cores or links it names (R455 to R458, Table
16-4). The model's choices: log entry 46. -/
def Obligations.TopoEventsComplete : Prop :=
  ∀ (s : State) (n : Nat) (e : BitVec 1024), Live s →
    (s.topoHead 0 = some (n, e) → exec .topoStart s = .next (s.topoPop.onCores n e (fun c s =>
      s.requestStart c 0 ⟨Te.at' e 26 0 20, BitVec.ofNat 64 (Te.at' e 32 0 64), some (BitVec.ofNat 32 (Te.at' e 40 0 32))⟩))) ∧
    (s.topoHead 1 = some (n, e) → exec .topoSwap s =
      .next (s.topoPop.onCores n e (fun c s => s.setFlag c (Te.at' e 26 0 6) true))) ∧
    (s.topoHead 2 = some (n, e) → exec .topoLinkwin s =
      .next (((List.range 24).filter (fun l => bitOf e (160 + l))).foldl (fun s l => if s.domOn (linkDom l) then
        s.openWin ⟨l, false, bitOf e 256, Te.at' e 24 0 32, Te.at' e 24 0 32 + Te.at' e 28 0 32, n, s.tb.starts⟩
      else s.topoMiss n) s.topoPop)) ∧
    (s.topoHead 3 = some (n, e) → exec .topoColl s = .next (s.topoPop.onCores n e (fun c s =>
      (s.collStart c (Te.at' e 26 0 18) (if Te.at' e 29 6 1 = 1 then some (Te.at' e 29 0 6) else none)).settle c))) ∧
    (s.topoHead 5 = some (n, e) → exec .topoCalwin s =
      .next (((List.range 26).filter (fun l => bitOf e (160 + l))).foldl (fun s l =>
        if s.domOn (if l < 24 then linkDom l else 44 + l) then
          s.openWin ⟨l, true, decide (40000 ≤ Te.at' e 28 0 32), Te.at' e 24 0 32, Te.at' e 24 0 32 + Te.at' e 28 0 32, n,
            s.tb.starts⟩
        else s.topoMiss n) s.topoPop)) ∧
    (s.topoHead 6 = some (n, e) → exec .topoDeadline s = .next (s.topoPop.onCores n e (fun c s =>
      ((List.finRange 16).filter (fun g => bitOf e (208 + g.val))).foldl (fun s g => s.closeTime c g) s))) ∧
    (s.topoHead 7 = some (n, e) → 2 ≤ Te.at' e 20 0 3 → exec .topoSleep s = .next (s.topoPop.pwrTake (Te.at' e 20 0 3)
      (Te.at' e 21 0 1 == 1) (Te.at' e 24 0 32) (allDoms.filter (fun d => bitOf e (224 + d))))) ∧
    (s.topoHead 8 = some (n, e) → s.pair.st = 2 → s.pair.heard = true → exec .topoHeart s =
      .next ((s.topoPop.pairSend 9 s.topoPop.heartBody).onPair (fun p => { p with misses := 0, heard := false }))) ∧
    (s.topoHead 9 = some (n, e) → exec .topoEpoch s = .next { s with tb := { s.tb with
      due := s.tb.due.drop 1, epochNext := some (BitVec.ofNat 32 (Te.at' e 20 0 32)) } }) ∧
    (∀ (l : Link) (w : TopoWin) u, s.firstWin l = some w → s.reachBy (s.tb.time.toNat - s.inPitch + w.hi) = some u →
      exec (.linkwinEnd l) s = .next { u with tb := { u.tb with wins := u.tb.wins.erase w } })

/-! ### Links and collectives -/

/-- A running link: a flit that passes its checks joins the record being received, a SEAL closes it, a retry request or a missing
ACK resends, a record is closed and sent, with fresh keys once they are due (R489), and the link goes DOWN with its reason (R461 to
R466, R477, R490). A packet for this
device is delivered, a packet of this device is routed, and another's is forwarded (R472 to R475).
The model's choices: log entries 37, 38, 60. -/
def Obligations.LinkTrafficCompletes : Prop :=
  (∀ (s : State) (l : Link) (f : BitVec 2048), Live s → (s.link l).up = true →
    (∀ u, s.checkFlit l f = (true, u) →
      (flitKind f ≠ 2 → exec (.flitReceive l f) s = .next (u.takeFlit l f)) ∧
      (flitKind f = 2 →
        let r := u.sealRecord l f
        let t := u.linkCheck (r.2.foldl (fun s head => s.cutFail l head) r.1) l
        exec (.flitReceive l f) s = .next t ∧ exec (.sealReceive l f) s = .next t)) ∧
    (∀ seq : BitVec 10, (∃ x ∈ (s.link l).replay, x.seq = seq.toNat) →
      exec (.retryRequest l seq) s = .next (s.linkCheck (s.resend l seq.toNat) l)) ∧
    (∀ g rest t, (s.link l).replay = g :: rest → s.reachBy ((s.link l).ackAt.toNat + 2000) = some t → exec (.ackTimeout l) s =
      .next (t.linkCheck ((t.setLink l { s.link l with ackAt := t.tb.time }).resend l g.seq) l)) ∧
    (s.calNow l.val = false → exec (.recordClose (.link l)) s = .next (s.linkCheck ((s.sendRecord l).autoRekey l) l)) ∧
    (∀ reason, exec (.linkDown l reason) s = .next (s.linkCheck (s.linkDown l reason.toNat) l))) ∧
  (∀ (s : State) (p : Pkt), Live s →
    let u := { s with bv := { s.bv with out := s.bv.out.erase p, arrived := s.bv.arrived.erase p } }
    (p.dest = s.devId → exec (.packetForward p) s = .next (u.deliver p)) ∧
    (p.dest ≠ s.devId → (p.src = s.devId ∨ p ∈ s.bv.out) → exec (.packetForward p) s = .next (u.routePkt p)) ∧
    (p.dest ≠ s.devId → p.src ≠ s.devId → p ∉ s.bv.out → exec (.packetForward p) s = .next (u.forward p)))

/-- R461: a flit whose CRC does not match is discarded and a resend is asked for; no packet arrives, no key or session changes,
and no byte of memory. -/
def Obligations.BadFlitIsDiscarded : Prop :=
  ∀ (s : State) (l : Link) (f : BitVec 2048), Live s → (s.link l).up = true → flitCrcOk f = false →
    ∃ t, exec (.flitReceive l f) s = .next t ∧ t.bv.arrived = s.bv.arrived ∧ t.mem = s.mem ∧ t.cores = s.cores ∧
      (t.link l).rx = [] ∧ (t.link l).lost = true ∧ (t.link l).rxKey = (s.link l).rxKey ∧ (t.link l).rxRec = (s.link l).rxRec ∧
      (∀ k, k ≠ l → t.link k = s.link k)

/-- Writes, reads and responses of another device: an access that the region takes answers with an ACK or the data, a write that
fails leaves none of its bytes and draws a NACK, an access that the region does not allow is denied, and a response ends the
transaction it answers (R476, R641, R642). The model's choices: log entries 37, 59. -/
def Obligations.RemoteAccessesComplete : Prop :=
  ∀ (s : State) (p : Pkt), Live s → p.dest = s.devId →
    (s.staleDenies p = false → p.ptype = 0 → 9 ≤ p.body.length →
      let a := localOf (natOf (p.body.take 8))
      let w := s.writeKeep (.pkt p.src p.txid) (.remote p.src) 15 (s.pktProd p (((queuePage a).map (·.1)).getD 0)) a (p.body.drop 8)
      (s.remoteMay p.src a (p.body.length - 8) = true →
        (∀ u, w = (.done, u) → exec (.pktWrite p) s =
          .next (((u.takePkt p).sendPkt ((u.takePkt p).mkPkt p.src 3 p.txid.toNat 3 [0])).goOn)) ∧
        (∀ e u, w = (.fail e, u) → exec (.pktWrite p) s = .next ((((s.undone u a).takePkt p).nack p e 0).goOn))) ∧
      (s.remoteMay p.src a (p.body.length - 8) = false → exec (.pktWrite p) s = .next (((s.takePkt p).nack p 3 0).remoteDeny))) ∧
    (s.staleDenies p = false → p.ptype = 1 → p.body.length = 10 →
      let a := localOf (natOf (p.body.take 8))
      let n := natOf (p.body.drop 8)
      1 ≤ n → n ≤ 4096 →
      (s.remoteMay p.src a n = true → ∀ bs u, s.busRead (.pkt p.src p.txid) 15 a n = (.data bs, u) →
        exec (.pktRead p) s = .next (((u.takePkt p).sendPkt (u.mkPkt p.src 2 p.txid.toNat 3 bs)).goOn)) ∧
      (s.remoteMay p.src a n = false → exec (.pktRead p) s = .next (((s.takePkt p).nack p 3 0).remoteDeny))) ∧
    ((∃ x ∈ s.bv.txns, x.txid = p.txid.toNat ∧ x.dest = p.src) →
      (p.ptype = 2 → exec (.pktResponse p) s =
        .next ((s.takePkt p).txnEnd p.txid.toNat
          (if p.body.length ≤ 64 then .data (BitVec.ofNat 512 (natOf p.body)) else .bytes p.body)).goOn) ∧
      (p.ptype = 3 → exec (.pktResponse p) s = .next ((s.takePkt p).txnEnd p.txid.toNat (.data 0)).goOn) ∧
      (p.ptype = 8 → exec (.pktResponse p) s = .next ((s.takePkt p).txnEnd p.txid.toNat
        (.failed (natOf (p.body.take 1)) (natOf ((p.body.drop 1).take 1)))).goOn))

/-- The states of a link (Table 17-7): a DOWN link trains, a trained one keys, and a keyed one runs, as the width it trained to
and its configuration allow; training and keying that time out, each at the limit of
Table 17-7 counted from when the state was entered; a peer whose offer fails its checks; REKEY, whose CTRL flits ask both
ends for fresh keys, each direction taking them after the record that says so; RETRAIN, and the
wake signals (R487 to R492, R549). The model's choices: log entries 38, 39, 45. -/
def Obligations.LinkStatesComplete : Prop :=
  ∀ (s : State) (l : Link), Live s →
    let x := s.link l
    (∀ t, x.st = 1 → s.linkOver 1 x.since = some t →
      exec (.linkRetrainTimer (.link l)) s = .next (t.setLink l { x with st := 2, since := t.tb.time })) ∧
    (∀ x4 hi half : Bool, x.st = 2 → (x4 = true → bitOf (s.reg (rLcfg l.val)) 1 = true) → (half = true → bitOf (s.reg (rLcfg l.val)) 0 = true) →
      exec (.trainingDone (.link l) x4 hi half) s = .next (s.setLink l { x with st := 3, since := s.tb.time, x4 := x4, laneHi := x4 && hi, half := half })) ∧
    (∀ t, x.st = 2 → s.linkOver 2 x.since = some t → exec (.trainingTimeout (.link l)) s = .next (t.linkDown l 4)) ∧
    (∀ t, x.st = 3 → s.linkOver 3 x.since = some t → exec (.trainingTimeout (.link l)) s = .next (t.linkDown l 5)) ∧
    (∀ peer : PeerOffer, x.st = 3 → s.sec.trngFail = false →
      let ends := s.tick.ends l peer (Config.peerLink s.free)
      let bad := !(Config.certOk peer.key peer.cert) || !(Config.mldsaVerify peer.key (Config.transcript ends s.free) peer.sig)
        || (bitOf (s.reg (rLcfg l.val)) 3 && fld (s.reg (rLcfg l.val)) 4 16 != peer.devId.toNat)
      exec (.linkKeying l peer) s = .next (if bad then
          ((s.tick.setLink l { x with st := 6, peer := peer.devId }).bumpHi (rBvCnt 1) 1).raise fLinkPeer 13 l.val
            [l.val, peer.devId.toNat]
        else (((s.tick.setLink l (x.newSession s.free ends (s.tick.lowerEnd l peer.devId (Config.peerLink s.free)) peer.devId)).enrol l
          peer).pairCheck l peer).linkUpGo l)) ∧
    (s.powered (linkDom l.val) = true → x.up = true → s.sec.trngFail = false →
      let u := if x.txq.any (·.rekeys) then s else s.sendCtrl l ctrlRekey
      exec (.rekey l) s = .next (u.sendCtrl l ctrlAskRekey)) ∧
    (∀ fs rest credits held draw, fs.any (·.rekeys) = true →
      let y := x.closeRecord fs rest credits held draw
      y.txKey = Config.sessionKey draw (Config.transcript x.ends draw) x.upward ∧ y.txRec = 0 ∧ y.rxKey = x.rxKey ∧ y.rxRec = x.rxRec) ∧
    (let t := s.takeCtrl l [ctrlRekey]
     (t.link l).rxKey = Config.sessionKey s.free (Config.transcript x.ends s.free) (!x.upward) ∧ (t.link l).rxRec = 0 ∧
       (t.link l).txKey = x.txKey ∧ (t.link l).txRec = x.txRec) ∧
    (s.powered (linkDom l.val) = true → x.up = false → x.st ≠ 0 → x.st ≠ 2 →
      exec (.retrain l) s = .next (s.setLink l { x with st := 2, since := s.tb.time })) ∧
    (s.powered (linkDom l.val) = true → exec (.wakeTx l) s = .next s) ∧
    (s.powered (linkDom l.val) = false →
      let u := s.setLink l { x with wakeDet := true }
      exec (.wakeDet l) s = .next (if u.wakeEn l.val then u.wakeFire 1 l.val 0 else u))

/-- Collectives. A notice fails a ring that still runs and is passed on to the successor of every ring this rank runs, once, by a rank
whose collective has ended too; one of a collective that has not begun is kept (R484, R485). Once a ring has waited TIMEOUT for a
flit it fails with reason 5 and the notices are sent, and so it does where a write of OUT has waited so long; before that nothing
happens (R484). A collective all of whose rings have ended, whose writes are done and whose flits have left the links leaves: its
record goes to its pantry word, its flag is set, and where a ring failed LINK_COLL names the failure; otherwise the collectives of
the core go on (R486). The model's choices: log entries 40, 45. -/
def Obligations.CollectivesComplete : Prop :=
  (∀ (s : State) (c : Core), Live s →
    (∀ (tag : BitVec 16) (pitch : BitVec 48) (r : Fin 8) (dev : BitVec 16) (link : BitVec 5),
      let body := bytesOf 2 tag.toNat ++ bytesOf 6 pitch.toNat ++ bytesOf 1 r.val ++ bytesOf 1 c.val ++ bytesOf 2 dev.toNat
        ++ bytesOf 1 link.toNat
      let u := { s with bv := { s.bv with arrived := s.bv.arrived.filter (fun p => !(p.ptype == 5 && p.vc != 0 && p.body == body)) } }
      let now := (s.core c).coll.find? (fun x => x.tag == tag.toNat && x.pitch == pitch.toNat)
      let old := (s.core c).collDone.find? (fun x => x.tag == tag.toNat && decide (pitch.toNat ≤ x.pitch))
      (∀ x g, now = some x → s.collOf c tag.toNat = some x → x.rings[r.val]? = some g →
        (g.noticed = false → Cd.runs x.desc r.val = true →
          let y := x.setRing r.val (fun g => if x.ringDone r.val then { g with noticed := true }
            else { g with failed := true, reason := 2, dev := dev.toNat, link := link.toNat, noticed := true })
          exec (.collFailNotice c ⟨tag, pitch⟩ r dev link) s = .next ((u.setColl c y).sendNotices c y r.val dev.toNat link.toNat)) ∧
        (g.noticed = true ∨ Cd.runs x.desc r.val = false → exec (.collFailNotice c ⟨tag, pitch⟩ r dev link) s = .next u)) ∧
      (∀ x g, now = none → old = some x → x.pitch = pitch.toNat → Cd.runs x.desc r.val = true → x.rings[r.val]? = some g →
        g.noticed = false →
        let y := x.setRing r.val (fun g => { g with noticed := true })
        exec (.collFailNotice c ⟨tag, pitch⟩ r dev link) s = .next ((u.onCore c (fun k => { k with
          collDone := k.collDone.map (fun z => if z.tag = x.tag then y else z) })).sendNotices c y r.val dev.toNat link.toNat)) ∧
      (now = none → old = none → exec (.collFailNotice c ⟨tag, pitch⟩ r dev link) s = .next (u.onCore c (fun k => { k with
        notices := k.notices ++ [⟨tag.toNat, pitch.toNat, r.val, false, 2, dev.toNat, link.toNat⟩] })))) ∧
    (∀ r : Fin 8,
      (∀ t, (s.collDue c r.val).bind s.reachBy = some t →
        let late (x : CollSt) : Bool := x.ringLate r.val t.tb.time.toNat
        (∀ x, (t.core c).coll.find? late = some x →
          exec (.collTimeout c r) s = .next (t.ringFail c x.tag r.val 5 t.devId.toNat (Cd.inLink x.desc r.val)) ∧
          ∀ g, x.rings[r.val]? = some g → g.since + 1000 * Cd.timeout x.desc ≤ t.tb.time.toNat ∧ x.ringDone r.val = false) ∧
        (∀ x, (t.core c).coll.find? late = none → (t.core c).coll.find? (fun x => x.putLate r.val t.tb.time.toNat) = some x →
          let y := { x with puts := x.puts.filter (fun p => p.ring != r.val) }
          exec (.collTimeout c r) s = .next (if (x.rings[r.val]?).any (·.failed) then t.setColl c y
            else t.hopFail c y r.val 5 t.devId.toNat (Cd.inLink x.desc r.val)))) ∧
      ((s.collDue c r.val).bind s.reachBy = none → exec (.collTimeout c r) s = .next s)) ∧
    ((∀ x, (s.core c).coll.find? (s.collEnded c) = some x →
        let w := s.onCore c (fun k => { k with coll := k.coll.filter (fun y => y.tag != x.tag)
                                               collDone := k.collDone.filter (fun y => y.tag != x.tag) ++ [{ x with input := [] }] })
        let u := { w with bv := { w.bv with early := w.bv.early.filter (fun p =>
          !(collMine c x.tag p && decide ((CollMsg.ofBody p.body).pitch ≤ x.pitch))) } }
        let v := if u.inOwnPantry c (Cd.record x.desc) 64 then u.put 14 (Cd.record x.desc) (x.record c s.tb.time) else u
        let t := (match x.flag with
          | some f => v.setFlag c f true
          | none => v)
        exec (.collEnd c) s = .next (if x.status = 0 then t
          else (t.bumpLo (rBvCnt 1) 1).raise fLinkColl 13 0 [x.tag, x.why.dev, x.why.link])) ∧
      ((s.core c).coll.find? (s.collEnded c) = none → exec (.collEnd c) s = .next s)) ∧
    (∀ x, s.collEnded c x = true ↔
      (x.reading = false ∨ ∀ r ∈ x.run, ∃ g, x.rings[r]? = some g ∧ g.failed = true) ∧ x.puts = [] ∧
        ∀ r, r < Cd.rings x.desc → x.ringDone r = true ∧
          ((∃ g, x.rings[r]? = some g ∧ g.failed = true) ∨ s.ringHeld c x r = false))) ∧
  (∀ (s : State) (c : Core) (x : CollSt) (r reason dev link : Nat), s.collOf c x.tag = some x → x.ringDone r = false →
    let y := x.setRing r (fun g => { g with failed := true, reason := reason, dev := dev, link := link })
    s.ringFail c x.tag r reason dev link = (s.setColl c y).sendNotices c y r dev link) ∧
  (∀ (x : CollSt) (c : Core) (time : W64),
    (∀ r, x.ringBad r = true ↔ Cd.runs x.desc r = true ∧ ∃ g, x.rings[r]? = some g ∧ g.failed = true) ∧
    (∃ ok fail, x.record c time = partRecord x.tag x.status false (Cd.rings x.desc) c.val 0 x.why.reason (x.bad.head?.getD 0)
        ok fail x.bytes time 0 0xFFFFFFFF x.why.dev x.why.link ∧
      ∀ r, r < 8 → bitOf ok r = (Cd.runs x.desc r && !(x.ringBad r)) ∧ bitOf fail r = x.ringBad r) ∧
    (x.status = 0 ↔ ∀ r, r < 8 → x.ringBad r = false) ∧
    (x.status = 2 ↔ (∃ r, r < 8 ∧ x.ringBad r = true) ∧ ∀ r, r < 8 → Cd.runs x.desc r = true → x.ringBad r = true) ∧
    x.status ≤ 2)

/-! ### The Nimzen link -/

/-- Requests of the companion for the device's memory, on a half that is UP or DEGRADED: uncached reads and writes that a window
admits and the bus takes are answered with DATA_NC or CMP (R495, R503), and one that no window admits is refused (R502). A
shared and an owning read of a line that the other half does not own or hold are answered with the line, and the directory
records the half (R506, R507). The model's choices: log entry 47. -/
def Obligations.NimzenAccessesComplete : Prop :=
  ∀ (s : State) (h : Half) (txid : BitVec 10) (addr : BitVec 48), Live s → (s.half h).up = true →
    let a := addr.toNat / 64 * 64
    let t := txid.toNat
    (∀ lines, 1 ≤ lines → lines ≤ 64 →
      (s.compMay h a (64 * lines) false = true → ∀ bs u, s.busRead (.nc h t) 15 a (64 * lines) = (.data bs, u) →
        exec (.rdNc h txid addr lines) s = .next ((u.nzTaken h 3 t).nzData h t 2 bs)) ∧
      (s.compMay h a (64 * lines) false = false → exec (.rdNc h txid addr lines) s = .next ((s.nzTaken h 3 t).nzDeny h t))) ∧
    (∀ data u, data.length ≠ 0 → data.length % 64 = 0 → data.length ≤ 4096 → s.compMay h a data.length true = true →
      s.nzWrite h t a data = (.done, u) → exec (.wrNc h txid addr data) s = .next ((u.nzTaken h 4 t).nzCmp h t)) ∧
    (∀ data mask u, data.length = 64 → s.compMay h a 64 true = true →
      s.nzPart h t a data mask = (.done, u) → exec (.wrPart h txid addr data mask) s = .next ((u.nzTaken h 5 t).nzCmp h t)) ∧
    (∀ n, s.boot.st ≠ 4 → s.winFor h a 64 false = some n → s.winBit n 30 = true → s.populated a = true →
      s.domOn (s.memDom a) = true → s.filled a = true → s.snooping (a / 64) = false → (∀ x ∈ s.nz.waits, x.line ≠ a / 64) →
      s.dirUsed h.val < 262144 → s.eccOf (eccUnit a) = .ok →
      (s.dirGet (a / 64) < 4 → exec (.rdShared h txid addr) s =
        .next (((s.nzTaken h 1 t).dirSet (a / 64) (s.dirGet (a / 64) ||| 2 ^ h.val)).nzData h t 0 (bytesOf 64 (s.wordAt a)))) ∧
      (othersOf (s.dirGet (a / 64)) (some h) = [] → exec (.rdOwn h txid addr) s =
        .next (((s.nzTaken h 2 t).dirSet (a / 64) (4 + h.val)).nzData h t 1 (bytesOf 64 (s.wordAt a)))))

/-- What the companion gives back: dirty data of a line its half owns is written and the line is free, an evicted line is no
longer held, the answer to a snoop ends it, one to a snoop that has ended is discarded and one to none is a bad message (R497), and
a snoop that finds no answer for SNOOP_TO microseconds ends with its record (R506 to R509).
The model's choices: log entries 45, 47. -/
def Obligations.NimzenReturnsComplete : Prop :=
  ∀ (s : State) (h : Half) (txid : BitVec 10) (addr : BitVec 48), Live s →
    let line := addr.toNat / 64
    let t := txid.toNat
    ((s.half h).up = true →
      (∀ data, data.length = 64 → s.snoopOf h line = none → s.dirGet line = 4 + h.val →
        exec (.wbDirty h txid addr data) s = .next (((((s.nzTaken h 6 t).wrLocal (64 * line) data).dirSet line 0).nzCmp h t).dirResume line)) ∧
      (dirHolds (s.dirGet line) h.val = true →
        exec (.evict h txid addr) s = .next (((s.nzTaken h 7 t).dirSet line (dirDrop (s.dirGet line) h.val)).nzCmp h t)) ∧
      (∀ data,
        let u := s.nzTaken h 8 t
        (s.nz.stale.contains (h.val, t) = true → exec (.snpRsp h ⟨txid, addr⟩ data) s =
          .next { u with nz := { u.nz with stale := u.nz.stale.erase (h.val, t) } }) ∧
        (s.nz.stale.contains (h.val, t) = false →
          ((∃ p ∈ s.nz.snoops, p.line = line ∧ p.half = h.val ∧ p.txid = some t) →
            exec (.snpRsp h ⟨txid, addr⟩ data) s = .next ((u.snoopDone line h data).goOn)) ∧
          ((∀ p ∈ s.nz.snoops, p.line = line → p.half = h.val → p.txid ≠ some t) →
            exec (.snpRsp h ⟨txid, addr⟩ data) s = .next (u.nzBad h))))) ∧
    (∀ p k u, s.snoopOf h line = some p → p.txid = some k → s.reachBy (p.since + 1000 * s.rf rNzCfg 3 8) = some u →
      exec (.snoopTimeout h addr) s = .next (
        let v := (u.bumpLo (rNzCnt h.val 1) 1).raise fNzSnoop 14 h.val [h.val, 64 * line]
        (({ v with nz := { v.nz with stale := v.nz.stale ++ [(h.val, k)] } }).snoopDone line h none).goOn))

/-- Messages of a half that is UP or DEGRADED: a menu request and a doorbell push their packet, a read of a pop range that waited
takes the packet that becomes visible or is refused after POP_WAIT microseconds, the companion's answers end the device's own
requests and messages, a line that was read for a write of part of it is merged, C_INV drops a copy, and the device sends
and resends its messages (R504, R505, R511 to R517). The model's choices: log entries 45, 47, 48. -/
def Obligations.NimzenMessagesComplete : Prop :=
  ∀ (s : State) (h : Half) (txid : BitVec 10), Live s →
    let x := s.half h
    let t := txid.toNat
    (∀ p rest u, x.pops = p :: rest → (s.queue p.queue).pkts.head?.any (·.begun) = false →
      s.reachBy (p.since + 1000 * s.rf rNzCfg 27 16) = some u →
      exec (.popWaitExpiry h) s = .next ((u.onHalf h (fun x => { x with pops := rest })).nzNack h p.txid 5)) ∧
    (∀ q r p, s.firstPop q = some (h, r) → (s.lookWritten q).qHead q = some p → p.whole = true → p.linked = true →
      s.servePops q 1 = (s.lookWritten q).servePop q h r p) ∧
    (x.up = true →
      (∀ (entry : BitVec 16) data w, data.length ≠ 0 → data.length % 64 = 0 → data.length ≤ 4096 → s.boot.st = 3 → s.pair.st ≠ 1 →
        s.pair.st ≠ 4 → s.menuEntry h entry.toNat data.length = some w → fld w 0 2 = 2 →
        exec (.menuReq h txid entry data) s = .next ((s.nzTaken h 9 t).nzPush h t (fld w 28 11) data)) ∧
      (∀ (q : BitVec 11) data, data.length = 64 → s.boot.st = 3 → (if h = 0 then 60 else 1084) ≤ q.toNat →
        q.toNat ≤ (if h = 0 then 63 else 1087) →
        exec (.doorbell h txid q data) s = .next ((s.nzTaken h 10 t).nzPush h t q.toNat (data.take 8))) ∧
      (∀ data r, x.reqs = [r] → r.txid = t → r.write = false → r.inv = true →
        let u := s.nzTaken h 11 t
        let v := u.setHalf h { u.half h with reqs := [] }
        let word := BitVec.ofNat 512 (natOf data)
        (r.data = none → exec (.cData h txid 0 data) s = .next ((v.answerTo r.who (.data word)).sendSnoop h).goOn) ∧
        (∀ d, r.data = some d → r.need = [] → exec (.cData h txid 0 data) s =
          .next ((v.putLines h r.who r.addr d (r.have' ++ [(r.line, word)])).sendSnoop h).goOn)) ∧
      (∀ r, x.reqs = [r] → r.txid = t → r.write = true →
        let u := s.nzTaken h 12 t
        exec (.cCmp h txid 0) s = .next (((u.setHalf h { u.half h with reqs := [] }).answerTo r.who (.data 0)).sendSnoop h).goOn) ∧
      (∀ addr : BitVec 48, exec (.cInv h txid addr) s = .next (((s.nzTaken h 13 t).onHalf h (fun x =>
        { x with cache := x.cache.filter (fun e => e.1 != addr.toNat / 64)
                 reqs := x.reqs.map (fun r => if r.line = addr.toNat / 64 ∧ !r.write then { r with inv := true } else r) })).nzCmp h t)) ∧
      (∀ q rest, s.nz.levels = q :: rest → s.levelHalf = h → x.msgs.length < 16 → s.nzFull h = false → exec (.msgSend h) s =
        .next (({ s with nz := { s.nz with levels := rest } }).newMsg h q [] true)) ∧
      (∀ m u, resendNext x.msgs = some m → s.reachBy m.due = some u →
        exec (.msgResend h) s = .next ((u.onHalf h (fun x =>
          { x with msgs := x.msgs.map (fun n => if n.txid = m.txid then { n with again := false } else n) })).nzSend h (msgOf m))) ∧
      (∀ body : BitVec 1888, ((nzBytes body).drop 4).take 4 = complBytes ((nzBytes body).take 4) → fld body 0 2 = 1 → x.rx.length < 64 →
        x.lost = false → exec (.nzFlitReceive h body) s = .next (s.setHalf h { x with rx := x.rx ++ [body] })))

/-- The states of a half: it goes DOWN, the timer and RETRAIN send it to TRAINING, a trained half keys, keying signs and brings it
UP or DEGRADED as the width it trained to, or to FAILED where the companion does not prove its identity; training and keying that
time out, at the limits of Table 17-7; REKEY asks for fresh keys; and it closes and sends its records (R498, R499, R510, Table
17-7). The model's choices: log entries 39, 45, 47. -/
def Obligations.HalfStatesComplete : Prop :=
  ∀ (s : State) (h : Half), Live s →
    let x := s.half h
    (x.up = true → exec (.halfDown h) s = .next (s.halfTo h 1).settleAll.collAll.pairPump) ∧
    (∀ t, x.st = 1 → s.linkOver 1 x.since = some t → exec (.linkRetrainTimer (.half h)) s = .next (t.halfTo h 2)) ∧
    (∀ x8 hi nrz : Bool, x.st = 2 →
      exec (.trainingDone (.half h) x8 hi nrz) s = .next (s.onHalf h (fun x => { x with st := 3, since := s.tb.time, x8 := x8, nrz := nrz }))) ∧
    (∀ t, x.st = 2 ∨ x.st = 3 → s.linkOver x.st x.since = some t → exec (.trainingTimeout (.half h)) s = .next (t.halfTo h 1)) ∧
    (s.powered (halfDom h) = true → x.st ≠ 0 → x.st ≠ 2 →
      exec (.nzRetrain h) s = .next ((if x.up then s.halfGone h else s).halfTo h 2)) ∧
    (s.powered (halfDom h) = true → x.up = true → s.sec.trngFail = false →
      let u := if x.ctl.contains ctrlRekey then s else s.onHalf h (fun x => { x with ctl := x.ctl ++ [ctrlRekey] })
      exec (.nzRekey h) s = .next (u.onHalf h (fun x => { x with ctl := x.ctl ++ [ctrlAskRekey] }))) ∧
    (x.up = true → s.calNow (24 + h.val) = false →
      let t := s.tick.onHalf h (fun x => x.closeRecord s.free)
      exec (.recordClose (.half h)) s = .next (if 2 ^ 31 ≤ (t.half h).txRec + 3 then t.nzAskRekey h else t)) ∧
    (∀ key sig : List Byte, x.st = 3 → s.sec.trngFail = false →
      let u := s.tick
      let bad := bitOf (s.reg rNzCfg) 2 && s.boot.st != 4 && !(u.compOk s.free key sig)
      let t := Config.compTranscript s.free
      exec (.nzKeying h key sig) s = .next (if bad then (u.halfTo h 6).raise fNzPeer 14 h.val [h.val]
        else (u.setHalf h { x with
          st := if x.x8 || x.nrz then 5 else 4, fails := 0, rx := [], lost := false, asks := 0, last := [], rxRec := 0, txRec := 0
          sig := if s.sec.ident then Config.idSign t else []
          txKey := Config.sessionKey s.free t Config.halfUpward
          rxKey := Config.sessionKey s.free t (!Config.halfUpward) }).wlPump))

/-! ### Boot, flash and larder -/

/-- Resets and boot: the reset pins and BOOT_RESET put the block into reset, RESET_RELEASE starts boot with the device ID of the
strap pins, an image that passes its checks is applied, and the weights that come from outside load or fail (R521 to R530,
R536). The model's choices: log entries 5, 51, 52. -/
def Obligations.BootCompletes : Prop :=
  ∀ (s : State),
    (exec .porNAssert s = .next s.clearAll ∧ exec .resetNAssert s = .next s.resetN ∧
      exec .vddAonLow s = .next { s.clearAll with pwr := { s.clearAll.pwr with trip := s.pwr.trip } }) ∧
    (Live s →
      exec .bootReset s = .next s.bootReset ∧
      (∀ id : BitVec 16, s.boot.phase = 0 → exec (.resetRelease id) s = .next (s.bootStart id)) ∧
      (s.boot.phase = 1 → s.memc.hbmFilled = true → s.sec.dead = false →
        let base := s.slotBase s.boot.slot
        let n := imgLen (s.flashBytes base 128)
        let img := s.flashBytes base n
        exec .imageRead s = .next (let u := (s.wrBytes stagingBase img).freshEcc stagingBase n
          { u with boot := { u.boot with st := 1, phase := 2, len := n, image := imgDigest img, owner := Config.sha3 (imgKey img)
                                         next := BitVec.ofNat 32 (imgVersion img) } })) ∧
      (s.boot.phase = 2 → exec .imageReadDone s = .next (
        if Config.flashRead s.free = false then s.tick.slotFails 6
        else match s.tick.stagedRead with
          | (none, v) => v.slotFails 6
          | (some img, v) =>
            let r := v.imageCheck (imgKey img) v.boot.image (imgSig img) v.boot.next.toNat
            if r.1 ≠ 0 then r.2.slotFails r.1
            else if (configRecords img).any (fun p => (configPlace p.1).isNone) then r.2.slotFails 5
            else ((r.2.onBoot (fun b => { b with st := 2 })).applyImage img).bootLoad img)) ∧
      (∀ n e rest, s.wlNow = some (n, e, rest) →
        (∀ data, s.wlData e = some data → exec (.weightLoadDone n) s = .next (if Config.sha3 data = wlDigest e then
            ((s.wrLocal (wlDst e) data).onBoot (fun b => { b with digests := b.digests ++ wlDigest e })).wlRun rest
          else (s.wlFail n e).wlRun rest)) ∧
        (s.wlData e = none → exec (.weightLoadDone n) s = .next s.wlPump) ∧
        (∀ t, s.reachBy (s.boot.since.toNat + 1000000 * s.rf rBootCtl 0 16) = some t →
          exec .loadWaitExpiry s = .next ((t.wlFail n e).wlRun rest))))

/-- Flash commands and the larder: a command that its rules allow starts, its end makes its effect and clears or sets PERR
(R534 to R536); a write of a word that its writer may write waits for its turn, any other is denied and counted (R537 to
R541), and a write that ends stores the word beside its complement. The model's choices: log entries 49, 50. -/
def Obligations.FlashAndLarderComplete : Prop :=
  ∀ (s : State),
    (Live s →
      (∀ (a : BitVec 30) (code : Nat) (i : Instr),
        (code, i) ∈ [(1, .erase a), (2, .program a), (3, .bootRead a), (4, Instr.verify a)] →
        let u := s.setReg rBootPaddr (a.setWidth 64)
        let b := u.rf rBootPaddr 0 30
        s.boot.cmd = none → b % flashUnit code = 0 → u.bootedSlot ≠ some (u.slotOf b) → exec i s = .next { u with boot := { u.boot with
          cmd := some ⟨code, b, (List.range 8).flatMap (fun k => bytesOf 8 (u.reg (rBootPdata k)).toNat)⟩ } }) ∧
      (∀ c ok, s.boot.cmd = some c → s.boot.wantReset = false → exec (.flashCmdDone ok) s = .next (
        let u := if ok then s.flashEnd c else s.flashReset
        { u with boot := { u.boot with cmd := none, perr := !ok } })) ∧
      (∀ (n : LardNo) (v : W64) (who : Writer),
        (lardAllows who n.val = true → exec (.lardWrite n v who) s =
          .next { s with boot := { s.boot with lardq := s.boot.lardq ++ [(n.val, v)] } }) ∧
        (lardAllows who n.val = false → exec (.lardWrite n v who) s = .next (s.lardDeny n.val who)))) ∧
    (∀ n v rest, s.boot.lardq = (n, v) :: rest →
      let t := ({ s with boot := { s.boot with lardq := rest } }).lardStore n v
      exec .lardWriteDone s = .next (if n = 9 then t.enrolled else t))

/-! ### Security -/

/-- Every command of the enclave starts where its requirements hold: it becomes the running command, LAST_CMD is its code, and
the two that use the nonce take it. Its end makes its effect; the nonce expires; and a random source that fails is
reported (R543, R544, R548, R552, Table 20-1). The model's choices: log entries 39, 54. -/
def Obligations.SecurityCommandsComplete : Prop :=
  ∀ (s : State) (p : SecPath) (arg : BitVec 5), Live s →
    (s.secReach p = true → s.sec.busy = none → s.lardOk 19 = true → ∀ (code : Nat) (i : Instr),
      (code, i) ∈ [(1, .getId p), (2, .attest p), (3, .challenge p), (4, .debugOpen p), (5, .pwTry p arg), (6, .pwSet p arg),
        (7, .pwClear p), (8, .commitVersion p), (9, .ownSet p), (10, .ownClear p), (11, .debugClose p), (12, Instr.never p)] →
      let n := if code = 5 ∨ code = 6 then arg.toNat else 0
      let uses := code == 4 || code == 10
      (s.secRefusal code n = 0 → exec i s = .next { s with sec := { s.sec with
        lastCmd := code, busy := some ⟨code, p, n, if uses then s.sec.nonce else none, s.tb.time⟩
        nonce := if uses then none else s.sec.nonce } }) ∧
      (s.secRefusal code n ≠ 0 → exec i s = .next (let u := s.bumpLo (rSecCnt 0) 1
        { u with sec := { u.sec with result := s.secRefusal code n, lastCmd := code } }))) ∧
    (∀ c t, s.sec.busy = some c → s.secEnds c = some t → exec .secCmdDone s = .next (
      { (t.secEnd c).1 with sec := { (t.secEnd c).1.sec with busy := none, result := (t.secEnd c).2 } })) ∧
    (∀ v t, s.sec.nonce = some v → s.reachBy (s.sec.drawn.toNat + 60000000000) = some t →
      exec .nonceExpiry s = .next { t with sec := { t.sec with nonce := none } }) ∧
    (s.boot.phase ≠ 0 → s.memc.hbmFilled = true → exec .trngFail s =
      .next (({ s with sec := { s.sec with trngFail := true } }).raise fSecTrng 17 0 []))

/-! ### Roped pairs -/

/-- The commands of a roped pair: what the twin sends is taken and answered, a device that waits too long goes SOLO, a resync
completes, at its source with the announcement of the rejoin pitch and at its receiver with MIRROR_GEN set, and its rejoin pitch
ends it, and detaching goes through its acknowledgement to its release (R561, R565 to R573, Table 21-3). The model's choices: log
entry 55. -/
def Obligations.PairCommandsComplete : Prop :=
  ∀ (s : State), Live s →
    (∀ (l : Link) (hb : Heartbeat), s.fromTwin l hb.src = true → s.pair.st = 2 → exec (.heartbeatReceive l hb) s =
      .next { s with pair := { s.pair with heard := true, twinGen := some hb.shardGen, srcGen := some hb.shardGen
                                           twinSt := some hb.state.toNat, twinEpoch := hb.epoch } }) ∧
    (s.boot.st = 3 → s.pair.st = 1 → s.pair.peerOk = false → s.pitchesPast s.pair.ran s.attachWait = true →
      exec .attachWaitExpiry s = .next (s.enterSolo false)) ∧
    (∀ (l : Link) (m : AttachMsg), s.fromTwin l m.src = true → s.pair.resync = 0 → s.pair.st = 1 →
      let u := { s with pair := { s.pair with srcGen := some m.shardGen, peerOk := true } }
      exec (.attachMsg l m) s = .next (u.attachOutcome m).resyncGo ∧
      (m.epoch = s.lardNext 18 → m.shardGen = s.mirrorGen → s.shardGen = m.mirrorGen →
        exec (.attachMsg l m) s = .next { u with pair := { u.pair with st := 2, resync := 0, misses := 0, todo := [] } }) ∧
      ((s.lardNext 18).toNat < m.epoch.toNat →
        exec (.attachMsg l m) s = .next { u with pair := { u.pair with st := 4, resync := 2, twinEpoch := m.epoch, todo := [] } }) ∧
      (m.epoch.toNat < (s.lardNext 18).toNat →
        let v := u.lardQueue 18 (s.lardNext 18 + 1)
        exec (.attachMsg l m) s = .next ({ v with pair := { v.pair with st := 3, resync := 1 } } : State).resyncGo)) ∧
    (s.pair.resync = 1 → s.pair.rejoin = none → s.pair.todo = [] → exec .resyncDone s = .next (
      let at' := s.tb.pitch + s.rejoinLead
      ({ s with pair := { s.pair with rejoin := some at' } }).pairSend 10 (bytesOf 8 4 ++ bytesOf 8 at'))) ∧
    (∀ g, s.pair.resync = 2 → s.pair.todo = [] → s.pair.srcGen = some g →
      exec .resyncDone s = .next (s.setRf rPairGen 32 32 g.toNat)) ∧
    (∀ p, s.pair.rejoin = some p → p ≤ s.tb.pitch → s.pair.resync ≠ 0 → exec .rejoinPitch s = .next (
      let u := if s.pair.st = 4 then s.lardQueue 18 s.pair.twinEpoch else s
      { u with pair := { u.pair with st := 2, resync := 0, rejoin := none, misses := 0 } })) ∧
    (s.pair.st = 2 → exec .detach s = .next (
      let at' := s.tb.pitch + s.rejoinLead
      ({ s with pair := { s.pair with asked := some s.pitchMark, release := some at' } }).pairSend 10 (bytesOf 8 2 ++ bytesOf 8 at'))) ∧
    (s.pair.st = 3 → exec .detach s = .next s.unpair) ∧
    (s.pair.st ≠ 0 → s.pair.st ≠ 5 → exec .attach s = .next s.sendAttach) ∧
    (∀ p, s.pair.st = 2 → s.pair.asked = some p →
      exec .detachAck s = .next { s with pair := { s.pair with st := 5, asked := none } } ∧
      (s.pitchesPast p 8 = true → exec .pairDetach s =
        .next (({ s with pair := { s.pair with asked := none, release := none } }).raise fPairDetach 18 0 []))) ∧
    (∀ p, s.pair.st = 5 → s.pair.release = some p → p ≤ s.tb.pitch → exec .releasePitch s = .next s.unpair)

/-! ### Power -/

/-- Sleep requests: a request that Table 22-3 allows is taken with the domains it names, a domain that refuses ends it with its
reason, and so does one that still delays it after DELAY_LIM microseconds, one that all accept is committed, the save and each off
step follow (R579 to R585). A voltage request ends with its acknowledgement, or AVS_TIMEOUT microseconds after it was made with
AVS_TO and a PWR_AVS record (R598, R599). UNGATE ends the gating of a domain. The model's choices: log entries 45, 56. -/
def Obligations.SleepRequestsComplete : Prop :=
  ∀ (s : State), Live s →
    (∀ who, exec (.pwrReqActive who) s = .next (s.pwrActive who)) ∧
    (∀ (save : Bool) (len : W32), s.pwr.req = none → s.pwr.wake = none →
      let wake := if len = 0 then none else some (s.tb.pitch + len.toNat)
      let take (goal : Nat) (sv : Bool) (doms : NSet) (wk : Option Nat) : State :=
        { s with pwr := { s.pwr with req := some ⟨goal, doms.filter s.powered, sv, wk, 0, [], s.tb.time⟩ } }
      (s.pwr.st ≤ 1 → exec .pwrReqIdle s = .next (take 1 false s.reqDoms none)) ∧
      (s.pwr.st ≤ 2 →
        exec (.pwrReqNap len) s = .next (take 2 false s.reqDoms wake) ∧
        exec (.pwrReqBivouac save len) s = .next (take 3 save allDoms wake) ∧
        exec (.pwrReqWatch save len) s = .next (take 4 save allDoms wake))) ∧
    (∀ r, s.querying = some r →
      (∀ d why, s.firstRefusal r false = some (d, why) → exec .domainQuery s = .next (s.pwrRefuse d why)) ∧
      (∀ t d why, s.reachBy (r.since.toNat + 1000 * s.rf rPwrCfg 2 10) = some t → t.firstRefusal r true = some (d, why) →
        exec .delayLimExpiry s = .next (t.pwrRefuse d why)) ∧
      (s.firstRefusal r true = none → exec .pwrCommit s = .next (s.pwrCommitted r))) ∧
    (∀ r, s.pwr.req = some r →
      (r.phase = 1 → r.steps ≠ [] → exec .saveDone s = .next (let u := (List.finRange 48).foldl (fun s c => s.saveCore c) s
        { u with pwr := { u.pwr with req := some { r with phase := 2 } } })) ∧
      (∀ k n rest, r.phase = 2 → r.steps = k :: n :: rest → exec .offStep s = .next (
        let u := (r.doms.filter (fun d => wakeStepOf d == k)).foldl (fun s d => s.domOff r.goal d) s
        { u with pwr := { u.pwr with req := some { r with steps := n :: rest } } }))) ∧
    (∀ q rest, s.pwr.avs = q :: rest → exec .avsAck s =
      .next (({ s with pwr := { s.pwr with avs := rest, rails := setAt q.rail q.mv s.pwr.rails } }).avsDrained)) ∧
    (∀ q rest t, s.pwr.avs = q :: rest → s.reachBy (q.since.toNat + 1000 * s.rf rPwrCfg 12 10) = some t →
      exec .avsTimeout s = .next (t.avsGiveUp q rest) ∧
      (q.up = false → s.pwr.wake = none → t.avsGiveUp q rest =
        ((((({ t with pwr := { t.pwr with avs := rest } }).bumpHi (rPwrCnt 0) 1).raise fPwrAvs 19 0 [q.rail, q.mv])).avsDrained))) ∧
    (∀ d : Dom, NSet.has d.val s.pwr.gated = true → exec (.ungate d) s = .next (
      let left := NSet.del d.val s.pwr.gated
      let u := s.setReg rPwrWake (s.wakeSrc 8 0 0 false)
      { u with pwr := { u.pwr with gated := left, st := if u.pwr.st = 1 && left.isEmpty then 0 else u.pwr.st } }))

/-- Waking: each wake source that is enabled fires, WATCH takes its next sample WATCH_PERIOD after the last one (R578), a step of
the wake brings its domains back, the restore ends its step, the pads are released, and the operating point follows OP and the
temperature (R586 to R592, R602, R604, R670, R671, R673). The model's choices: log entries 45, 49, 56. -/
def Obligations.WakingCompletes : Prop :=
  ∀ (s : State), Live s →
    (s.wakeEn 26 = true → exec .wakeNLow s = .next (s.wakeFire 3 0 0)) ∧
    (∀ h : Half, s.wakeEn (24 + h.val) = true → exec (.nzIdleExit h) s = .next (s.wakeFire 2 0 h.val)) ∧
    (∀ p, s.pwr.req = none → s.pwr.wakeAt = some p → p ≤ s.tb.pitch → exec .wakePitch s = .next (s.wakeFire 4 0 0)) ∧
    (∀ temp, s.wakeEn 27 = true → s.tempOut temp = true → exec (.tempWake temp) s = .next (s.wakeFire 5 0 0)) ∧
    (∀ aon vio, s.wakeEn 28 = true → s.railOut aon vio = true → exec (.railWake aon vio) s = .next (s.wakeFire 6 0 0)) ∧
    (∀ smp t, s.pwr.st = 4 → s.pwr.wake = none → s.pwr.req = none →
      s.reachBy (s.pwr.sampled.toNat + 1000000 * s.watchPeriod) = some t →
      let u := { t with pwr := { t.pwr with sampled := t.tb.time } }
      (∀ a b d, u.sampleSource smp = some (a, b, d) → exec (.watchSample smp) s = .next (u.wakeNow a b d false)) ∧
      (u.sampleSource smp = none → exec (.watchSample smp) s = .next u)) ∧
    (∀ w, s.pwr.wake = some w → 2 ≤ w.step → w.step ≤ 8 → exec .wakeStep s = .next (s.wakeStep w)) ∧
    (∀ w, s.pwr.wake = some w → w.step = 9 → s.saveErrs = [] → exec (.restoreDone []) s = .next (
      let u := ((List.finRange 48).foldl (fun s c => s.restoreCore c []) s).bumpHi (rPwrCnt 1) 0
      { u with pwr := { u.pwr with wake := some { w with step := nextWakeStep w.doms 6 } } })) ∧
    (∀ v, exec (.pwrPadRelease v) s = .next (s.padRelease v)) ∧
    (∀ op : BitVec 2, exec (.opChange op) s = .next ((s.setRf rPwrCfg 0 2 op.toNat).opMove)) ∧
    (∀ temp : BitVec 16, s.pwr.therm = false → 16 * (s.rf rPwrCfg 22 8 : Int) ≤ temp.toInt →
      exec (.thermalStep temp) s = .next (({ s with pwr := { s.pwr with therm := true } }).opMove)) ∧
    (∀ temp : BitVec 16, 1920 ≤ temp.toInt → exec (.thermtrip temp) s = .next { s with pwr := { s.pwr with trip := true } }) ∧
    (let n := 104 + Config.undervoltWord.val;
      exec .railUndervolt s = .next (s.resetN.lardQueue n (s.resetN.lardVal n + 1)))

/-! ### Self-test, monitors and register access -/

/-- Array self-test, SerDes recalibration, a field of the image that fails, monitors (a sample of a source that the
model takes itself changes nothing, and occupancy is what the queue holds), and a register write of any writer that may
make it (R608, R617 to R627, R641 to R644). The model's choices: log entries 53, 58, 59. -/
def Obligations.SelfTestAndMonitorsComplete : Prop :=
  ∀ (s : State), Live s →
    (∀ v, exec (.fltBistreq v) s = .next (s.bistReq v)) ∧
    (∀ (c : Core) (a : Arr),
      let x := s.arr c a
      (x.bistPending = true → x.bistRunning = false → s.coreOn c = true → s.bistIdle c a = true →
        exec (.bistStart c a) s = .next (s.setArr c a { x with bistPending := false, bistRunning := true })) ∧
      (x.bistRunning = true → ∀ pass,
        let u := s.setArr c a { x with
          bistRunning := false, p0 := .none, p1 := .none, fp32 := false, loaded := none, taken := false, swap := false }
        exec (.bistDone c a pass) s = .next (if pass then (u.arrAdvance c a 5).settle c else (u.bistFail c a).settle c)) ∧
      (x.bistPending = true → x.bistRunning = false → s.pitchesPast x.bistSince (s.rf rFltCtl 1 16) = true →
        exec (.bistRefuse c a) s = .next (s.bistRefuse c a))) ∧
    (∀ v : W64, exec (.fltCalreq v) s = .next { s with flt := { s.flt with cal := s.flt.cal ||| v.setWidth 26 } }) ∧
    (∀ (links : BitVec 24) (halves : BitVec 2), ∃ t, exec (.serdesCalDone links halves) s = .next t ∧ t.mem = s.mem ∧
      t.regs = s.regs ∧ (∀ n < 26, bitOf t.flt.cal n = (bitOf s.flt.cal n &&
        !(s.calNow n && (if n < 24 then bitOf links n else bitOf halves (n - 24)))))) ∧
    (∀ f : FieldAddr,
      let u := regUnit f.toNat
      let v := s.cmpMiss 9 f.toNat u.2 u.1 u.2
      exec (.fieldRestore f true) s = .next (v.bumpHi (rFltCnt 1) 1) ∧
      exec (.fieldRestore f false) s = .next { v.recover with flt := { v.recover.flt with halt := true } }) ∧
    (∀ (m : MonNo) (v : W64), s.powered (monDom m.val) = true →
      exec (.monCfgWrite m v) s = .next (s.monCfgWrite m.val v) ∧
      exec (.monClr m) s = .next (s.setMon m.val { s.mon m.val with live := .clear, shown := .clear })) ∧
    (∀ m : MonNo, s.monEnabled m.val = true → s.monWindow m.val ≠ 0 → s.pitchesPast (s.mon m.val).since (s.monWindow m.val) = true →
      let x := s.mon m.val
      exec (.monWindowEnd m) s = .next (s.setMon m.val { live := .clear, shown := x.live, windows := x.windows + 1
                                                         since := x.since + s.monWindow m.val })) ∧
    (∀ (m : MonNo) (v : W32),
      (monSelf (s.monSrc m.val) = true → exec (.monSample m v) s = .next s) ∧
      (monSelf (s.monSrc m.val) = false → s.monEnabled m.val = true →
        let x := s.mon m.val
        let n : Int := if s.monSrc m.val = 18 then (s.queue (s.monSel m.val)).cells else v.toInt
        let bin := binOf (s.monLinear m.val) false (s.monBase m.val) (s.monShift m.val) n
        exec (.monSample m v) s = .next (s.setMon m.val { x with live := x.live.sample bin (BitVec.ofInt 32 n) }))) ∧
    (∀ (who : Writer) (addr : W64) (data : List Byte), s.isLocal addr = true → inRegs (localOf addr.toNat) = true →
      s.writerMay who (localOf addr.toNat) data.length = true →
      exec (.registerWrite who addr data) s = .next (s.regPut who (localOf addr.toNat) data).2)
end

