-- ==== Sys2Proof/Laws/Exec.lean ====
section
/-! SUPPORT. Each command is answered by its meaning: one equation per row, so that no proof unfolds the dispatch. -/
namespace Sys2Proof.Machine

theorem exec_load (c : Core) (w : StepWord) (s : State) : exec (.load c w) s = execLoad c w s := rfl
theorem exec_loadBegin (c : Core) (a : Arr) (waited : Nat) (s : State) :
    exec (.loadBegin c a waited) s = execLoadBegin c a waited s := rfl
theorem exec_loadDone (c : Core) (a : Arr) (s : State) : exec (.loadDone c a) s = execLoadDone c a s := rfl
theorem exec_pass (c : Core) (w : StepWord) (s : State) : exec (.pass c w) s = execPass c w s := rfl
theorem exec_planeSwap (c : Core) (a : Arr) (s : State) : exec (.planeSwap c a) s = execPlaneSwap c a s := rfl
theorem exec_feed (c : Core) (w : StepWord) (s : State) : exec (.feed c w) s = execFeed c w s := rfl
theorem exec_feedStart (c : Core) (f : Arr) (starve : Nat) (s : State) :
    exec (.feedStart c f starve) s = execFeedStart c f starve s := rfl
theorem exec_exportStep (c : Core) (w : StepWord) (s : State) : exec (.exportStep c w) s = execExportStep c w s := rfl
theorem exec_aclr (c : Core) (w : StepWord) (s : State) : exec (.aclr c w) s = execAclr c w s := rfl
theorem exec_asave (c : Core) (w : StepWord) (s : State) : exec (.asave c w) s = execAsave c w s := rfl
theorem exec_arestore (c : Core) (w : StepWord) (s : State) : exec (.arestore c w) s = execArestore c w s := rfl
theorem exec_fres (c : Core) (w : StepWord) (s : State) : exec (.fres c w) s = execFres c w s := rfl
theorem exec_fpres (c : Core) (w : StepWord) (s : State) : exec (.fpres c w) s = execFpres c w s := rfl
theorem exec_fflush (c : Core) (w : StepWord) (s : State) : exec (.fflush c w) s = execFflush c w s := rfl
theorem exec_frel (c : Core) (w : StepWord) (s : State) : exec (.frel c w) s = execFrel c w s := rfl
theorem exec_fillDeadline (c : Core) (g : Ctx) (s : State) : exec (.fillDeadline c g) s = execFillDeadline c g s := rfl
theorem exec_fillWatchdog (c : Core) (g : Ctx) (f : Fin 2) (s : State) :
    exec (.fillWatchdog c g f) s = execFillWatchdog c g f s := rfl
theorem exec_coreFgctxWrite (c : Core) (g : Ctx) (v : W64) (s : State) :
    exec (.coreFgctxWrite c g v) s = execCoreFgctxWrite c g v s := rfl
theorem exec_disp (c : Core) (w : StepWord) (s : State) : exec (.disp c w) s = execDisp c w s := rfl
theorem exec_dispResume (c : Core) (waited : Nat) (s : State) : exec (.dispResume c waited) s = execDispResume c waited s := rfl
theorem exec_sop (c : Core) (w : StepWord) (s : State) : exec (.sop c w) s = execSop c w s := rfl
theorem exec_sieveJobStart (c : Core) (dealWait : Nat) (bankWait : Nat) (resWait : Nat) (s : State) :
    exec (.sieveJobStart c dealWait bankWait resWait) s = execSieveJobStart c dealWait bankWait resWait s := rfl
theorem exec_mergeTileClose (c : Core) (waited : Nat) (s : State) :
    exec (.mergeTileClose c waited) s = execMergeTileClose c waited s := rfl
theorem exec_sdrain (c : Core) (w : StepWord) (s : State) : exec (.sdrain c w) s = execSdrain c w s := rfl
theorem exec_sclr (c : Core) (w : StepWord) (s : State) : exec (.sclr c w) s = execSclr c w s := rfl
theorem exec_vop (c : Core) (w : StepWord) (s : State) : exec (.vop c w) s = execVop c w s := rfl
theorem exec_vred (c : Core) (w : StepWord) (s : State) : exec (.vred c w) s = execVred c w s := rfl
theorem exec_vrow (c : Core) (w : StepWord) (s : State) : exec (.vrow c w) s = execVrow c w s := rfl
theorem exec_osmUpdate (c : Core) (w : StepWord) (s : State) : exec (.osmUpdate c w) s = execOsmUpdate c w s := rfl
theorem exec_osmRescale (c : Core) (w : StepWord) (s : State) : exec (.osmRescale c w) s = execOsmRescale c w s := rfl
theorem exec_osmFinal (c : Core) (w : StepWord) (s : State) : exec (.osmFinal c w) s = execOsmFinal c w s := rfl
theorem exec_quant (c : Core) (w : StepWord) (s : State) : exec (.quant c w) s = execQuant c w s := rfl
theorem exec_tileOutputWrite (c : Core) (s : State) : exec (.tileOutputWrite c) s = execTileOutputWrite c s := rfl
theorem exec_vecAmaxWrite (c : Core) (n : Fin 4) (v : W64) (s : State) :
    exec (.vecAmaxWrite c n v) s = execVecAmaxWrite c n v s := rfl
theorem exec_strm (c : Core) (w : StepWord) (s : State) : exec (.strm c w) s = execStrm c w s := rfl
theorem exec_copy (c : Core) (w : StepWord) (s : State) : exec (.copy c w) s = execCopy c w s := rfl
theorem exec_trickle (c : Core) (w : StepWord) (s : State) : exec (.trickle c w) s = execTrickle c w s := rfl
theorem exec_trickleDone (c : Core) (ecc : Ecc) (s : State) : exec (.trickleDone c ecc) s = execTrickleDone c ecc s := rfl
theorem exec_dload (c : Core) (w : StepWord) (s : State) : exec (.dload c w) s = execDload c w s := rfl
theorem exec_dstore (c : Core) (w : StepWord) (s : State) : exec (.dstore c w) s = execDstore c w s := rfl
theorem exec_dset (c : Core) (w : StepWord) (s : State) : exec (.dset c w) s = execDset c w s := rfl
theorem exec_fset (c : Core) (w : StepWord) (s : State) : exec (.fset c w) s = execFset c w s := rfl
theorem exec_fsigr (c : Core) (w : StepWord) (s : State) : exec (.fsigr c w) s = execFsigr c w s := rfl
theorem exec_fwait (c : Core) (w : StepWord) (s : State) : exec (.fwait c w) s = execFwait c w s := rfl
theorem exec_fence (c : Core) (w : StepWord) (s : State) : exec (.fence c w) s = execFence c w s := rfl
theorem exec_guardSatisfied (c : Core) (waited : Nat) (s : State) :
    exec (.guardSatisfied c waited) s = execGuardSatisfied c waited s := rfl
theorem exec_slotTimeout (c : Core) (s : State) : exec (.slotTimeout c) s = execSlotTimeout c s := rfl
theorem exec_alu (c : Core) (w : StepWord) (s : State) : exec (.alu c w) s = execAlu c w s := rfl
theorem exec_movi (c : Core) (w : StepWord) (s : State) : exec (.movi c w) s = execMovi c w s := rfl
theorem exec_cmp (c : Core) (w : StepWord) (s : State) : exec (.cmp c w) s = execCmp c w s := rfl
theorem exec_plog (c : Core) (w : StepWord) (s : State) : exec (.plog c w) s = execPlog c w s := rfl
theorem exec_ld (c : Core) (w : StepWord) (s : State) : exec (.ld c w) s = execLd c w s := rfl
theorem exec_st (c : Core) (w : StepWord) (s : State) : exec (.st c w) s = execSt c w s := rfl
theorem exec_br (c : Core) (w : StepWord) (s : State) : exec (.br c w) s = execBr c w s := rfl
theorem exec_loop (c : Core) (w : StepWord) (s : State) : exec (.loop c w) s = execLoop c w s := rfl
theorem exec_endl (c : Core) (w : StepWord) (s : State) : exec (.endl c w) s = execEndl c w s := rfl
theorem exec_ptest (c : Core) (w : StepWord) (s : State) : exec (.ptest c w) s = execPtest c w s := rfl
theorem exec_nop (c : Core) (w : StepWord) (s : State) : exec (.nop c w) s = execNop c w s := rfl
theorem exec_endStep (c : Core) (w : StepWord) (s : State) : exec (.endStep c w) s = execEndStep c w s := rfl
theorem exec_bset (c : Core) (w : StepWord) (s : State) : exec (.bset c w) s = execBset c w s := rfl
theorem exec_belay (c : Core) (w : StepWord) (s : State) : exec (.belay c w) s = execBelay c w s := rfl
theorem exec_belayStageReady (c : Core) (n : Fin 8) (s : State) :
    exec (.belayStageReady c n) s = execBelayStageReady c n s := rfl
theorem exec_belayCreditGrant (c : Core) (n : Fin 8) (src : BelaySrc) (s : State) :
    exec (.belayCreditGrant c n src) s = execBelayCreditGrant c n src s := rfl
theorem exec_belayRowReceive (c : Core) (n : Fin 8) (src : BelaySrc) (row : BelayRow) (s : State) :
    exec (.belayRowReceive c n src row) s = execBelayRowReceive c n src row s := rfl
theorem exec_belayTimeout (c : Core) (n : Fin 8) (s : State) : exec (.belayTimeout c n) s = execBelayTimeout c n s := rfl
theorem exec_qpush (c : Core) (w : StepWord) (s : State) : exec (.qpush c w) s = execQpush c w s := rfl
theorem exec_qpop (c : Core) (w : StepWord) (s : State) : exec (.qpop c w) s = execQpop c w s := rfl
theorem exec_qpopWake (c : Core) (waited : Nat) (s : State) : exec (.qpopWake c waited) s = execQpopWake c waited s := rfl
theorem exec_qtry (c : Core) (w : StepWord) (s : State) : exec (.qtry c w) s = execQtry c w s := rfl
theorem exec_twait (c : Core) (w : StepWord) (s : State) : exec (.twait c w) s = execTwait c w s := rfl
theorem exec_twaitDone (c : Core) (waited : Nat) (s : State) : exec (.twaitDone c waited) s = execTwaitDone c waited s := rfl
theorem exec_ttime (c : Core) (w : StepWord) (s : State) : exec (.ttime c w) s = execTtime c w s := rfl
theorem exec_startTake (c : Core) (s : State) : exec (.startTake c) s = execStartTake c s := rfl
theorem exec_clearFault (c : Core) (v : W64) (s : State) : exec (.clearFault c v) s = execClearFault c v s := rfl
theorem exec_unitDisable (c : Core) (v : W64) (s : State) : exec (.unitDisable c v) s = execUnitDisable c v s := rfl
theorem exec_abort (c : Core) (v : W64) (s : State) : exec (.abort c v) s = execAbort c v s := rfl
theorem exec_unitEnable (c : Core) (v : W64) (s : State) : exec (.unitEnable c v) s = execUnitEnable c v s := rfl
theorem exec_drainDone (c : Core) (unit : Fin 13) (s : State) : exec (.drainDone c unit) s = execDrainDone c unit s := rfl
theorem exec_seqFlagset (c : Core) (v : W64) (s : State) : exec (.seqFlagset c v) s = execSeqFlagset c v s := rfl
theorem exec_seqFlagclr (c : Core) (v : W64) (s : State) : exec (.seqFlagclr c v) s = execSeqFlagclr c v s := rfl
theorem exec_accWindowAccess (who : Writer) (addr : W64) (op : AccessOp) (s : State) :
    exec (.accWindowAccess who addr op) s = execAccWindowAccess who addr op s := rfl
theorem exec_meshPantryAccess (a : Access) (ecc : Ecc) (s : State) :
    exec (.meshPantryAccess a ecc) s = execMeshPantryAccess a ecc s := rfl
theorem exec_panInvalGo (c : Core) (v : W64) (s : State) : exec (.panInvalGo c v) s = execPanInvalGo c v s := rfl
theorem exec_streamBegin (c : Core) (e : Eng) (s : State) : exec (.streamBegin c e) s = execStreamBegin c e s := rfl
theorem exec_streamAdmit (c : Core) (e : Eng) (waited : Nat) (s : State) :
    exec (.streamAdmit c e waited) s = execStreamAdmit c e waited s := rfl
theorem exec_streamAddr (c : Core) (e : Eng) (s : State) : exec (.streamAddr c e) s = execStreamAddr c e s := rfl
theorem exec_streamDesc (c : Core) (e : Eng) (s : State) : exec (.streamDesc c e) s = execStreamDesc c e s := rfl
theorem exec_streamLoop (c : Core) (e : Eng) (s : State) : exec (.streamLoop c e) s = execStreamLoop c e s := rfl
theorem exec_streamStride (c : Core) (e : Eng) (s : State) : exec (.streamStride c e) s = execStreamStride c e s := rfl
theorem exec_streamIdx (c : Core) (e : Eng) (s : State) : exec (.streamIdx c e) s = execStreamIdx c e s := rfl
theorem exec_streamFill (c : Core) (e : Eng) (s : State) : exec (.streamFill c e) s = execStreamFill c e s := rfl
theorem exec_streamCvt (c : Core) (e : Eng) (s : State) : exec (.streamCvt c e) s = execStreamCvt c e s := rfl
theorem exec_streamWina (c : Core) (e : Eng) (s : State) : exec (.streamWina c e) s = execStreamWina c e s := rfl
theorem exec_streamWinb (c : Core) (e : Eng) (s : State) : exec (.streamWinb c e) s = execStreamWinb c e s := rfl
theorem exec_streamCred (c : Core) (e : Eng) (s : State) : exec (.streamCred c e) s = execStreamCred c e s := rfl
theorem exec_streamGo (c : Core) (e : Eng) (ecc : List (W64 × Ecc)) (s : State) :
    exec (.streamGo c e ecc) s = execStreamGo c e ecc s := rfl
theorem exec_streamWait (c : Core) (e : Eng) (s : State) : exec (.streamWait c e) s = execStreamWait c e s := rfl
theorem exec_streamSig (c : Core) (e : Eng) (s : State) : exec (.streamSig c e) s = execStreamSig c e s := rfl
theorem exec_streamEnd (c : Core) (e : Eng) (s : State) : exec (.streamEnd c e) s = execStreamEnd c e s := rfl
theorem exec_streamWaitTimeout (c : Core) (e : Eng) (s : State) :
    exec (.streamWaitTimeout c e) s = execStreamWaitTimeout c e s := rfl
theorem exec_partTimeout (c : Core) (e : Eng) (part : Fin 64) (s : State) :
    exec (.partTimeout c e part) s = execPartTimeout c e part s := rfl
theorem exec_strCtlWrite (c : Core) (v : W64) (s : State) : exec (.strCtlWrite c v) s = execStrCtlWrite c v s := rfl
theorem exec_monGovrun (d : Die) (v : W64) (s : State) : exec (.monGovrun d v) s = execMonGovrun d v s := rfl
theorem exec_governorRun (d : Die) (s : State) : exec (.governorRun d) s = execGovernorRun d s := rfl
theorem exec_topoXdispCount (s : State) : exec (.topoXdispCount) s = execTopoXdispCount s := rfl
theorem exec_xdispRows (c : Core) (s : State) : exec (.xdispRows c) s = execXdispRows c s := rfl
theorem exec_xdCountReceive (c : Core) (g : Ctx) (rank : BitVec 16) (m : XdCount) (s : State) :
    exec (.xdCountReceive c g rank m) s = execXdCountReceive c g rank m s := rfl
theorem exec_xdRowReceive (c : Core) (g : Ctx) (rank : BitVec 16) (j : Nat) (srcDev : BitVec 16) (srcCore : BitVec 6) (entry : BitVec 20) (row : List Byte) (s : State) :
    exec (.xdRowReceive c g rank j srcDev srcCore entry row) s = execXdRowReceive c g rank j srcDev srcCore entry row s := rfl
theorem exec_topoXdispReturn (s : State) : exec (.topoXdispReturn) s = execTopoXdispReturn s := rfl
theorem exec_xdReturnReceive (c : Core) (entry : XdEntry) (row : List Byte) (s : State) :
    exec (.xdReturnReceive c entry row) s = execXdReturnReceive c entry row s := rfl
theorem exec_coreXrxWrite (c : Core) (g : Ctx) (b : Bool) (v : W64) (s : State) :
    exec (.coreXrxWrite c g b v) s = execCoreXrxWrite c g b v s := rfl
theorem exec_memRequest (m : MemCtl) (r : MemReq) (s : State) : exec (.memRequest m r) s = execMemRequest m r s := rfl
theorem exec_memGrant (m : MemCtl) (ecc : Ecc) (s : State) : exec (.memGrant m ecc) s = execMemGrant m ecc s := rfl
theorem exec_memPreempt (m : MemCtl) (words : Nat) (s : State) : exec (.memPreempt m words) s = execMemPreempt m words s := rfl
theorem exec_hbmPeriodicCal (pc : Fin 256) (s : State) : exec (.hbmPeriodicCal pc) s = execHbmPeriodicCal pc s := rfl
theorem exec_zeroFillDone (t : Tier) (s : State) : exec (.zeroFillDone t) s = execZeroFillDone t s := rfl
theorem exec_hbmPriocommit (v : W64) (s : State) : exec (.hbmPriocommit v) s = execHbmPriocommit v s := rfl
theorem exec_lpPriocommit (v : W64) (s : State) : exec (.lpPriocommit v) s = execLpPriocommit v s := rfl
theorem exec_coreMpriocommit (v : W64) (s : State) : exec (.coreMpriocommit v) s = execCoreMpriocommit v s := rfl
theorem exec_hbmNmgreq (h : Stack) (r : BitVec 512) (s : State) : exec (.hbmNmgreq h r) s = execHbmNmgreq h r s := rfl
theorem exec_nmgRun (h : Stack) (ecc : List (BitVec 48 × Ecc)) (s : State) : exec (.nmgRun h ecc) s = execNmgRun h ecc s := rfl
theorem exec_nmgDone (h : Stack) (s : State) : exec (.nmgDone h) s = execNmgDone h s := rfl
theorem exec_packetPush (q : QueueNo) (port : Fin 40) (data : List Byte) (written : Nat) (s : State) :
    exec (.packetPush q port data written) s = execPacketPush q port data written s := rfl
theorem exec_packetPop (q : QueueNo) (pop : PopCmd) (s : State) :
    exec (.packetPop q pop) s = execPacketPop q pop s := rfl
theorem exec_packetBreak (q : QueueNo) (s : State) : exec (.packetBreak q) s = execPacketBreak q s := rfl
theorem exec_qpQcfgWrite (q : QueueNo) (v : W64) (s : State) : exec (.qpQcfgWrite q v) s = execQpQcfgWrite q v s := rfl
theorem exec_qpFlush (q : QueueNo) (v : W64) (s : State) : exec (.qpFlush q v) s = execQpFlush q v s := rfl
theorem exec_tbTimeset (v : W64) (s : State) : exec (.tbTimeset v) s = execTbTimeset v s := rfl
theorem exec_syncInEdge (now : W64) (s : State) : exec (.syncInEdge now) s = execSyncInEdge now s := rfl
theorem exec_timeLock (s : State) : exec (.timeLock) s = execTimeLock s := rfl
theorem exec_refLost (why : RefLoss) (s : State) : exec (.refLost why) s = execRefLost why s := rfl
theorem exec_holdoverExpiry (s : State) : exec (.holdoverExpiry) s = execHoldoverExpiry s := rfl
theorem exec_timeRequest (t1 : W64) (s : State) : exec (.timeRequest t1) s = execTimeRequest t1 s := rfl
theorem exec_timeRequestReceive (l : Link) (t2 : W64) (t3 : W64) (s : State) :
    exec (.timeRequestReceive l t2 t3) s = execTimeRequestReceive l t2 t3 s := rfl
theorem exec_timeReply (t1 : W64) (t2 : W64) (t3 : W64) (t4 : W64) (state : BitVec 3) (depth : BitVec 4) (s : State) :
    exec (.timeReply t1 t2 t3 t4 state depth) s = execTimeReply t1 t2 t3 t4 state depth s := rfl
theorem exec_syncOutPulse (s : State) : exec (.syncOutPulse) s = execSyncOutPulse s := rfl
theorem exec_pitchStart (s : State) : exec (.pitchStart) s = execPitchStart s := rfl
theorem exec_topoStart (s : State) : exec (.topoStart) s = execTopoStart s := rfl
theorem exec_topoSwap (s : State) : exec (.topoSwap) s = execTopoSwap s := rfl
theorem exec_topoLinkwin (s : State) : exec (.topoLinkwin) s = execTopoLinkwin s := rfl
theorem exec_linkwinEnd (l : Link) (s : State) : exec (.linkwinEnd l) s = execLinkwinEnd l s := rfl
theorem exec_topoColl (s : State) : exec (.topoColl) s = execTopoColl s := rfl
theorem exec_topoCalwin (s : State) : exec (.topoCalwin) s = execTopoCalwin s := rfl
theorem exec_topoDeadline (s : State) : exec (.topoDeadline) s = execTopoDeadline s := rfl
theorem exec_topoSleep (s : State) : exec (.topoSleep) s = execTopoSleep s := rfl
theorem exec_topoHeart (s : State) : exec (.topoHeart) s = execTopoHeart s := rfl
theorem exec_topoEpoch (s : State) : exec (.topoEpoch) s = execTopoEpoch s := rfl
theorem exec_flitReceive (l : Link) (flit : BitVec 2048) (s : State) :
    exec (.flitReceive l flit) s = execFlitReceive l flit s := rfl
theorem exec_retryRequest (l : Link) (seq : BitVec 10) (s : State) :
    exec (.retryRequest l seq) s = execRetryRequest l seq s := rfl
theorem exec_ackTimeout (l : Link) (s : State) : exec (.ackTimeout l) s = execAckTimeout l s := rfl
theorem exec_recordClose (e : LinkEnd) (s : State) :
    exec (.recordClose e) s = execRecordClose e s := rfl
theorem exec_sealReceive (l : Link) (flit : BitVec 2048) (s : State) :
    exec (.sealReceive l flit) s = execSealReceive l flit s := rfl
theorem exec_packetForward (p : Pkt) (s : State) : exec (.packetForward p) s = execPacketForward p s := rfl
theorem exec_pktWrite (p : Pkt) (s : State) : exec (.pktWrite p) s = execPktWrite p s := rfl
theorem exec_pktRead (p : Pkt) (s : State) : exec (.pktRead p) s = execPktRead p s := rfl
theorem exec_pktResponse (p : Pkt) (s : State) : exec (.pktResponse p) s = execPktResponse p s := rfl
theorem exec_linkDown (l : Link) (reason : BitVec 4) (s : State) : exec (.linkDown l reason) s = execLinkDown l reason s := rfl
theorem exec_linkRetrainTimer (e : LinkEnd) (s : State) :
    exec (.linkRetrainTimer e) s = execLinkRetrainTimer e s := rfl
theorem exec_trainingDone (e : LinkEnd) (x4 : Bool) (laneHi : Bool) (half : Bool) (s : State) :
    exec (.trainingDone e x4 laneHi half) s = execTrainingDone e x4 laneHi half s := rfl
theorem exec_trainingTimeout (e : LinkEnd) (s : State) :
    exec (.trainingTimeout e) s = execTrainingTimeout e s := rfl
theorem exec_linkKeying (l : Link) (peer : PeerOffer) (s : State) : exec (.linkKeying l peer) s = execLinkKeying l peer s := rfl
theorem exec_rekey (l : Link) (s : State) : exec (.rekey l) s = execRekey l s := rfl
theorem exec_retrain (l : Link) (s : State) : exec (.retrain l) s = execRetrain l s := rfl
theorem exec_wakeTx (l : Link) (s : State) : exec (.wakeTx l) s = execWakeTx l s := rfl
theorem exec_wakeDet (l : Link) (s : State) : exec (.wakeDet l) s = execWakeDet l s := rfl
theorem exec_collFailNotice (c : Core) (coll : CollId) (ring : Fin 8) (dev : BitVec 16) (link : BitVec 5) (s : State) :
    exec (.collFailNotice c coll ring dev link) s = execCollFailNotice c coll ring dev link s := rfl
theorem exec_collTimeout (c : Core) (ring : Fin 8) (s : State) : exec (.collTimeout c ring) s = execCollTimeout c ring s := rfl
theorem exec_collEnd (c : Core) (s : State) : exec (.collEnd c) s = execCollEnd c s := rfl
theorem exec_rdShared (h : Half) (txid : BitVec 10) (addr : BitVec 48) (s : State) :
    exec (.rdShared h txid addr) s = execRdShared h txid addr s := rfl
theorem exec_rdOwn (h : Half) (txid : BitVec 10) (addr : BitVec 48) (s : State) :
    exec (.rdOwn h txid addr) s = execRdOwn h txid addr s := rfl
theorem exec_rdNc (h : Half) (txid : BitVec 10) (addr : BitVec 48) (lines : Nat) (s : State) :
    exec (.rdNc h txid addr lines) s = execRdNc h txid addr lines s := rfl
theorem exec_wrNc (h : Half) (txid : BitVec 10) (addr : BitVec 48) (data : List Byte) (s : State) :
    exec (.wrNc h txid addr data) s = execWrNc h txid addr data s := rfl
theorem exec_wrPart (h : Half) (txid : BitVec 10) (addr : BitVec 48) (data : List Byte) (mask : W64) (s : State) :
    exec (.wrPart h txid addr data mask) s = execWrPart h txid addr data mask s := rfl
theorem exec_wbDirty (h : Half) (txid : BitVec 10) (addr : BitVec 48) (data : List Byte) (s : State) :
    exec (.wbDirty h txid addr data) s = execWbDirty h txid addr data s := rfl
theorem exec_evict (h : Half) (txid : BitVec 10) (addr : BitVec 48) (s : State) :
    exec (.evict h txid addr) s = execEvict h txid addr s := rfl
theorem exec_snpRsp (h : Half) (tag : NzTag) (data : Option (List Byte)) (s : State) :
    exec (.snpRsp h tag data) s = execSnpRsp h tag data s := rfl
theorem exec_snoopTimeout (h : Half) (addr : BitVec 48) (s : State) :
    exec (.snoopTimeout h addr) s = execSnoopTimeout h addr s := rfl
theorem exec_menuReq (h : Half) (txid : BitVec 10) (entry : BitVec 16) (data : List Byte) (s : State) :
    exec (.menuReq h txid entry data) s = execMenuReq h txid entry data s := rfl
theorem exec_doorbell (h : Half) (txid : BitVec 10) (queue : BitVec 11) (data : List Byte) (s : State) :
    exec (.doorbell h txid queue data) s = execDoorbell h txid queue data s := rfl
theorem exec_popWaitExpiry (h : Half) (s : State) : exec (.popWaitExpiry h) s = execPopWaitExpiry h s := rfl
theorem exec_cData (h : Half) (txid : BitVec 10) (reason : BitVec 4) (data : List Byte) (s : State) :
    exec (.cData h txid reason data) s = execCData h txid reason data s := rfl
theorem exec_cCmp (h : Half) (txid : BitVec 10) (reason : BitVec 4) (s : State) :
    exec (.cCmp h txid reason) s = execCCmp h txid reason s := rfl
theorem exec_cInv (h : Half) (txid : BitVec 10) (addr : BitVec 48) (s : State) :
    exec (.cInv h txid addr) s = execCInv h txid addr s := rfl
theorem exec_nzFlitReceive (h : Half) (body : BitVec 1888) (s : State) :
    exec (.nzFlitReceive h body) s = execNzFlitReceive h body s := rfl
theorem exec_msgSend (h : Half) (s : State) : exec (.msgSend h) s = execMsgSend h s := rfl
theorem exec_msgResend (h : Half) (s : State) : exec (.msgResend h) s = execMsgResend h s := rfl
theorem exec_halfDown (h : Half) (s : State) : exec (.halfDown h) s = execHalfDown h s := rfl
theorem exec_nzKeying (h : Half) (compKey : List Byte) (compSig : List Byte) (s : State) :
    exec (.nzKeying h compKey compSig) s = execNzKeying h compKey compSig s := rfl
theorem exec_nzRetrain (h : Half) (s : State) : exec (.nzRetrain h) s = execNzRetrain h s := rfl
theorem exec_nzRekey (h : Half) (s : State) : exec (.nzRekey h) s = execNzRekey h s := rfl
theorem exec_porNAssert (s : State) : exec (.porNAssert) s = execPorNAssert s := rfl
theorem exec_resetNAssert (s : State) : exec (.resetNAssert) s = execResetNAssert s := rfl
theorem exec_resetRelease (devid : BitVec 16) (s : State) : exec (.resetRelease devid) s = execResetRelease devid s := rfl
theorem exec_imageRead (s : State) : exec (.imageRead) s = execImageRead s := rfl
theorem exec_imageReadDone (s : State) : exec (.imageReadDone) s = execImageReadDone s := rfl
theorem exec_weightLoadDone (entry : Nat) (s : State) :
    exec (.weightLoadDone entry) s = execWeightLoadDone entry s := rfl
theorem exec_loadWaitExpiry (s : State) : exec (.loadWaitExpiry) s = execLoadWaitExpiry s := rfl
theorem exec_erase (paddr : BitVec 30) (s : State) : exec (.erase paddr) s = execErase paddr s := rfl
theorem exec_program (paddr : BitVec 30) (s : State) : exec (.program paddr) s = execProgram paddr s := rfl
theorem exec_bootRead (paddr : BitVec 30) (s : State) : exec (.bootRead paddr) s = execBootRead paddr s := rfl
theorem exec_verify (paddr : BitVec 30) (s : State) : exec (.verify paddr) s = execVerify paddr s := rfl
theorem exec_flashCmdDone (ok : Bool) (s : State) : exec (.flashCmdDone ok) s = execFlashCmdDone ok s := rfl
theorem exec_bootReset (s : State) : exec (.bootReset) s = execBootReset s := rfl
theorem exec_lardWrite (n : LardNo) (v : W64) (who : Writer) (s : State) :
    exec (.lardWrite n v who) s = execLardWrite n v who s := rfl
theorem exec_lardWriteDone (s : State) : exec (.lardWriteDone) s = execLardWriteDone s := rfl
theorem exec_getId (p : SecPath) (s : State) : exec (.getId p) s = execGetId p s := rfl
theorem exec_attest (p : SecPath) (s : State) : exec (.attest p) s = execAttest p s := rfl
theorem exec_challenge (p : SecPath) (s : State) : exec (.challenge p) s = execChallenge p s := rfl
theorem exec_debugOpen (p : SecPath) (s : State) : exec (.debugOpen p) s = execDebugOpen p s := rfl
theorem exec_pwTry (p : SecPath) (arg : BitVec 5) (s : State) : exec (.pwTry p arg) s = execPwTry p arg s := rfl
theorem exec_pwSet (p : SecPath) (arg : BitVec 5) (s : State) : exec (.pwSet p arg) s = execPwSet p arg s := rfl
theorem exec_pwClear (p : SecPath) (s : State) : exec (.pwClear p) s = execPwClear p s := rfl
theorem exec_commitVersion (p : SecPath) (s : State) : exec (.commitVersion p) s = execCommitVersion p s := rfl
theorem exec_ownSet (p : SecPath) (s : State) : exec (.ownSet p) s = execOwnSet p s := rfl
theorem exec_ownClear (p : SecPath) (s : State) : exec (.ownClear p) s = execOwnClear p s := rfl
theorem exec_debugClose (p : SecPath) (s : State) : exec (.debugClose p) s = execDebugClose p s := rfl
theorem exec_never (p : SecPath) (s : State) : exec (.never p) s = execNever p s := rfl
theorem exec_nonceExpiry (s : State) : exec (.nonceExpiry) s = execNonceExpiry s := rfl
theorem exec_trngFail (s : State) : exec (.trngFail) s = execTrngFail s := rfl
theorem exec_heartbeatReceive (l : Link) (hb : Heartbeat) (s : State) :
    exec (.heartbeatReceive l hb) s = execHeartbeatReceive l hb s := rfl
theorem exec_attachWaitExpiry (s : State) : exec (.attachWaitExpiry) s = execAttachWaitExpiry s := rfl
theorem exec_attachMsg (l : Link) (m : AttachMsg) (s : State) : exec (.attachMsg l m) s = execAttachMsg l m s := rfl
theorem exec_resyncDone (s : State) : exec (.resyncDone) s = execResyncDone s := rfl
theorem exec_rejoinPitch (s : State) : exec (.rejoinPitch) s = execRejoinPitch s := rfl
theorem exec_detach (s : State) : exec (.detach) s = execDetach s := rfl
theorem exec_attach (s : State) : exec (.attach) s = execAttach s := rfl
theorem exec_detachAck (s : State) : exec (.detachAck) s = execDetachAck s := rfl
theorem exec_pairDetach (s : State) : exec (.pairDetach) s = execPairDetach s := rfl
theorem exec_releasePitch (s : State) : exec (.releasePitch) s = execReleasePitch s := rfl
theorem exec_pwrReqActive (who : Writer) (s : State) : exec (.pwrReqActive who) s = execPwrReqActive who s := rfl
theorem exec_pwrReqIdle (s : State) : exec (.pwrReqIdle) s = execPwrReqIdle s := rfl
theorem exec_pwrReqNap (len : W32) (s : State) : exec (.pwrReqNap len) s = execPwrReqNap len s := rfl
theorem exec_pwrReqBivouac (save : Bool) (len : W32) (s : State) :
    exec (.pwrReqBivouac save len) s = execPwrReqBivouac save len s := rfl
theorem exec_pwrReqWatch (save : Bool) (len : W32) (s : State) :
    exec (.pwrReqWatch save len) s = execPwrReqWatch save len s := rfl
theorem exec_domainQuery (s : State) : exec (.domainQuery) s = execDomainQuery s := rfl
theorem exec_delayLimExpiry (s : State) : exec (.delayLimExpiry) s = execDelayLimExpiry s := rfl
theorem exec_pwrCommit (s : State) : exec (.pwrCommit) s = execPwrCommit s := rfl
theorem exec_saveDone (s : State) : exec (.saveDone) s = execSaveDone s := rfl
theorem exec_offStep (s : State) : exec (.offStep) s = execOffStep s := rfl
theorem exec_avsAck (s : State) : exec (.avsAck) s = execAvsAck s := rfl
theorem exec_avsTimeout (s : State) : exec (.avsTimeout) s = execAvsTimeout s := rfl
theorem exec_wakeNLow (s : State) : exec (.wakeNLow) s = execWakeNLow s := rfl
theorem exec_nzIdleExit (h : Half) (s : State) : exec (.nzIdleExit h) s = execNzIdleExit h s := rfl
theorem exec_wakePitch (s : State) : exec (.wakePitch) s = execWakePitch s := rfl
theorem exec_tempWake (temp : BitVec 16) (s : State) : exec (.tempWake temp) s = execTempWake temp s := rfl
theorem exec_railWake (aon : BitVec 16) (vio : BitVec 16) (s : State) :
    exec (.railWake aon vio) s = execRailWake aon vio s := rfl
theorem exec_watchSample (smp : Sample) (s : State) : exec (.watchSample smp) s = execWatchSample smp s := rfl
theorem exec_wakeStep (s : State) : exec (.wakeStep) s = execWakeStep s := rfl
theorem exec_restoreDone (failed : List (Core × Nat)) (s : State) :
    exec (.restoreDone failed) s = execRestoreDone failed s := rfl
theorem exec_pwrPadRelease (v : W64) (s : State) : exec (.pwrPadRelease v) s = execPwrPadRelease v s := rfl
theorem exec_ungate (d : Dom) (s : State) : exec (.ungate d) s = execUngate d s := rfl
theorem exec_opChange (op : BitVec 2) (s : State) : exec (.opChange op) s = execOpChange op s := rfl
theorem exec_thermalStep (temp : BitVec 16) (s : State) : exec (.thermalStep temp) s = execThermalStep temp s := rfl
theorem exec_thermtrip (temp : BitVec 16) (s : State) : exec (.thermtrip temp) s = execThermtrip temp s := rfl
theorem exec_vddAonLow (s : State) : exec (.vddAonLow) s = execVddAonLow s := rfl
theorem exec_railUndervolt (s : State) : exec (.railUndervolt) s = execRailUndervolt s := rfl
theorem exec_fltBistreq (v : W64) (s : State) : exec (.fltBistreq v) s = execFltBistreq v s := rfl
theorem exec_bistStart (c : Core) (a : Arr) (s : State) : exec (.bistStart c a) s = execBistStart c a s := rfl
theorem exec_bistDone (c : Core) (a : Arr) (pass : Bool) (s : State) :
    exec (.bistDone c a pass) s = execBistDone c a pass s := rfl
theorem exec_bistRefuse (c : Core) (a : Arr) (s : State) : exec (.bistRefuse c a) s = execBistRefuse c a s := rfl
theorem exec_fltCalreq (v : W64) (s : State) : exec (.fltCalreq v) s = execFltCalreq v s := rfl
theorem exec_serdesCalDone (links : BitVec 24) (halves : BitVec 2) (s : State) :
    exec (.serdesCalDone links halves) s = execSerdesCalDone links halves s := rfl
theorem exec_fieldRestore (f : FieldAddr) (copyOk : Bool) (s : State) :
    exec (.fieldRestore f copyOk) s = execFieldRestore f copyOk s := rfl
theorem exec_monWindowEnd (m : MonNo) (s : State) : exec (.monWindowEnd m) s = execMonWindowEnd m s := rfl
theorem exec_monClr (m : MonNo) (s : State) : exec (.monClr m) s = execMonClr m s := rfl
theorem exec_monCfgWrite (m : MonNo) (v : W64) (s : State) : exec (.monCfgWrite m v) s = execMonCfgWrite m v s := rfl
theorem exec_registerWrite (who : Writer) (addr : W64) (data : List Byte) (s : State) :
    exec (.registerWrite who addr data) s = execRegisterWrite who addr data s := rfl
theorem exec_secCmdDone (s : State) : exec (.secCmdDone) s = execSecCmdDone s := rfl
theorem exec_monSample (m : MonNo) (v : W32) (s : State) : exec (.monSample m v) s = execMonSample m v s := rfl

end Sys2Proof.Machine
end

