-- ==== Sys2Proof/Laws/Links.lean ====
section
/-! SUPPORT. What the checks of a flit answer (R461, R462): one lemma per outcome. -/
namespace Sys2Proof.Machine

/-- A flit whose CRC does not match is not used: it is counted and a resend is asked for. -/
theorem checkFlit_badCrc (s : State) (l : Link) (f : BitVec 2048) (h : flitCrcOk f = false) :
    s.checkFlit l f = (false, (s.bumpHi (rLcnt l.val 0) 1).askResend l) := by
  simp only [State.checkFlit, h, Bool.not_false, if_true]

/-- A flit whose header pair does not match is not used: it is counted and a resend is asked for. -/
theorem checkFlit_badHeader (s : State) (l : Link) (f : BitVec 2048) (h : flitCrcOk f = true) (hf : flitFhcOk f = false) :
    s.checkFlit l f = (false, (s.bumpLo (rFltCnt 1) 1).askResend l) := by
  simp only [State.checkFlit, h, hf, Bool.not_true, Bool.not_false, if_true, Bool.false_eq_true, if_false]

/-- A flit that passes CRC and header check and carries the SEQ that is due is used. -/
theorem checkFlit_good (s : State) (l : Link) (f : BitVec 2048) (h : flitCrcOk f = true) (hf : flitFhcOk f = true)
    (hk : flitKind f ≠ 0) (hs : flitSeq f = (s.link l).rxSeq) : (s.checkFlit l f).1 = true := by
  simp only [State.checkFlit, h, hf, Bool.not_true, Bool.false_eq_true, if_false, if_neg hk, if_pos hs]

/-- An IDLE flit is not used; its ACK is. -/
theorem checkFlit_idle (s : State) (l : Link) (f : BitVec 2048) (h : flitCrcOk f = true) (hf : flitFhcOk f = true)
    (hk : flitKind f = 0) : (s.checkFlit l f).1 = false := by
  simp only [State.checkFlit, h, hf, hk, Bool.not_true, Bool.false_eq_true, if_false, if_true]

end Sys2Proof.Machine
end

