-- ==== Sys2Proof/Laws/Memory.lean ====
section
/-! SUPPORT. The laws of sorted maps and of memory: a read after a write, the frame of a write, and that every memory
operation keeps the canonical form. -/
namespace Sys2Proof.Machine

section
variable {α : Type} [DecidableEq α] {d : Nat → α}

omit [DecidableEq α] in
/-- In a map whose keys are all above k, key k reads as the default. -/
theorem SMap.get_of_above {m : SMap α} {b k : Nat} (h : SMap.above b m = true) (hk : k ≤ b) : SMap.get d k m = d k := by
  cases m with
  | nil => rfl
  | cons e m =>
    obtain ⟨j, v⟩ := e
    simp only [SMap.above, Bool.and_eq_true, decide_eq_true_eq] at h
    have h1 : k ≠ j := by omega
    have h2 : k < j := by omega
    simp [SMap.get, h1, h2]

omit [DecidableEq α] in
theorem SMap.above_mono {m : SMap α} {a b : Nat} (h : SMap.above b m = true) (hab : a ≤ b) : SMap.above a m = true := by
  induction m with
  | nil => rfl
  | cons e m ih =>
    obtain ⟨j, v⟩ := e
    simp only [SMap.above, Bool.and_eq_true, decide_eq_true_eq] at h ⊢
    exact ⟨by omega, ih h.2⟩

theorem SMap.above_put {m : SMap α} {b k : Nat} {v : α} (h : SMap.above b m = true) (hk : b < k) :
    SMap.above b (SMap.put d k v m) = true := by
  induction m with
  | nil => simp only [SMap.put]; split <;> simp [SMap.above, hk]
  | cons e m ih =>
    obtain ⟨j, w⟩ := e
    simp only [SMap.above, Bool.and_eq_true, decide_eq_true_eq] at h
    simp only [SMap.put]
    split <;> (try split) <;> (try split) <;> simp [SMap.above, h, hk, ih]

/-- A write keeps the canonical form. -/
theorem SMap.wf_put {m : SMap α} (k : Nat) (v : α) (h : SMap.wf d m = true) : SMap.wf d (SMap.put d k v m) = true := by
  induction m with
  | nil => simp only [SMap.put]; split <;> simp_all [SMap.wf, SMap.above]
  | cons e m ih =>
    obtain ⟨j, w⟩ := e
    simp only [SMap.wf, Bool.and_eq_true, decide_eq_true_eq] at h
    obtain ⟨⟨h1, h2⟩, h3⟩ := h
    simp only [SMap.put]
    split
    · split
      · simp [SMap.wf, h1, h2, h3]
      · rename_i hk hv
        simp [SMap.wf, SMap.above, h1, h2, h3, hk, hv, SMap.above_mono h2 (Nat.le_of_lt hk)]
    · split
      · rename_i hk
        subst hk
        split
        · exact h3
        · rename_i hv
          simp [SMap.wf, h2, h3, hv]
      · rename_i ha hb
        simp [SMap.wf, h1, ih h3, SMap.above_put h2 (show j < k by omega)]

/-- A read after a write to the same key gives the value written. -/
theorem SMap.get_put_same {m : SMap α} (k : Nat) (v : α) (h : SMap.wf d m = true) : SMap.get d k (SMap.put d k v m) = v := by
  induction m with
  | nil =>
    simp only [SMap.put]
    split
    · rename_i hv; simp [SMap.get, hv]
    · simp [SMap.get]
  | cons e m ih =>
    obtain ⟨j, w⟩ := e
    simp only [SMap.wf, Bool.and_eq_true, decide_eq_true_eq] at h
    obtain ⟨⟨h1, h2⟩, h3⟩ := h
    simp only [SMap.put]
    split
    · rename_i hk
      split
      · rename_i hv
        have : k ≠ j := by omega
        simp [SMap.get, this, hk, hv]
      · simp [SMap.get]
    · split
      · rename_i hk
        subst hk
        split
        · rename_i hv
          rw [SMap.get_of_above h2 (Nat.le_refl _), hv]
        · simp [SMap.get]
      · rename_i ha hb
        simp [SMap.get, ha, hb, ih h3]

/-- A write leaves every other key alone. -/
theorem SMap.get_put_other {m : SMap α} {k i : Nat} (v : α) (h : SMap.wf d m = true) (hi : i ≠ k) :
    SMap.get d i (SMap.put d k v m) = SMap.get d i m := by
  induction m with
  | nil =>
    simp only [SMap.put]
    split
    · rfl
    · simp [SMap.get, hi]
  | cons e m ih =>
    obtain ⟨j, w⟩ := e
    simp only [SMap.wf, Bool.and_eq_true, decide_eq_true_eq] at h
    obtain ⟨⟨h1, h2⟩, h3⟩ := h
    simp only [SMap.put]
    split
    · rename_i hk
      split
      · rfl
      · by_cases hik : i < k
        · have a1 : i ≠ j := by omega
          have a2 : i < j := by omega
          simp [SMap.get, hi, hik, a1, a2]
        · simp [SMap.get, hi, hik]
    · split
      · rename_i hk
        subst hk
        split
        · by_cases hij : i < k
          · rw [SMap.get_of_above h2 (Nat.le_of_lt hij)]
            simp [SMap.get, hi, hij]
          · simp [SMap.get, hi, hij]
        · simp [SMap.get, hi]
      · by_cases hij : i = j
        · simp [SMap.get, hij]
        · simp [SMap.get, hij, ih h3]

omit [DecidableEq α] in
theorem SMap.above_filter {m : SMap α} {b : Nat} (p : Nat × α → Bool) (h : SMap.above b m = true) :
    SMap.above b (List.filter p m) = true := by
  induction m with
  | nil => rfl
  | cons e m ih =>
    obtain ⟨j, w⟩ := e
    simp only [SMap.above, Bool.and_eq_true, decide_eq_true_eq] at h
    simp only [List.filter]
    split
    · simp [SMap.above, h.1, ih h.2]
    · exact ih h.2

/-- Dropping entries keeps the canonical form. -/
theorem SMap.wf_filter {m : SMap α} (p : Nat × α → Bool) (h : SMap.wf d m = true) : SMap.wf d (List.filter p m) = true := by
  induction m with
  | nil => rfl
  | cons e m ih =>
    obtain ⟨j, w⟩ := e
    simp only [SMap.wf, Bool.and_eq_true, decide_eq_true_eq] at h
    obtain ⟨⟨h1, h2⟩, h3⟩ := h
    simp only [List.filter]
    split
    · simp [SMap.wf, h1, ih h3, SMap.above_filter p h2]
    · exact ih h3

end

/-! ### Memory -/

theorem Memory.wf_nil : Memory.wf [] = true := rfl

/-- Storing a byte keeps the canonical form. -/
theorem Memory.wf_put {m : List Host.Cell} (a : Nat) (v : Byte) (h : Memory.wf m = true) : Memory.wf (Memory.put m a v) = true :=
  SMap.wf_put a v h

/-- Storing bytes keeps the canonical form. -/
theorem Memory.wf_write {m : List Host.Cell} (a : Nat) (bs : List Byte) (h : Memory.wf m = true) :
    Memory.wf (Memory.write m a bs) = true := by
  induction bs generalizing m a with
  | nil => exact h
  | cons b bs ih => exact ih _ (Memory.wf_put a b h)

/-- Dropping entries keeps the canonical form. -/
theorem Memory.wf_filter {m : List Host.Cell} (p : Host.Cell → Bool) (h : Memory.wf m = true) :
    Memory.wf (List.filter p m) = true := SMap.wf_filter p h

/-- Clearing a range keeps the canonical form. -/
theorem Memory.wf_clear {m : List Host.Cell} (a n : Nat) (h : Memory.wf m = true) : Memory.wf (Memory.clear m a n) = true :=
  Memory.wf_filter _ h

/-- Copying a range keeps the canonical form. -/
theorem Memory.wf_copy {m : List Host.Cell} (a b n : Nat) (h : Memory.wf m = true) : Memory.wf (Memory.copy m a b n) = true := by
  have go (l : List Host.Cell) : ∀ m' : List Host.Cell, Memory.wf m' = true →
      Memory.wf (l.foldl (fun m e => Memory.put m (b + (e.1 - a)) e.2) m') = true := by
    induction l with
    | nil => intro m' h'; exact h'
    | cons e l ih => intro m' h'; exact ih _ (Memory.wf_put _ _ h')
  exact go _ _ (Memory.wf_clear b n h)

/-- The byte just stored is what the address reads as. -/
theorem Memory.get_put_same {m : List Host.Cell} (a : Nat) (v : Byte) (h : Memory.wf m = true) :
    Memory.get (Memory.put m a v) a = v := SMap.get_put_same a v h

/-- A store leaves every other byte alone. -/
theorem Memory.get_put_other {m : List Host.Cell} {a b : Nat} (v : Byte) (h : Memory.wf m = true) (hb : b ≠ a) :
    Memory.get (Memory.put m a v) b = Memory.get m b := SMap.get_put_other v h hb

/-- A store of several bytes leaves every byte outside them alone. -/
theorem Memory.get_write_other {m : List Host.Cell} {a b : Nat} {bs : List Byte} (h : Memory.wf m = true)
    (hb : b < a ∨ a + bs.length ≤ b) : Memory.get (Memory.write m a bs) b = Memory.get m b := by
  induction bs generalizing m a with
  | nil => rfl
  | cons v bs ih =>
    simp only [List.length_cons] at hb
    rw [Memory.write, ih (Memory.wf_put a v h) (by omega), Memory.get_put_other v h (by omega)]

/-- A store of several bytes leaves each of them at its address. -/
theorem Memory.get_write_same {m : List Host.Cell} {a i : Nat} {bs : List Byte} (h : Memory.wf m = true) (hi : i < bs.length) :
    Memory.get (Memory.write m a bs) (a + i) = bs[i] := by
  induction bs generalizing m a i with
  | nil => simp at hi
  | cons v bs ih =>
    cases i with
    | zero =>
      rw [Memory.write, Memory.get_write_other (Memory.wf_put a v h) (by omega), Nat.add_zero, Memory.get_put_same a v h]
      rfl
    | succ i =>
      rw [Memory.write, show a + (i + 1) = (a + 1) + i by omega, ih (Memory.wf_put a v h) (by simpa using hi)]
      rfl

/-- Reading back what was stored. -/
theorem Memory.read_write {m : List Host.Cell} (a : Nat) (bs : List Byte) (h : Memory.wf m = true) :
    Memory.read (Memory.write m a bs) a bs.length = bs := by
  have go (n : Nat) : ∀ (k : Nat), k + n = bs.length → Memory.read (Memory.write m a bs) (a + k) n = bs.drop k := by
    induction n with
    | zero => intro k hk; simp [Memory.read, ← hk]
    | succ n ih =>
      intro k hk
      have hk' : k < bs.length := by omega
      rw [Memory.read, Memory.get_write_same h hk', show a + k + 1 = a + (k + 1) by omega, ih (k + 1) (by omega),
        ← List.drop_eq_getElem_cons hk']
  simpa using go bs.length 0 (by omega)

end Sys2Proof.Machine
end

