-- ==== Sys2Proof/Laws/PerInstr.lean ====
section
/-! SUPPORT. The per-instruction family: what every constructor is as syntax. -/
namespace Sys2Proof.Laws.Opcode

/-- The step word of a well-formed step command holds the opcode of its row, which is a byte (Table 11-3). -/
def Statement (i : Instr) : Prop := ∀ w op, i.step? = some (w, op) → i.wf = true → wordOpcode w = op ∧ op < 256

/-- A command that is no step. -/
theorem notStep {i : Instr} (h : i.step? = none) : Statement i := fun w op k => by rw [h] at k; cases k

/-- A step. -/
theorem stepOf {i : Instr} (w : StepWord) (op : Nat) (h : i.step? = some (w, op)) (k : Nat.blt op 256 = true) : Statement i := by
  intro v o e wf
  rw [h] at e
  cases e
  simp only [Instr.wf, Instr.opcodeOk, h, Bool.and_eq_true, beq_iff_eq] at wf
  exact ⟨wf.1, by simpa [Nat.blt_eq] using k⟩

theorem load (c : Core) (w : StepWord) : Statement (.load c w) := stepOf w 0x00 rfl rfl
theorem loadBegin (c : Core) (a : Arr) (waited : Nat) : Statement (.loadBegin c a waited) := notStep rfl
theorem loadDone (c : Core) (a : Arr) : Statement (.loadDone c a) := notStep rfl
theorem pass (c : Core) (w : StepWord) : Statement (.pass c w) := stepOf w 0x01 rfl rfl
theorem planeSwap (c : Core) (a : Arr) : Statement (.planeSwap c a) := notStep rfl
theorem feed (c : Core) (w : StepWord) : Statement (.feed c w) := stepOf w 0x02 rfl rfl
theorem feedStart (c : Core) (f : Arr) (starve : Nat) : Statement (.feedStart c f starve) := notStep rfl
theorem exportStep (c : Core) (w : StepWord) : Statement (.exportStep c w) := stepOf w 0x03 rfl rfl
theorem aclr (c : Core) (w : StepWord) : Statement (.aclr c w) := stepOf w 0x04 rfl rfl
theorem asave (c : Core) (w : StepWord) : Statement (.asave c w) := stepOf w 0x05 rfl rfl
theorem arestore (c : Core) (w : StepWord) : Statement (.arestore c w) := stepOf w 0x06 rfl rfl
theorem fres (c : Core) (w : StepWord) : Statement (.fres c w) := stepOf w 0x08 rfl rfl
theorem fpres (c : Core) (w : StepWord) : Statement (.fpres c w) := stepOf w 0x09 rfl rfl
theorem fflush (c : Core) (w : StepWord) : Statement (.fflush c w) := stepOf w 0x0A rfl rfl
theorem frel (c : Core) (w : StepWord) : Statement (.frel c w) := stepOf w 0x0B rfl rfl
theorem fillDeadline (c : Core) (g : Ctx) : Statement (.fillDeadline c g) := notStep rfl
theorem fillWatchdog (c : Core) (g : Ctx) (f : Fin 2) : Statement (.fillWatchdog c g f) := notStep rfl
theorem coreFgctxWrite (c : Core) (g : Ctx) (v : W64) : Statement (.coreFgctxWrite c g v) := notStep rfl
theorem disp (c : Core) (w : StepWord) : Statement (.disp c w) := stepOf w 0x20 rfl rfl
theorem dispResume (c : Core) (waited : Nat) : Statement (.dispResume c waited) := notStep rfl
theorem sop (c : Core) (w : StepWord) : Statement (.sop c w) := stepOf w 0x21 rfl rfl
theorem sieveJobStart (c : Core) (dealWait : Nat) (bankWait : Nat) (resWait : Nat) : Statement (.sieveJobStart c dealWait bankWait resWait) := notStep rfl
theorem mergeTileClose (c : Core) (waited : Nat) : Statement (.mergeTileClose c waited) := notStep rfl
theorem sdrain (c : Core) (w : StepWord) : Statement (.sdrain c w) := stepOf w 0x22 rfl rfl
theorem sclr (c : Core) (w : StepWord) : Statement (.sclr c w) := stepOf w 0x23 rfl rfl
theorem vop (c : Core) (w : StepWord) : Statement (.vop c w) := stepOf w 0x40 rfl rfl
theorem vred (c : Core) (w : StepWord) : Statement (.vred c w) := stepOf w 0x41 rfl rfl
theorem vrow (c : Core) (w : StepWord) : Statement (.vrow c w) := stepOf w 0x42 rfl rfl
theorem osmUpdate (c : Core) (w : StepWord) : Statement (.osmUpdate c w) := stepOf w 0x43 rfl rfl
theorem osmRescale (c : Core) (w : StepWord) : Statement (.osmRescale c w) := stepOf w 0x43 rfl rfl
theorem osmFinal (c : Core) (w : StepWord) : Statement (.osmFinal c w) := stepOf w 0x43 rfl rfl
theorem quant (c : Core) (w : StepWord) : Statement (.quant c w) := stepOf w 0x44 rfl rfl
theorem tileOutputWrite (c : Core) : Statement (.tileOutputWrite c) := notStep rfl
theorem vecAmaxWrite (c : Core) (n : Fin 4) (v : W64) : Statement (.vecAmaxWrite c n v) := notStep rfl
theorem strm (c : Core) (w : StepWord) : Statement (.strm c w) := stepOf w 0x60 rfl rfl
theorem copy (c : Core) (w : StepWord) : Statement (.copy c w) := stepOf w 0x61 rfl rfl
theorem trickle (c : Core) (w : StepWord) : Statement (.trickle c w) := stepOf w 0x62 rfl rfl
theorem trickleDone (c : Core) (ecc : Ecc) : Statement (.trickleDone c ecc) := notStep rfl
theorem dload (c : Core) (w : StepWord) : Statement (.dload c w) := stepOf w 0x63 rfl rfl
theorem dstore (c : Core) (w : StepWord) : Statement (.dstore c w) := stepOf w 0x64 rfl rfl
theorem dset (c : Core) (w : StepWord) : Statement (.dset c w) := stepOf w 0x65 rfl rfl
theorem fset (c : Core) (w : StepWord) : Statement (.fset c w) := stepOf w 0x80 rfl rfl
theorem fsigr (c : Core) (w : StepWord) : Statement (.fsigr c w) := stepOf w 0x81 rfl rfl
theorem fwait (c : Core) (w : StepWord) : Statement (.fwait c w) := stepOf w 0x82 rfl rfl
theorem fence (c : Core) (w : StepWord) : Statement (.fence c w) := stepOf w 0x83 rfl rfl
theorem guardSatisfied (c : Core) (waited : Nat) : Statement (.guardSatisfied c waited) := notStep rfl
theorem slotTimeout (c : Core) : Statement (.slotTimeout c) := notStep rfl
theorem alu (c : Core) (w : StepWord) : Statement (.alu c w) := stepOf w 0xA0 rfl rfl
theorem movi (c : Core) (w : StepWord) : Statement (.movi c w) := stepOf w 0xA1 rfl rfl
theorem cmp (c : Core) (w : StepWord) : Statement (.cmp c w) := stepOf w 0xA2 rfl rfl
theorem plog (c : Core) (w : StepWord) : Statement (.plog c w) := stepOf w 0xA3 rfl rfl
theorem ld (c : Core) (w : StepWord) : Statement (.ld c w) := stepOf w 0xA4 rfl rfl
theorem st (c : Core) (w : StepWord) : Statement (.st c w) := stepOf w 0xA5 rfl rfl
theorem br (c : Core) (w : StepWord) : Statement (.br c w) := stepOf w 0xA8 rfl rfl
theorem loop (c : Core) (w : StepWord) : Statement (.loop c w) := stepOf w 0xA9 rfl rfl
theorem endl (c : Core) (w : StepWord) : Statement (.endl c w) := stepOf w 0xAA rfl rfl
theorem ptest (c : Core) (w : StepWord) : Statement (.ptest c w) := stepOf w 0xAC rfl rfl
theorem nop (c : Core) (w : StepWord) : Statement (.nop c w) := stepOf w 0xAE rfl rfl
theorem endStep (c : Core) (w : StepWord) : Statement (.endStep c w) := stepOf w 0xAF rfl rfl
theorem bset (c : Core) (w : StepWord) : Statement (.bset c w) := stepOf w 0xC0 rfl rfl
theorem belay (c : Core) (w : StepWord) : Statement (.belay c w) := stepOf w 0xC1 rfl rfl
theorem belayStageReady (c : Core) (n : Fin 8) : Statement (.belayStageReady c n) := notStep rfl
theorem belayCreditGrant (c : Core) (n : Fin 8) (src : BelaySrc) : Statement (.belayCreditGrant c n src) := notStep rfl
theorem belayRowReceive (c : Core) (n : Fin 8) (src : BelaySrc) (row : BelayRow) : Statement (.belayRowReceive c n src row) := notStep rfl
theorem belayTimeout (c : Core) (n : Fin 8) : Statement (.belayTimeout c n) := notStep rfl
theorem qpush (c : Core) (w : StepWord) : Statement (.qpush c w) := stepOf w 0xE0 rfl rfl
theorem qpop (c : Core) (w : StepWord) : Statement (.qpop c w) := stepOf w 0xE1 rfl rfl
theorem qpopWake (c : Core) (waited : Nat) : Statement (.qpopWake c waited) := notStep rfl
theorem qtry (c : Core) (w : StepWord) : Statement (.qtry c w) := stepOf w 0xE2 rfl rfl
theorem twait (c : Core) (w : StepWord) : Statement (.twait c w) := stepOf w 0xE8 rfl rfl
theorem twaitDone (c : Core) (waited : Nat) : Statement (.twaitDone c waited) := notStep rfl
theorem ttime (c : Core) (w : StepWord) : Statement (.ttime c w) := stepOf w 0xE9 rfl rfl
theorem startTake (c : Core) : Statement (.startTake c) := notStep rfl
theorem clearFault (c : Core) (v : W64) : Statement (.clearFault c v) := notStep rfl
theorem unitDisable (c : Core) (v : W64) : Statement (.unitDisable c v) := notStep rfl
theorem abort (c : Core) (v : W64) : Statement (.abort c v) := notStep rfl
theorem unitEnable (c : Core) (v : W64) : Statement (.unitEnable c v) := notStep rfl
theorem drainDone (c : Core) (unit : Fin 13) : Statement (.drainDone c unit) := notStep rfl
theorem seqFlagset (c : Core) (v : W64) : Statement (.seqFlagset c v) := notStep rfl
theorem seqFlagclr (c : Core) (v : W64) : Statement (.seqFlagclr c v) := notStep rfl
theorem accWindowAccess (who : Writer) (addr : W64) (op : AccessOp) : Statement (.accWindowAccess who addr op) := notStep rfl
theorem meshPantryAccess (a : Access) (ecc : Ecc) : Statement (.meshPantryAccess a ecc) := notStep rfl
theorem panInvalGo (c : Core) (v : W64) : Statement (.panInvalGo c v) := notStep rfl
theorem streamBegin (c : Core) (e : Eng) : Statement (.streamBegin c e) := notStep rfl
theorem streamAdmit (c : Core) (e : Eng) (waited : Nat) : Statement (.streamAdmit c e waited) := notStep rfl
theorem streamAddr (c : Core) (e : Eng) : Statement (.streamAddr c e) := notStep rfl
theorem streamDesc (c : Core) (e : Eng) : Statement (.streamDesc c e) := notStep rfl
theorem streamLoop (c : Core) (e : Eng) : Statement (.streamLoop c e) := notStep rfl
theorem streamStride (c : Core) (e : Eng) : Statement (.streamStride c e) := notStep rfl
theorem streamIdx (c : Core) (e : Eng) : Statement (.streamIdx c e) := notStep rfl
theorem streamFill (c : Core) (e : Eng) : Statement (.streamFill c e) := notStep rfl
theorem streamCvt (c : Core) (e : Eng) : Statement (.streamCvt c e) := notStep rfl
theorem streamWina (c : Core) (e : Eng) : Statement (.streamWina c e) := notStep rfl
theorem streamWinb (c : Core) (e : Eng) : Statement (.streamWinb c e) := notStep rfl
theorem streamCred (c : Core) (e : Eng) : Statement (.streamCred c e) := notStep rfl
theorem streamGo (c : Core) (e : Eng) (ecc : List (W64 × Ecc)) : Statement (.streamGo c e ecc) := notStep rfl
theorem streamWait (c : Core) (e : Eng) : Statement (.streamWait c e) := notStep rfl
theorem streamSig (c : Core) (e : Eng) : Statement (.streamSig c e) := notStep rfl
theorem streamEnd (c : Core) (e : Eng) : Statement (.streamEnd c e) := notStep rfl
theorem streamWaitTimeout (c : Core) (e : Eng) : Statement (.streamWaitTimeout c e) := notStep rfl
theorem partTimeout (c : Core) (e : Eng) (part : Fin 64) : Statement (.partTimeout c e part) := notStep rfl
theorem strCtlWrite (c : Core) (v : W64) : Statement (.strCtlWrite c v) := notStep rfl
theorem monGovrun (d : Die) (v : W64) : Statement (.monGovrun d v) := notStep rfl
theorem governorRun (d : Die) : Statement (.governorRun d) := notStep rfl
theorem topoXdispCount : Statement (.topoXdispCount) := notStep rfl
theorem xdispRows (c : Core) : Statement (.xdispRows c) := notStep rfl
theorem xdCountReceive (c : Core) (g : Ctx) (rank : BitVec 16) (m : XdCount) : Statement (.xdCountReceive c g rank m) := notStep rfl
theorem xdRowReceive (c : Core) (g : Ctx) (rank : BitVec 16) (j : Nat) (srcDev : BitVec 16) (srcCore : BitVec 6) (entry : BitVec 20) (row : List Byte) : Statement (.xdRowReceive c g rank j srcDev srcCore entry row) := notStep rfl
theorem topoXdispReturn : Statement (.topoXdispReturn) := notStep rfl
theorem xdReturnReceive (c : Core) (entry : XdEntry) (row : List Byte) : Statement (.xdReturnReceive c entry row) := notStep rfl
theorem coreXrxWrite (c : Core) (g : Ctx) (b : Bool) (v : W64) : Statement (.coreXrxWrite c g b v) := notStep rfl
theorem memRequest (m : MemCtl) (r : MemReq) : Statement (.memRequest m r) := notStep rfl
theorem memGrant (m : MemCtl) (ecc : Ecc) : Statement (.memGrant m ecc) := notStep rfl
theorem memPreempt (m : MemCtl) (words : Nat) : Statement (.memPreempt m words) := notStep rfl
theorem hbmPeriodicCal (pc : Fin 256) : Statement (.hbmPeriodicCal pc) := notStep rfl
theorem zeroFillDone (t : Tier) : Statement (.zeroFillDone t) := notStep rfl
theorem hbmPriocommit (v : W64) : Statement (.hbmPriocommit v) := notStep rfl
theorem lpPriocommit (v : W64) : Statement (.lpPriocommit v) := notStep rfl
theorem coreMpriocommit (v : W64) : Statement (.coreMpriocommit v) := notStep rfl
theorem hbmNmgreq (h : Stack) (r : BitVec 512) : Statement (.hbmNmgreq h r) := notStep rfl
theorem nmgRun (h : Stack) (ecc : List (BitVec 48 × Ecc)) : Statement (.nmgRun h ecc) := notStep rfl
theorem nmgDone (h : Stack) : Statement (.nmgDone h) := notStep rfl
theorem packetPush (q : QueueNo) (port : Fin 40) (data : List Byte) (written : Nat) : Statement (.packetPush q port data written) := notStep rfl
theorem packetPop (q : QueueNo) (pop : PopCmd) : Statement (.packetPop q pop) := notStep rfl
theorem packetBreak (q : QueueNo) : Statement (.packetBreak q) := notStep rfl
theorem qpQcfgWrite (q : QueueNo) (v : W64) : Statement (.qpQcfgWrite q v) := notStep rfl
theorem qpFlush (q : QueueNo) (v : W64) : Statement (.qpFlush q v) := notStep rfl
theorem tbTimeset (v : W64) : Statement (.tbTimeset v) := notStep rfl
theorem syncInEdge (now : W64) : Statement (.syncInEdge now) := notStep rfl
theorem timeLock : Statement (.timeLock) := notStep rfl
theorem refLost (why : RefLoss) : Statement (.refLost why) := notStep rfl
theorem holdoverExpiry : Statement (.holdoverExpiry) := notStep rfl
theorem timeRequest (t1 : W64) : Statement (.timeRequest t1) := notStep rfl
theorem timeRequestReceive (l : Link) (t2 : W64) (t3 : W64) : Statement (.timeRequestReceive l t2 t3) := notStep rfl
theorem timeReply (t1 : W64) (t2 : W64) (t3 : W64) (t4 : W64) (state : BitVec 3) (depth : BitVec 4) : Statement (.timeReply t1 t2 t3 t4 state depth) := notStep rfl
theorem syncOutPulse : Statement (.syncOutPulse) := notStep rfl
theorem pitchStart : Statement (.pitchStart) := notStep rfl
theorem topoStart : Statement (.topoStart) := notStep rfl
theorem topoSwap : Statement (.topoSwap) := notStep rfl
theorem topoLinkwin : Statement (.topoLinkwin) := notStep rfl
theorem linkwinEnd (l : Link) : Statement (.linkwinEnd l) := notStep rfl
theorem topoColl : Statement (.topoColl) := notStep rfl
theorem topoCalwin : Statement (.topoCalwin) := notStep rfl
theorem topoDeadline : Statement (.topoDeadline) := notStep rfl
theorem topoSleep : Statement (.topoSleep) := notStep rfl
theorem topoHeart : Statement (.topoHeart) := notStep rfl
theorem topoEpoch : Statement (.topoEpoch) := notStep rfl
theorem flitReceive (l : Link) (flit : BitVec 2048) : Statement (.flitReceive l flit) := notStep rfl
theorem retryRequest (l : Link) (seq : BitVec 10) : Statement (.retryRequest l seq) := notStep rfl
theorem ackTimeout (l : Link) : Statement (.ackTimeout l) := notStep rfl
theorem recordClose (e : LinkEnd) : Statement (.recordClose e) := notStep rfl
theorem sealReceive (l : Link) (flit : BitVec 2048) : Statement (.sealReceive l flit) := notStep rfl
theorem packetForward (p : Pkt) : Statement (.packetForward p) := notStep rfl
theorem pktWrite (p : Pkt) : Statement (.pktWrite p) := notStep rfl
theorem pktRead (p : Pkt) : Statement (.pktRead p) := notStep rfl
theorem pktResponse (p : Pkt) : Statement (.pktResponse p) := notStep rfl
theorem linkDown (l : Link) (reason : BitVec 4) : Statement (.linkDown l reason) := notStep rfl
theorem linkRetrainTimer (e : LinkEnd) : Statement (.linkRetrainTimer e) := notStep rfl
theorem trainingDone (e : LinkEnd) (x4 : Bool) (laneHi : Bool) (half : Bool) : Statement (.trainingDone e x4 laneHi half) := notStep rfl
theorem trainingTimeout (e : LinkEnd) : Statement (.trainingTimeout e) := notStep rfl
theorem linkKeying (l : Link) (peer : PeerOffer) : Statement (.linkKeying l peer) := notStep rfl
theorem rekey (l : Link) : Statement (.rekey l) := notStep rfl
theorem retrain (l : Link) : Statement (.retrain l) := notStep rfl
theorem wakeTx (l : Link) : Statement (.wakeTx l) := notStep rfl
theorem wakeDet (l : Link) : Statement (.wakeDet l) := notStep rfl
theorem collFailNotice (c : Core) (coll : CollId) (ring : Fin 8) (dev : BitVec 16) (link : BitVec 5) : Statement (.collFailNotice c coll ring dev link) := notStep rfl
theorem collTimeout (c : Core) (ring : Fin 8) : Statement (.collTimeout c ring) := notStep rfl
theorem collEnd (c : Core) : Statement (.collEnd c) := notStep rfl
theorem rdShared (h : Half) (txid : BitVec 10) (addr : BitVec 48) : Statement (.rdShared h txid addr) := notStep rfl
theorem rdOwn (h : Half) (txid : BitVec 10) (addr : BitVec 48) : Statement (.rdOwn h txid addr) := notStep rfl
theorem rdNc (h : Half) (txid : BitVec 10) (addr : BitVec 48) (lines : Nat) : Statement (.rdNc h txid addr lines) := notStep rfl
theorem wrNc (h : Half) (txid : BitVec 10) (addr : BitVec 48) (data : List Byte) : Statement (.wrNc h txid addr data) := notStep rfl
theorem wrPart (h : Half) (txid : BitVec 10) (addr : BitVec 48) (data : List Byte) (mask : W64) : Statement (.wrPart h txid addr data mask) := notStep rfl
theorem wbDirty (h : Half) (txid : BitVec 10) (addr : BitVec 48) (data : List Byte) : Statement (.wbDirty h txid addr data) := notStep rfl
theorem evict (h : Half) (txid : BitVec 10) (addr : BitVec 48) : Statement (.evict h txid addr) := notStep rfl
theorem snpRsp (h : Half) (tag : NzTag) (data : Option (List Byte)) : Statement (.snpRsp h tag data) := notStep rfl
theorem snoopTimeout (h : Half) (addr : BitVec 48) : Statement (.snoopTimeout h addr) := notStep rfl
theorem menuReq (h : Half) (txid : BitVec 10) (entry : BitVec 16) (data : List Byte) : Statement (.menuReq h txid entry data) := notStep rfl
theorem doorbell (h : Half) (txid : BitVec 10) (queue : BitVec 11) (data : List Byte) : Statement (.doorbell h txid queue data) := notStep rfl
theorem popWaitExpiry (h : Half) : Statement (.popWaitExpiry h) := notStep rfl
theorem cData (h : Half) (txid : BitVec 10) (reason : BitVec 4) (data : List Byte) : Statement (.cData h txid reason data) := notStep rfl
theorem cCmp (h : Half) (txid : BitVec 10) (reason : BitVec 4) : Statement (.cCmp h txid reason) := notStep rfl
theorem cInv (h : Half) (txid : BitVec 10) (addr : BitVec 48) : Statement (.cInv h txid addr) := notStep rfl
theorem nzFlitReceive (h : Half) (body : BitVec 1888) : Statement (.nzFlitReceive h body) := notStep rfl
theorem msgSend (h : Half) : Statement (.msgSend h) := notStep rfl
theorem msgResend (h : Half) : Statement (.msgResend h) := notStep rfl
theorem halfDown (h : Half) : Statement (.halfDown h) := notStep rfl
theorem nzKeying (h : Half) (compKey : List Byte) (compSig : List Byte) : Statement (.nzKeying h compKey compSig) := notStep rfl
theorem nzRetrain (h : Half) : Statement (.nzRetrain h) := notStep rfl
theorem nzRekey (h : Half) : Statement (.nzRekey h) := notStep rfl
theorem porNAssert : Statement (.porNAssert) := notStep rfl
theorem resetNAssert : Statement (.resetNAssert) := notStep rfl
theorem resetRelease (devid : BitVec 16) : Statement (.resetRelease devid) := notStep rfl
theorem imageRead : Statement (.imageRead) := notStep rfl
theorem imageReadDone : Statement (.imageReadDone) := notStep rfl
theorem weightLoadDone (entry : Nat) : Statement (.weightLoadDone entry) := notStep rfl
theorem loadWaitExpiry : Statement (.loadWaitExpiry) := notStep rfl
theorem erase (paddr : BitVec 30) : Statement (.erase paddr) := notStep rfl
theorem program (paddr : BitVec 30) : Statement (.program paddr) := notStep rfl
theorem bootRead (paddr : BitVec 30) : Statement (.bootRead paddr) := notStep rfl
theorem verify (paddr : BitVec 30) : Statement (.verify paddr) := notStep rfl
theorem flashCmdDone (ok : Bool) : Statement (.flashCmdDone ok) := notStep rfl
theorem bootReset : Statement (.bootReset) := notStep rfl
theorem lardWrite (n : LardNo) (v : W64) (who : Writer) : Statement (.lardWrite n v who) := notStep rfl
theorem lardWriteDone : Statement (.lardWriteDone) := notStep rfl
theorem getId (p : SecPath) : Statement (.getId p) := notStep rfl
theorem attest (p : SecPath) : Statement (.attest p) := notStep rfl
theorem challenge (p : SecPath) : Statement (.challenge p) := notStep rfl
theorem debugOpen (p : SecPath) : Statement (.debugOpen p) := notStep rfl
theorem pwTry (p : SecPath) (arg : BitVec 5) : Statement (.pwTry p arg) := notStep rfl
theorem pwSet (p : SecPath) (arg : BitVec 5) : Statement (.pwSet p arg) := notStep rfl
theorem pwClear (p : SecPath) : Statement (.pwClear p) := notStep rfl
theorem commitVersion (p : SecPath) : Statement (.commitVersion p) := notStep rfl
theorem ownSet (p : SecPath) : Statement (.ownSet p) := notStep rfl
theorem ownClear (p : SecPath) : Statement (.ownClear p) := notStep rfl
theorem debugClose (p : SecPath) : Statement (.debugClose p) := notStep rfl
theorem never (p : SecPath) : Statement (.never p) := notStep rfl
theorem nonceExpiry : Statement (.nonceExpiry) := notStep rfl
theorem trngFail : Statement (.trngFail) := notStep rfl
theorem heartbeatReceive (l : Link) (hb : Heartbeat) : Statement (.heartbeatReceive l hb) := notStep rfl
theorem attachWaitExpiry : Statement (.attachWaitExpiry) := notStep rfl
theorem attachMsg (l : Link) (m : AttachMsg) : Statement (.attachMsg l m) := notStep rfl
theorem resyncDone : Statement (.resyncDone) := notStep rfl
theorem rejoinPitch : Statement (.rejoinPitch) := notStep rfl
theorem detach : Statement (.detach) := notStep rfl
theorem attach : Statement (.attach) := notStep rfl
theorem detachAck : Statement (.detachAck) := notStep rfl
theorem pairDetach : Statement (.pairDetach) := notStep rfl
theorem releasePitch : Statement (.releasePitch) := notStep rfl
theorem pwrReqActive (who : Writer) : Statement (.pwrReqActive who) := notStep rfl
theorem pwrReqIdle : Statement (.pwrReqIdle) := notStep rfl
theorem pwrReqNap (len : W32) : Statement (.pwrReqNap len) := notStep rfl
theorem pwrReqBivouac (save : Bool) (len : W32) : Statement (.pwrReqBivouac save len) := notStep rfl
theorem pwrReqWatch (save : Bool) (len : W32) : Statement (.pwrReqWatch save len) := notStep rfl
theorem domainQuery : Statement (.domainQuery) := notStep rfl
theorem delayLimExpiry : Statement (.delayLimExpiry) := notStep rfl
theorem pwrCommit : Statement (.pwrCommit) := notStep rfl
theorem saveDone : Statement (.saveDone) := notStep rfl
theorem offStep : Statement (.offStep) := notStep rfl
theorem avsAck : Statement (.avsAck) := notStep rfl
theorem avsTimeout : Statement (.avsTimeout) := notStep rfl
theorem wakeNLow : Statement (.wakeNLow) := notStep rfl
theorem nzIdleExit (h : Half) : Statement (.nzIdleExit h) := notStep rfl
theorem wakePitch : Statement (.wakePitch) := notStep rfl
theorem tempWake (temp : BitVec 16) : Statement (.tempWake temp) := notStep rfl
theorem railWake (aon : BitVec 16) (vio : BitVec 16) : Statement (.railWake aon vio) := notStep rfl
theorem watchSample (smp : Sample) : Statement (.watchSample smp) := notStep rfl
theorem wakeStep : Statement (.wakeStep) := notStep rfl
theorem restoreDone (failed : List (Core × Nat)) : Statement (.restoreDone failed) := notStep rfl
theorem pwrPadRelease (v : W64) : Statement (.pwrPadRelease v) := notStep rfl
theorem ungate (d : Dom) : Statement (.ungate d) := notStep rfl
theorem opChange (op : BitVec 2) : Statement (.opChange op) := notStep rfl
theorem thermalStep (temp : BitVec 16) : Statement (.thermalStep temp) := notStep rfl
theorem thermtrip (temp : BitVec 16) : Statement (.thermtrip temp) := notStep rfl
theorem vddAonLow : Statement (.vddAonLow) := notStep rfl
theorem railUndervolt : Statement (.railUndervolt) := notStep rfl
theorem fltBistreq (v : W64) : Statement (.fltBistreq v) := notStep rfl
theorem bistStart (c : Core) (a : Arr) : Statement (.bistStart c a) := notStep rfl
theorem bistDone (c : Core) (a : Arr) (pass : Bool) : Statement (.bistDone c a pass) := notStep rfl
theorem bistRefuse (c : Core) (a : Arr) : Statement (.bistRefuse c a) := notStep rfl
theorem fltCalreq (v : W64) : Statement (.fltCalreq v) := notStep rfl
theorem serdesCalDone (links : BitVec 24) (halves : BitVec 2) : Statement (.serdesCalDone links halves) := notStep rfl
theorem fieldRestore (f : FieldAddr) (copyOk : Bool) : Statement (.fieldRestore f copyOk) := notStep rfl
theorem monWindowEnd (m : MonNo) : Statement (.monWindowEnd m) := notStep rfl
theorem monClr (m : MonNo) : Statement (.monClr m) := notStep rfl
theorem monCfgWrite (m : MonNo) (v : W64) : Statement (.monCfgWrite m v) := notStep rfl
theorem registerWrite (who : Writer) (addr : W64) (data : List Byte) : Statement (.registerWrite who addr data) := notStep rfl
theorem secCmdDone : Statement (.secCmdDone) := notStep rfl
theorem monSample (m : MonNo) (v : W32) : Statement (.monSample m v) := notStep rfl

end Sys2Proof.Laws.Opcode
end

