-- ==== Sys2Proof/Laws/Queues.lean ====
section
/-! SUPPORT. The cell counts of a queue and what either side sees of the other's (R435). -/
namespace Sys2Proof.Machine

/-- The copy that crosses a clock boundary is read as the count it encodes. -/
theorem ungray_gray (n : BitVec 17) : ungray (gray n) = n := by
  unfold ungray gray
  ext i hi
  have e : i = 0 ∨ i = 1 ∨ i = 2 ∨ i = 3 ∨ i = 4 ∨ i = 5 ∨ i = 6 ∨ i = 7 ∨ i = 8 ∨ i = 9 ∨ i = 10 ∨ i = 11 ∨ i = 12 ∨ i = 13 ∨
      i = 14 ∨ i = 15 ∨ i = 16 := by omega
  rcases e with rfl | rfl | rfl | rfl | rfl | rfl | rfl | rfl | rfl | rfl | rfl | rfl | rfl | rfl | rfl | rfl | rfl <;> simp

namespace CellCount

theorem lag_lt (x : CellCount) : x.lag < 2 ^ 17 := (x.own - ungray x.copy).isLt

@[simp] theorem look_own (x : CellCount) (now : W64) (w left : Nat) : (x.look now w left).own = x.own := rfl

/-- No more can be unseen than there is to see. -/
theorem fresh_le (x : CellCount) (now : W64) (w : Nat) : x.fresh now w ≤ x.lag := by
  unfold fresh; split
  · exact Nat.min_le_left ..
  · exact Nat.le_refl _

/-- A look leaves unseen at most what was counted within its bound. -/
theorem look_lag (x : CellCount) (now : W64) (w left : Nat) : (x.look now w left).lag = min (x.fresh now w) left := by
  have h := x.lag_lt
  have k := x.fresh_le now w
  simp only [look, lag, ungray_gray]
  rw [show ∀ a b : BitVec 17, a - (a - b) = b by intro a b; bv_omega, BitVec.toNat_ofNat]
  exact Nat.mod_eq_of_lt (by omega)

@[simp] theorem add_zero (x : CellCount) (now : W64) : x.add 0 now = x := rfl

end CellCount

/-- Where the producer side's copy does not lag, a look changes nothing. -/
theorem State.lookFreed_seen {s : State} {q : Nat} (h : (s.queue q).rl.lag = 0) : s.lookFreed q = s := by
  simp [lookFreed, h]
theorem State.lookWritten_seen {s : State} {q : Nat} (h : (s.queue q).wr.lag = 0) : s.lookWritten q = s := by
  simp [lookWritten, h]

end Sys2Proof.Machine
end

