-- ==== Sys2Proof/Laws/State.lean ====
section
/-! SUPPORT. Fields under updates: what each update of the state leaves alone, and what it leaves where it writes. -/
namespace Sys2Proof.Machine

/-! ### The updates that write one field of the state -/

@[simp] theorem State.setReg_pending (s : State) (a : Nat) (v : W64) : (s.setReg a v).pending = s.pending := rfl
@[simp] theorem State.setReg_part (s : State) (a : Nat) (v : W64) : (s.setReg a v).part = s.part := rfl
@[simp] theorem State.setReg_devId (s : State) (a : Nat) (v : W64) : (s.setReg a v).devId = s.devId := rfl
@[simp] theorem State.setReg_inForce (s : State) (a : Nat) (v : W64) : (s.setReg a v).inForce = s.inForce := rfl
@[simp] theorem State.setReg_mem (s : State) (a : Nat) (v : W64) : (s.setReg a v).mem = s.mem := rfl
@[simp] theorem State.setReg_ecc (s : State) (a : Nat) (v : W64) : (s.setReg a v).ecc = s.ecc := rfl
@[simp] theorem State.setReg_cores (s : State) (a : Nat) (v : W64) : (s.setReg a v).cores = s.cores := rfl
@[simp] theorem State.setReg_queues (s : State) (a : Nat) (v : W64) : (s.setReg a v).queues = s.queues := rfl
@[simp] theorem State.setReg_wire (s : State) (a : Nat) (v : W64) : (s.setReg a v).wire = s.wire := rfl
@[simp] theorem State.setReg_flt (s : State) (a : Nat) (v : W64) : (s.setReg a v).flt = s.flt := rfl
@[simp] theorem State.setReg_tb (s : State) (a : Nat) (v : W64) : (s.setReg a v).tb = s.tb := rfl
@[simp] theorem State.setReg_topo (s : State) (a : Nat) (v : W64) : (s.setReg a v).topo = s.topo := rfl
@[simp] theorem State.setReg_route (s : State) (a : Nat) (v : W64) : (s.setReg a v).route = s.route := rfl
@[simp] theorem State.setReg_bv (s : State) (a : Nat) (v : W64) : (s.setReg a v).bv = s.bv := rfl
@[simp] theorem State.setReg_nz (s : State) (a : Nat) (v : W64) : (s.setReg a v).nz = s.nz := rfl
@[simp] theorem State.setReg_boot (s : State) (a : Nat) (v : W64) : (s.setReg a v).boot = s.boot := rfl
@[simp] theorem State.setReg_sec (s : State) (a : Nat) (v : W64) : (s.setReg a v).sec = s.sec := rfl
@[simp] theorem State.setReg_pair (s : State) (a : Nat) (v : W64) : (s.setReg a v).pair = s.pair := rfl
@[simp] theorem State.setReg_pwr (s : State) (a : Nat) (v : W64) : (s.setReg a v).pwr = s.pwr := rfl
@[simp] theorem State.setReg_memc (s : State) (a : Nat) (v : W64) : (s.setReg a v).memc = s.memc := rfl
@[simp] theorem State.setReg_mons (s : State) (a : Nat) (v : W64) : (s.setReg a v).mons = s.mons := rfl
@[simp] theorem State.setReg_govq (s : State) (a : Nat) (v : W64) : (s.setReg a v).govq = s.govq := rfl
@[simp] theorem State.setReg_free (s : State) (a : Nat) (v : W64) : (s.setReg a v).free = s.free := rfl

@[simp] theorem State.setCore_pending (s : State) (c : Core) (k : CoreSt) : (s.setCore c k).pending = s.pending := rfl
@[simp] theorem State.setCore_part (s : State) (c : Core) (k : CoreSt) : (s.setCore c k).part = s.part := rfl
@[simp] theorem State.setCore_devId (s : State) (c : Core) (k : CoreSt) : (s.setCore c k).devId = s.devId := rfl
@[simp] theorem State.setCore_regs (s : State) (c : Core) (k : CoreSt) : (s.setCore c k).regs = s.regs := rfl
@[simp] theorem State.setCore_inForce (s : State) (c : Core) (k : CoreSt) : (s.setCore c k).inForce = s.inForce := rfl
@[simp] theorem State.setCore_mem (s : State) (c : Core) (k : CoreSt) : (s.setCore c k).mem = s.mem := rfl
@[simp] theorem State.setCore_ecc (s : State) (c : Core) (k : CoreSt) : (s.setCore c k).ecc = s.ecc := rfl
@[simp] theorem State.setCore_queues (s : State) (c : Core) (k : CoreSt) : (s.setCore c k).queues = s.queues := rfl
@[simp] theorem State.setCore_wire (s : State) (c : Core) (k : CoreSt) : (s.setCore c k).wire = s.wire := rfl
@[simp] theorem State.setCore_flt (s : State) (c : Core) (k : CoreSt) : (s.setCore c k).flt = s.flt := rfl
@[simp] theorem State.setCore_tb (s : State) (c : Core) (k : CoreSt) : (s.setCore c k).tb = s.tb := rfl
@[simp] theorem State.setCore_topo (s : State) (c : Core) (k : CoreSt) : (s.setCore c k).topo = s.topo := rfl
@[simp] theorem State.setCore_route (s : State) (c : Core) (k : CoreSt) : (s.setCore c k).route = s.route := rfl
@[simp] theorem State.setCore_bv (s : State) (c : Core) (k : CoreSt) : (s.setCore c k).bv = s.bv := rfl
@[simp] theorem State.setCore_nz (s : State) (c : Core) (k : CoreSt) : (s.setCore c k).nz = s.nz := rfl
@[simp] theorem State.setCore_boot (s : State) (c : Core) (k : CoreSt) : (s.setCore c k).boot = s.boot := rfl
@[simp] theorem State.setCore_sec (s : State) (c : Core) (k : CoreSt) : (s.setCore c k).sec = s.sec := rfl
@[simp] theorem State.setCore_pair (s : State) (c : Core) (k : CoreSt) : (s.setCore c k).pair = s.pair := rfl
@[simp] theorem State.setCore_pwr (s : State) (c : Core) (k : CoreSt) : (s.setCore c k).pwr = s.pwr := rfl
@[simp] theorem State.setCore_memc (s : State) (c : Core) (k : CoreSt) : (s.setCore c k).memc = s.memc := rfl
@[simp] theorem State.setCore_mons (s : State) (c : Core) (k : CoreSt) : (s.setCore c k).mons = s.mons := rfl
@[simp] theorem State.setCore_govq (s : State) (c : Core) (k : CoreSt) : (s.setCore c k).govq = s.govq := rfl
@[simp] theorem State.setCore_free (s : State) (c : Core) (k : CoreSt) : (s.setCore c k).free = s.free := rfl

@[simp] theorem State.setQueue_pending (s : State) (q : Nat) (x : QueueSt) : (s.setQueue q x).pending = s.pending := rfl
@[simp] theorem State.setQueue_part (s : State) (q : Nat) (x : QueueSt) : (s.setQueue q x).part = s.part := rfl
@[simp] theorem State.setQueue_devId (s : State) (q : Nat) (x : QueueSt) : (s.setQueue q x).devId = s.devId := rfl
@[simp] theorem State.setQueue_regs (s : State) (q : Nat) (x : QueueSt) : (s.setQueue q x).regs = s.regs := rfl
@[simp] theorem State.setQueue_inForce (s : State) (q : Nat) (x : QueueSt) : (s.setQueue q x).inForce = s.inForce := rfl
@[simp] theorem State.setQueue_mem (s : State) (q : Nat) (x : QueueSt) : (s.setQueue q x).mem = s.mem := rfl
@[simp] theorem State.setQueue_ecc (s : State) (q : Nat) (x : QueueSt) : (s.setQueue q x).ecc = s.ecc := rfl
@[simp] theorem State.setQueue_cores (s : State) (q : Nat) (x : QueueSt) : (s.setQueue q x).cores = s.cores := rfl
@[simp] theorem State.setQueue_wire (s : State) (q : Nat) (x : QueueSt) : (s.setQueue q x).wire = s.wire := rfl
@[simp] theorem State.setQueue_flt (s : State) (q : Nat) (x : QueueSt) : (s.setQueue q x).flt = s.flt := rfl
@[simp] theorem State.setQueue_tb (s : State) (q : Nat) (x : QueueSt) : (s.setQueue q x).tb = s.tb := rfl
@[simp] theorem State.setQueue_topo (s : State) (q : Nat) (x : QueueSt) : (s.setQueue q x).topo = s.topo := rfl
@[simp] theorem State.setQueue_route (s : State) (q : Nat) (x : QueueSt) : (s.setQueue q x).route = s.route := rfl
@[simp] theorem State.setQueue_bv (s : State) (q : Nat) (x : QueueSt) : (s.setQueue q x).bv = s.bv := rfl
@[simp] theorem State.setQueue_nz (s : State) (q : Nat) (x : QueueSt) : (s.setQueue q x).nz = s.nz := rfl
@[simp] theorem State.setQueue_boot (s : State) (q : Nat) (x : QueueSt) : (s.setQueue q x).boot = s.boot := rfl
@[simp] theorem State.setQueue_sec (s : State) (q : Nat) (x : QueueSt) : (s.setQueue q x).sec = s.sec := rfl
@[simp] theorem State.setQueue_pair (s : State) (q : Nat) (x : QueueSt) : (s.setQueue q x).pair = s.pair := rfl
@[simp] theorem State.setQueue_pwr (s : State) (q : Nat) (x : QueueSt) : (s.setQueue q x).pwr = s.pwr := rfl
@[simp] theorem State.setQueue_memc (s : State) (q : Nat) (x : QueueSt) : (s.setQueue q x).memc = s.memc := rfl
@[simp] theorem State.setQueue_mons (s : State) (q : Nat) (x : QueueSt) : (s.setQueue q x).mons = s.mons := rfl
@[simp] theorem State.setQueue_govq (s : State) (q : Nat) (x : QueueSt) : (s.setQueue q x).govq = s.govq := rfl
@[simp] theorem State.setQueue_free (s : State) (q : Nat) (x : QueueSt) : (s.setQueue q x).free = s.free := rfl

@[simp] theorem State.wrBytes_pending (s : State) (a : Nat) (bs : List Byte) : (s.wrBytes a bs).pending = s.pending := rfl
@[simp] theorem State.wrBytes_part (s : State) (a : Nat) (bs : List Byte) : (s.wrBytes a bs).part = s.part := rfl
@[simp] theorem State.wrBytes_devId (s : State) (a : Nat) (bs : List Byte) : (s.wrBytes a bs).devId = s.devId := rfl
@[simp] theorem State.wrBytes_regs (s : State) (a : Nat) (bs : List Byte) : (s.wrBytes a bs).regs = s.regs := rfl
@[simp] theorem State.wrBytes_inForce (s : State) (a : Nat) (bs : List Byte) : (s.wrBytes a bs).inForce = s.inForce := rfl
@[simp] theorem State.wrBytes_cores (s : State) (a : Nat) (bs : List Byte) : (s.wrBytes a bs).cores = s.cores := rfl
@[simp] theorem State.wrBytes_queues (s : State) (a : Nat) (bs : List Byte) : (s.wrBytes a bs).queues = s.queues := rfl
@[simp] theorem State.wrBytes_wire (s : State) (a : Nat) (bs : List Byte) : (s.wrBytes a bs).wire = s.wire := rfl
@[simp] theorem State.wrBytes_flt (s : State) (a : Nat) (bs : List Byte) : (s.wrBytes a bs).flt = s.flt := rfl
@[simp] theorem State.wrBytes_tb (s : State) (a : Nat) (bs : List Byte) : (s.wrBytes a bs).tb = s.tb := rfl
@[simp] theorem State.wrBytes_topo (s : State) (a : Nat) (bs : List Byte) : (s.wrBytes a bs).topo = s.topo := rfl
@[simp] theorem State.wrBytes_route (s : State) (a : Nat) (bs : List Byte) : (s.wrBytes a bs).route = s.route := rfl
@[simp] theorem State.wrBytes_bv (s : State) (a : Nat) (bs : List Byte) : (s.wrBytes a bs).bv = s.bv := rfl
@[simp] theorem State.wrBytes_nz (s : State) (a : Nat) (bs : List Byte) : (s.wrBytes a bs).nz = s.nz := rfl
@[simp] theorem State.wrBytes_boot (s : State) (a : Nat) (bs : List Byte) : (s.wrBytes a bs).boot = s.boot := rfl
@[simp] theorem State.wrBytes_sec (s : State) (a : Nat) (bs : List Byte) : (s.wrBytes a bs).sec = s.sec := rfl
@[simp] theorem State.wrBytes_pair (s : State) (a : Nat) (bs : List Byte) : (s.wrBytes a bs).pair = s.pair := rfl
@[simp] theorem State.wrBytes_pwr (s : State) (a : Nat) (bs : List Byte) : (s.wrBytes a bs).pwr = s.pwr := rfl
@[simp] theorem State.wrBytes_memc (s : State) (a : Nat) (bs : List Byte) : (s.wrBytes a bs).memc = s.memc := rfl
@[simp] theorem State.wrBytes_mons (s : State) (a : Nat) (bs : List Byte) : (s.wrBytes a bs).mons = s.mons := rfl
@[simp] theorem State.wrBytes_govq (s : State) (a : Nat) (bs : List Byte) : (s.wrBytes a bs).govq = s.govq := rfl
@[simp] theorem State.wrBytes_free (s : State) (a : Nat) (bs : List Byte) : (s.wrBytes a bs).free = s.free := rfl

@[simp] theorem State.tick_pending (s : State) : (s.tick).pending = s.pending := rfl
@[simp] theorem State.tick_part (s : State) : (s.tick).part = s.part := rfl
@[simp] theorem State.tick_devId (s : State) : (s.tick).devId = s.devId := rfl
@[simp] theorem State.tick_regs (s : State) : (s.tick).regs = s.regs := rfl
@[simp] theorem State.tick_inForce (s : State) : (s.tick).inForce = s.inForce := rfl
@[simp] theorem State.tick_mem (s : State) : (s.tick).mem = s.mem := rfl
@[simp] theorem State.tick_ecc (s : State) : (s.tick).ecc = s.ecc := rfl
@[simp] theorem State.tick_cores (s : State) : (s.tick).cores = s.cores := rfl
@[simp] theorem State.tick_queues (s : State) : (s.tick).queues = s.queues := rfl
@[simp] theorem State.tick_wire (s : State) : (s.tick).wire = s.wire := rfl
@[simp] theorem State.tick_flt (s : State) : (s.tick).flt = s.flt := rfl
@[simp] theorem State.tick_tb (s : State) : (s.tick).tb = s.tb := rfl
@[simp] theorem State.tick_topo (s : State) : (s.tick).topo = s.topo := rfl
@[simp] theorem State.tick_route (s : State) : (s.tick).route = s.route := rfl
@[simp] theorem State.tick_bv (s : State) : (s.tick).bv = s.bv := rfl
@[simp] theorem State.tick_nz (s : State) : (s.tick).nz = s.nz := rfl
@[simp] theorem State.tick_boot (s : State) : (s.tick).boot = s.boot := rfl
@[simp] theorem State.tick_sec (s : State) : (s.tick).sec = s.sec := rfl
@[simp] theorem State.tick_pair (s : State) : (s.tick).pair = s.pair := rfl
@[simp] theorem State.tick_pwr (s : State) : (s.tick).pwr = s.pwr := rfl
@[simp] theorem State.tick_memc (s : State) : (s.tick).memc = s.memc := rfl
@[simp] theorem State.tick_mons (s : State) : (s.tick).mons = s.mons := rfl
@[simp] theorem State.tick_govq (s : State) : (s.tick).govq = s.govq := rfl

/-! ### The updates made of them -/

@[simp] theorem State.setRf_pending (s : State) (a lo len v : Nat) : (s.setRf a lo len v).pending = s.pending := rfl
@[simp] theorem State.setRf_devId (s : State) (a lo len v : Nat) : (s.setRf a lo len v).devId = s.devId := rfl
@[simp] theorem State.setRf_mem (s : State) (a lo len v : Nat) : (s.setRf a lo len v).mem = s.mem := rfl
@[simp] theorem State.setRf_ecc (s : State) (a lo len v : Nat) : (s.setRf a lo len v).ecc = s.ecc := rfl
@[simp] theorem State.setRf_queues (s : State) (a lo len v : Nat) : (s.setRf a lo len v).queues = s.queues := rfl
@[simp] theorem State.setRf_flt (s : State) (a lo len v : Nat) : (s.setRf a lo len v).flt = s.flt := rfl
@[simp] theorem State.setRf_tb (s : State) (a lo len v : Nat) : (s.setRf a lo len v).tb = s.tb := rfl
@[simp] theorem State.setRf_pwr (s : State) (a lo len v : Nat) : (s.setRf a lo len v).pwr = s.pwr := rfl
@[simp] theorem State.setRf_boot (s : State) (a lo len v : Nat) : (s.setRf a lo len v).boot = s.boot := rfl
@[simp] theorem State.setRf_pair (s : State) (a lo len v : Nat) : (s.setRf a lo len v).pair = s.pair := rfl
@[simp] theorem State.setRf_memc (s : State) (a lo len v : Nat) : (s.setRf a lo len v).memc = s.memc := rfl
@[simp] theorem State.setRf_free (s : State) (a lo len v : Nat) : (s.setRf a lo len v).free = s.free := rfl
@[simp] theorem State.setRf_cores (s : State) (a lo len v : Nat) : (s.setRf a lo len v).cores = s.cores := rfl

@[simp] theorem State.onCore_pending (s : State) (c : Core) (f : CoreSt → CoreSt) : (s.onCore c f).pending = s.pending := rfl
@[simp] theorem State.onCore_devId (s : State) (c : Core) (f : CoreSt → CoreSt) : (s.onCore c f).devId = s.devId := rfl
@[simp] theorem State.onCore_mem (s : State) (c : Core) (f : CoreSt → CoreSt) : (s.onCore c f).mem = s.mem := rfl
@[simp] theorem State.onCore_ecc (s : State) (c : Core) (f : CoreSt → CoreSt) : (s.onCore c f).ecc = s.ecc := rfl
@[simp] theorem State.onCore_queues (s : State) (c : Core) (f : CoreSt → CoreSt) : (s.onCore c f).queues = s.queues := rfl
@[simp] theorem State.onCore_flt (s : State) (c : Core) (f : CoreSt → CoreSt) : (s.onCore c f).flt = s.flt := rfl
@[simp] theorem State.onCore_tb (s : State) (c : Core) (f : CoreSt → CoreSt) : (s.onCore c f).tb = s.tb := rfl
@[simp] theorem State.onCore_pwr (s : State) (c : Core) (f : CoreSt → CoreSt) : (s.onCore c f).pwr = s.pwr := rfl
@[simp] theorem State.onCore_boot (s : State) (c : Core) (f : CoreSt → CoreSt) : (s.onCore c f).boot = s.boot := rfl
@[simp] theorem State.onCore_pair (s : State) (c : Core) (f : CoreSt → CoreSt) : (s.onCore c f).pair = s.pair := rfl
@[simp] theorem State.onCore_memc (s : State) (c : Core) (f : CoreSt → CoreSt) : (s.onCore c f).memc = s.memc := rfl
@[simp] theorem State.onCore_free (s : State) (c : Core) (f : CoreSt → CoreSt) : (s.onCore c f).free = s.free := rfl
@[simp] theorem State.onCore_regs (s : State) (c : Core) (f : CoreSt → CoreSt) : (s.onCore c f).regs = s.regs := rfl

@[simp] theorem State.onSeq_pending (s : State) (c : Core) (f : SeqSt → SeqSt) : (s.onSeq c f).pending = s.pending := rfl
@[simp] theorem State.onSeq_devId (s : State) (c : Core) (f : SeqSt → SeqSt) : (s.onSeq c f).devId = s.devId := rfl
@[simp] theorem State.onSeq_mem (s : State) (c : Core) (f : SeqSt → SeqSt) : (s.onSeq c f).mem = s.mem := rfl
@[simp] theorem State.onSeq_ecc (s : State) (c : Core) (f : SeqSt → SeqSt) : (s.onSeq c f).ecc = s.ecc := rfl
@[simp] theorem State.onSeq_queues (s : State) (c : Core) (f : SeqSt → SeqSt) : (s.onSeq c f).queues = s.queues := rfl
@[simp] theorem State.onSeq_flt (s : State) (c : Core) (f : SeqSt → SeqSt) : (s.onSeq c f).flt = s.flt := rfl
@[simp] theorem State.onSeq_tb (s : State) (c : Core) (f : SeqSt → SeqSt) : (s.onSeq c f).tb = s.tb := rfl
@[simp] theorem State.onSeq_pwr (s : State) (c : Core) (f : SeqSt → SeqSt) : (s.onSeq c f).pwr = s.pwr := rfl
@[simp] theorem State.onSeq_boot (s : State) (c : Core) (f : SeqSt → SeqSt) : (s.onSeq c f).boot = s.boot := rfl
@[simp] theorem State.onSeq_pair (s : State) (c : Core) (f : SeqSt → SeqSt) : (s.onSeq c f).pair = s.pair := rfl
@[simp] theorem State.onSeq_memc (s : State) (c : Core) (f : SeqSt → SeqSt) : (s.onSeq c f).memc = s.memc := rfl
@[simp] theorem State.onSeq_free (s : State) (c : Core) (f : SeqSt → SeqSt) : (s.onSeq c f).free = s.free := rfl
@[simp] theorem State.onSeq_regs (s : State) (c : Core) (f : SeqSt → SeqSt) : (s.onSeq c f).regs = s.regs := rfl

@[simp] theorem State.setFlag_pending (s : State) (c : Core) (i : Nat) (b : Bool) : (s.setFlag c i b).pending = s.pending := rfl
@[simp] theorem State.setFlag_devId (s : State) (c : Core) (i : Nat) (b : Bool) : (s.setFlag c i b).devId = s.devId := rfl
@[simp] theorem State.setFlag_mem (s : State) (c : Core) (i : Nat) (b : Bool) : (s.setFlag c i b).mem = s.mem := rfl
@[simp] theorem State.setFlag_ecc (s : State) (c : Core) (i : Nat) (b : Bool) : (s.setFlag c i b).ecc = s.ecc := rfl
@[simp] theorem State.setFlag_queues (s : State) (c : Core) (i : Nat) (b : Bool) : (s.setFlag c i b).queues = s.queues := rfl
@[simp] theorem State.setFlag_flt (s : State) (c : Core) (i : Nat) (b : Bool) : (s.setFlag c i b).flt = s.flt := rfl
@[simp] theorem State.setFlag_tb (s : State) (c : Core) (i : Nat) (b : Bool) : (s.setFlag c i b).tb = s.tb := rfl
@[simp] theorem State.setFlag_pwr (s : State) (c : Core) (i : Nat) (b : Bool) : (s.setFlag c i b).pwr = s.pwr := rfl
@[simp] theorem State.setFlag_boot (s : State) (c : Core) (i : Nat) (b : Bool) : (s.setFlag c i b).boot = s.boot := rfl
@[simp] theorem State.setFlag_pair (s : State) (c : Core) (i : Nat) (b : Bool) : (s.setFlag c i b).pair = s.pair := rfl
@[simp] theorem State.setFlag_memc (s : State) (c : Core) (i : Nat) (b : Bool) : (s.setFlag c i b).memc = s.memc := rfl
@[simp] theorem State.setFlag_free (s : State) (c : Core) (i : Nat) (b : Bool) : (s.setFlag c i b).free = s.free := rfl
@[simp] theorem State.setFlag_regs (s : State) (c : Core) (i : Nat) (b : Bool) : (s.setFlag c i b).regs = s.regs := rfl

@[simp] theorem State.setArr_pending (s : State) (c : Core) (a : Arr) (x : ArrSt) : (s.setArr c a x).pending = s.pending := rfl
@[simp] theorem State.setArr_devId (s : State) (c : Core) (a : Arr) (x : ArrSt) : (s.setArr c a x).devId = s.devId := rfl
@[simp] theorem State.setArr_mem (s : State) (c : Core) (a : Arr) (x : ArrSt) : (s.setArr c a x).mem = s.mem := rfl
@[simp] theorem State.setArr_ecc (s : State) (c : Core) (a : Arr) (x : ArrSt) : (s.setArr c a x).ecc = s.ecc := rfl
@[simp] theorem State.setArr_queues (s : State) (c : Core) (a : Arr) (x : ArrSt) : (s.setArr c a x).queues = s.queues := rfl
@[simp] theorem State.setArr_flt (s : State) (c : Core) (a : Arr) (x : ArrSt) : (s.setArr c a x).flt = s.flt := rfl
@[simp] theorem State.setArr_tb (s : State) (c : Core) (a : Arr) (x : ArrSt) : (s.setArr c a x).tb = s.tb := rfl
@[simp] theorem State.setArr_pwr (s : State) (c : Core) (a : Arr) (x : ArrSt) : (s.setArr c a x).pwr = s.pwr := rfl
@[simp] theorem State.setArr_boot (s : State) (c : Core) (a : Arr) (x : ArrSt) : (s.setArr c a x).boot = s.boot := rfl
@[simp] theorem State.setArr_pair (s : State) (c : Core) (a : Arr) (x : ArrSt) : (s.setArr c a x).pair = s.pair := rfl
@[simp] theorem State.setArr_memc (s : State) (c : Core) (a : Arr) (x : ArrSt) : (s.setArr c a x).memc = s.memc := rfl
@[simp] theorem State.setArr_free (s : State) (c : Core) (a : Arr) (x : ArrSt) : (s.setArr c a x).free = s.free := rfl
@[simp] theorem State.setArr_regs (s : State) (c : Core) (a : Arr) (x : ArrSt) : (s.setArr c a x).regs = s.regs := rfl

@[simp] theorem State.setEng_pending (s : State) (c : Core) (e : Eng) (x : EngSt) : (s.setEng c e x).pending = s.pending := rfl
@[simp] theorem State.setEng_devId (s : State) (c : Core) (e : Eng) (x : EngSt) : (s.setEng c e x).devId = s.devId := rfl
@[simp] theorem State.setEng_mem (s : State) (c : Core) (e : Eng) (x : EngSt) : (s.setEng c e x).mem = s.mem := rfl
@[simp] theorem State.setEng_ecc (s : State) (c : Core) (e : Eng) (x : EngSt) : (s.setEng c e x).ecc = s.ecc := rfl
@[simp] theorem State.setEng_queues (s : State) (c : Core) (e : Eng) (x : EngSt) : (s.setEng c e x).queues = s.queues := rfl
@[simp] theorem State.setEng_flt (s : State) (c : Core) (e : Eng) (x : EngSt) : (s.setEng c e x).flt = s.flt := rfl
@[simp] theorem State.setEng_tb (s : State) (c : Core) (e : Eng) (x : EngSt) : (s.setEng c e x).tb = s.tb := rfl
@[simp] theorem State.setEng_pwr (s : State) (c : Core) (e : Eng) (x : EngSt) : (s.setEng c e x).pwr = s.pwr := rfl
@[simp] theorem State.setEng_boot (s : State) (c : Core) (e : Eng) (x : EngSt) : (s.setEng c e x).boot = s.boot := rfl
@[simp] theorem State.setEng_pair (s : State) (c : Core) (e : Eng) (x : EngSt) : (s.setEng c e x).pair = s.pair := rfl
@[simp] theorem State.setEng_memc (s : State) (c : Core) (e : Eng) (x : EngSt) : (s.setEng c e x).memc = s.memc := rfl
@[simp] theorem State.setEng_free (s : State) (c : Core) (e : Eng) (x : EngSt) : (s.setEng c e x).free = s.free := rfl
@[simp] theorem State.setEng_regs (s : State) (c : Core) (e : Eng) (x : EngSt) : (s.setEng c e x).regs = s.regs := rfl

@[simp] theorem State.setSieve_pending (s : State) (c : Core) (x : SieveSt) : (s.setSieve c x).pending = s.pending := rfl
@[simp] theorem State.setSieve_devId (s : State) (c : Core) (x : SieveSt) : (s.setSieve c x).devId = s.devId := rfl
@[simp] theorem State.setSieve_mem (s : State) (c : Core) (x : SieveSt) : (s.setSieve c x).mem = s.mem := rfl
@[simp] theorem State.setSieve_ecc (s : State) (c : Core) (x : SieveSt) : (s.setSieve c x).ecc = s.ecc := rfl
@[simp] theorem State.setSieve_queues (s : State) (c : Core) (x : SieveSt) : (s.setSieve c x).queues = s.queues := rfl
@[simp] theorem State.setSieve_flt (s : State) (c : Core) (x : SieveSt) : (s.setSieve c x).flt = s.flt := rfl
@[simp] theorem State.setSieve_tb (s : State) (c : Core) (x : SieveSt) : (s.setSieve c x).tb = s.tb := rfl
@[simp] theorem State.setSieve_pwr (s : State) (c : Core) (x : SieveSt) : (s.setSieve c x).pwr = s.pwr := rfl
@[simp] theorem State.setSieve_boot (s : State) (c : Core) (x : SieveSt) : (s.setSieve c x).boot = s.boot := rfl
@[simp] theorem State.setSieve_pair (s : State) (c : Core) (x : SieveSt) : (s.setSieve c x).pair = s.pair := rfl
@[simp] theorem State.setSieve_memc (s : State) (c : Core) (x : SieveSt) : (s.setSieve c x).memc = s.memc := rfl
@[simp] theorem State.setSieve_free (s : State) (c : Core) (x : SieveSt) : (s.setSieve c x).free = s.free := rfl
@[simp] theorem State.setSieve_regs (s : State) (c : Core) (x : SieveSt) : (s.setSieve c x).regs = s.regs := rfl

@[simp] theorem State.setVec_pending (s : State) (c : Core) (x : VecSt) : (s.setVec c x).pending = s.pending := rfl
@[simp] theorem State.setVec_devId (s : State) (c : Core) (x : VecSt) : (s.setVec c x).devId = s.devId := rfl
@[simp] theorem State.setVec_mem (s : State) (c : Core) (x : VecSt) : (s.setVec c x).mem = s.mem := rfl
@[simp] theorem State.setVec_ecc (s : State) (c : Core) (x : VecSt) : (s.setVec c x).ecc = s.ecc := rfl
@[simp] theorem State.setVec_queues (s : State) (c : Core) (x : VecSt) : (s.setVec c x).queues = s.queues := rfl
@[simp] theorem State.setVec_flt (s : State) (c : Core) (x : VecSt) : (s.setVec c x).flt = s.flt := rfl
@[simp] theorem State.setVec_tb (s : State) (c : Core) (x : VecSt) : (s.setVec c x).tb = s.tb := rfl
@[simp] theorem State.setVec_pwr (s : State) (c : Core) (x : VecSt) : (s.setVec c x).pwr = s.pwr := rfl
@[simp] theorem State.setVec_boot (s : State) (c : Core) (x : VecSt) : (s.setVec c x).boot = s.boot := rfl
@[simp] theorem State.setVec_pair (s : State) (c : Core) (x : VecSt) : (s.setVec c x).pair = s.pair := rfl
@[simp] theorem State.setVec_memc (s : State) (c : Core) (x : VecSt) : (s.setVec c x).memc = s.memc := rfl
@[simp] theorem State.setVec_free (s : State) (c : Core) (x : VecSt) : (s.setVec c x).free = s.free := rfl
@[simp] theorem State.setVec_regs (s : State) (c : Core) (x : VecSt) : (s.setVec c x).regs = s.regs := rfl

@[simp] theorem State.setBelay_pending (s : State) (c : Core) (n : Fin 8) (x : BelayCtx) : (s.setBelay c n x).pending = s.pending := rfl
@[simp] theorem State.setBelay_devId (s : State) (c : Core) (n : Fin 8) (x : BelayCtx) : (s.setBelay c n x).devId = s.devId := rfl
@[simp] theorem State.setBelay_mem (s : State) (c : Core) (n : Fin 8) (x : BelayCtx) : (s.setBelay c n x).mem = s.mem := rfl
@[simp] theorem State.setBelay_ecc (s : State) (c : Core) (n : Fin 8) (x : BelayCtx) : (s.setBelay c n x).ecc = s.ecc := rfl
@[simp] theorem State.setBelay_queues (s : State) (c : Core) (n : Fin 8) (x : BelayCtx) : (s.setBelay c n x).queues = s.queues := rfl
@[simp] theorem State.setBelay_flt (s : State) (c : Core) (n : Fin 8) (x : BelayCtx) : (s.setBelay c n x).flt = s.flt := rfl
@[simp] theorem State.setBelay_tb (s : State) (c : Core) (n : Fin 8) (x : BelayCtx) : (s.setBelay c n x).tb = s.tb := rfl
@[simp] theorem State.setBelay_pwr (s : State) (c : Core) (n : Fin 8) (x : BelayCtx) : (s.setBelay c n x).pwr = s.pwr := rfl
@[simp] theorem State.setBelay_boot (s : State) (c : Core) (n : Fin 8) (x : BelayCtx) : (s.setBelay c n x).boot = s.boot := rfl
@[simp] theorem State.setBelay_pair (s : State) (c : Core) (n : Fin 8) (x : BelayCtx) : (s.setBelay c n x).pair = s.pair := rfl
@[simp] theorem State.setBelay_memc (s : State) (c : Core) (n : Fin 8) (x : BelayCtx) : (s.setBelay c n x).memc = s.memc := rfl
@[simp] theorem State.setBelay_free (s : State) (c : Core) (n : Fin 8) (x : BelayCtx) : (s.setBelay c n x).free = s.free := rfl
@[simp] theorem State.setBelay_regs (s : State) (c : Core) (n : Fin 8) (x : BelayCtx) : (s.setBelay c n x).regs = s.regs := rfl

@[simp] theorem State.setFg_pending (s : State) (c : Core) (g : Ctx) (x : FgCtx) : (s.setFg c g x).pending = s.pending := rfl
@[simp] theorem State.setFg_devId (s : State) (c : Core) (g : Ctx) (x : FgCtx) : (s.setFg c g x).devId = s.devId := rfl
@[simp] theorem State.setFg_mem (s : State) (c : Core) (g : Ctx) (x : FgCtx) : (s.setFg c g x).mem = s.mem := rfl
@[simp] theorem State.setFg_ecc (s : State) (c : Core) (g : Ctx) (x : FgCtx) : (s.setFg c g x).ecc = s.ecc := rfl
@[simp] theorem State.setFg_queues (s : State) (c : Core) (g : Ctx) (x : FgCtx) : (s.setFg c g x).queues = s.queues := rfl
@[simp] theorem State.setFg_flt (s : State) (c : Core) (g : Ctx) (x : FgCtx) : (s.setFg c g x).flt = s.flt := rfl
@[simp] theorem State.setFg_tb (s : State) (c : Core) (g : Ctx) (x : FgCtx) : (s.setFg c g x).tb = s.tb := rfl
@[simp] theorem State.setFg_pwr (s : State) (c : Core) (g : Ctx) (x : FgCtx) : (s.setFg c g x).pwr = s.pwr := rfl
@[simp] theorem State.setFg_boot (s : State) (c : Core) (g : Ctx) (x : FgCtx) : (s.setFg c g x).boot = s.boot := rfl
@[simp] theorem State.setFg_pair (s : State) (c : Core) (g : Ctx) (x : FgCtx) : (s.setFg c g x).pair = s.pair := rfl
@[simp] theorem State.setFg_memc (s : State) (c : Core) (g : Ctx) (x : FgCtx) : (s.setFg c g x).memc = s.memc := rfl
@[simp] theorem State.setFg_free (s : State) (c : Core) (g : Ctx) (x : FgCtx) : (s.setFg c g x).free = s.free := rfl
@[simp] theorem State.setFg_regs (s : State) (c : Core) (g : Ctx) (x : FgCtx) : (s.setFg c g x).regs = s.regs := rfl

/-! ### Counters write registers only -/

/-- Everything but the registers. -/
theorem State.bump_eq (s : State) (a : Nat) (hi : Bool) (n : Nat) : ∃ r, s.bump a hi n = { s with regs := r } := by
  unfold State.bump
  split
  · exact ⟨s.regs, rfl⟩
  · exact ⟨_, rfl⟩

@[simp] theorem State.bump_pending (s : State) (a : Nat) (hi : Bool) (n : Nat) : (s.bump a hi n).pending = s.pending := by
  obtain ⟨r, h⟩ := s.bump_eq a hi n; rw [h]
@[simp] theorem State.bump_part (s : State) (a : Nat) (hi : Bool) (n : Nat) : (s.bump a hi n).part = s.part := by
  obtain ⟨r, h⟩ := s.bump_eq a hi n; rw [h]
@[simp] theorem State.bump_devId (s : State) (a : Nat) (hi : Bool) (n : Nat) : (s.bump a hi n).devId = s.devId := by
  obtain ⟨r, h⟩ := s.bump_eq a hi n; rw [h]
@[simp] theorem State.bump_inForce (s : State) (a : Nat) (hi : Bool) (n : Nat) : (s.bump a hi n).inForce = s.inForce := by
  obtain ⟨r, h⟩ := s.bump_eq a hi n; rw [h]
@[simp] theorem State.bump_mem (s : State) (a : Nat) (hi : Bool) (n : Nat) : (s.bump a hi n).mem = s.mem := by
  obtain ⟨r, h⟩ := s.bump_eq a hi n; rw [h]
@[simp] theorem State.bump_ecc (s : State) (a : Nat) (hi : Bool) (n : Nat) : (s.bump a hi n).ecc = s.ecc := by
  obtain ⟨r, h⟩ := s.bump_eq a hi n; rw [h]
@[simp] theorem State.bump_cores (s : State) (a : Nat) (hi : Bool) (n : Nat) : (s.bump a hi n).cores = s.cores := by
  obtain ⟨r, h⟩ := s.bump_eq a hi n; rw [h]
@[simp] theorem State.bump_queues (s : State) (a : Nat) (hi : Bool) (n : Nat) : (s.bump a hi n).queues = s.queues := by
  obtain ⟨r, h⟩ := s.bump_eq a hi n; rw [h]
@[simp] theorem State.bump_wire (s : State) (a : Nat) (hi : Bool) (n : Nat) : (s.bump a hi n).wire = s.wire := by
  obtain ⟨r, h⟩ := s.bump_eq a hi n; rw [h]
@[simp] theorem State.bump_flt (s : State) (a : Nat) (hi : Bool) (n : Nat) : (s.bump a hi n).flt = s.flt := by
  obtain ⟨r, h⟩ := s.bump_eq a hi n; rw [h]
@[simp] theorem State.bump_tb (s : State) (a : Nat) (hi : Bool) (n : Nat) : (s.bump a hi n).tb = s.tb := by
  obtain ⟨r, h⟩ := s.bump_eq a hi n; rw [h]
@[simp] theorem State.bump_topo (s : State) (a : Nat) (hi : Bool) (n : Nat) : (s.bump a hi n).topo = s.topo := by
  obtain ⟨r, h⟩ := s.bump_eq a hi n; rw [h]
@[simp] theorem State.bump_route (s : State) (a : Nat) (hi : Bool) (n : Nat) : (s.bump a hi n).route = s.route := by
  obtain ⟨r, h⟩ := s.bump_eq a hi n; rw [h]
@[simp] theorem State.bump_bv (s : State) (a : Nat) (hi : Bool) (n : Nat) : (s.bump a hi n).bv = s.bv := by
  obtain ⟨r, h⟩ := s.bump_eq a hi n; rw [h]
@[simp] theorem State.bump_nz (s : State) (a : Nat) (hi : Bool) (n : Nat) : (s.bump a hi n).nz = s.nz := by
  obtain ⟨r, h⟩ := s.bump_eq a hi n; rw [h]
@[simp] theorem State.bump_boot (s : State) (a : Nat) (hi : Bool) (n : Nat) : (s.bump a hi n).boot = s.boot := by
  obtain ⟨r, h⟩ := s.bump_eq a hi n; rw [h]
@[simp] theorem State.bump_sec (s : State) (a : Nat) (hi : Bool) (n : Nat) : (s.bump a hi n).sec = s.sec := by
  obtain ⟨r, h⟩ := s.bump_eq a hi n; rw [h]
@[simp] theorem State.bump_pair (s : State) (a : Nat) (hi : Bool) (n : Nat) : (s.bump a hi n).pair = s.pair := by
  obtain ⟨r, h⟩ := s.bump_eq a hi n; rw [h]
@[simp] theorem State.bump_pwr (s : State) (a : Nat) (hi : Bool) (n : Nat) : (s.bump a hi n).pwr = s.pwr := by
  obtain ⟨r, h⟩ := s.bump_eq a hi n; rw [h]
@[simp] theorem State.bump_memc (s : State) (a : Nat) (hi : Bool) (n : Nat) : (s.bump a hi n).memc = s.memc := by
  obtain ⟨r, h⟩ := s.bump_eq a hi n; rw [h]
@[simp] theorem State.bump_mons (s : State) (a : Nat) (hi : Bool) (n : Nat) : (s.bump a hi n).mons = s.mons := by
  obtain ⟨r, h⟩ := s.bump_eq a hi n; rw [h]
@[simp] theorem State.bump_govq (s : State) (a : Nat) (hi : Bool) (n : Nat) : (s.bump a hi n).govq = s.govq := by
  obtain ⟨r, h⟩ := s.bump_eq a hi n; rw [h]
@[simp] theorem State.bump_free (s : State) (a : Nat) (hi : Bool) (n : Nat) : (s.bump a hi n).free = s.free := by
  obtain ⟨r, h⟩ := s.bump_eq a hi n; rw [h]
@[simp] theorem State.bumpLo_pending (s : State) (a n : Nat) : (s.bumpLo a n).pending = s.pending := s.bump_pending a _ n
@[simp] theorem State.bumpLo_part (s : State) (a n : Nat) : (s.bumpLo a n).part = s.part := s.bump_part a _ n
@[simp] theorem State.bumpLo_devId (s : State) (a n : Nat) : (s.bumpLo a n).devId = s.devId := s.bump_devId a _ n
@[simp] theorem State.bumpLo_inForce (s : State) (a n : Nat) : (s.bumpLo a n).inForce = s.inForce := s.bump_inForce a _ n
@[simp] theorem State.bumpLo_mem (s : State) (a n : Nat) : (s.bumpLo a n).mem = s.mem := s.bump_mem a _ n
@[simp] theorem State.bumpLo_ecc (s : State) (a n : Nat) : (s.bumpLo a n).ecc = s.ecc := s.bump_ecc a _ n
@[simp] theorem State.bumpLo_cores (s : State) (a n : Nat) : (s.bumpLo a n).cores = s.cores := s.bump_cores a _ n
@[simp] theorem State.bumpLo_queues (s : State) (a n : Nat) : (s.bumpLo a n).queues = s.queues := s.bump_queues a _ n
@[simp] theorem State.bumpLo_wire (s : State) (a n : Nat) : (s.bumpLo a n).wire = s.wire := s.bump_wire a _ n
@[simp] theorem State.bumpLo_flt (s : State) (a n : Nat) : (s.bumpLo a n).flt = s.flt := s.bump_flt a _ n
@[simp] theorem State.bumpLo_tb (s : State) (a n : Nat) : (s.bumpLo a n).tb = s.tb := s.bump_tb a _ n
@[simp] theorem State.bumpLo_topo (s : State) (a n : Nat) : (s.bumpLo a n).topo = s.topo := s.bump_topo a _ n
@[simp] theorem State.bumpLo_route (s : State) (a n : Nat) : (s.bumpLo a n).route = s.route := s.bump_route a _ n
@[simp] theorem State.bumpLo_bv (s : State) (a n : Nat) : (s.bumpLo a n).bv = s.bv := s.bump_bv a _ n
@[simp] theorem State.bumpLo_nz (s : State) (a n : Nat) : (s.bumpLo a n).nz = s.nz := s.bump_nz a _ n
@[simp] theorem State.bumpLo_boot (s : State) (a n : Nat) : (s.bumpLo a n).boot = s.boot := s.bump_boot a _ n
@[simp] theorem State.bumpLo_sec (s : State) (a n : Nat) : (s.bumpLo a n).sec = s.sec := s.bump_sec a _ n
@[simp] theorem State.bumpLo_pair (s : State) (a n : Nat) : (s.bumpLo a n).pair = s.pair := s.bump_pair a _ n
@[simp] theorem State.bumpLo_pwr (s : State) (a n : Nat) : (s.bumpLo a n).pwr = s.pwr := s.bump_pwr a _ n
@[simp] theorem State.bumpLo_memc (s : State) (a n : Nat) : (s.bumpLo a n).memc = s.memc := s.bump_memc a _ n
@[simp] theorem State.bumpLo_mons (s : State) (a n : Nat) : (s.bumpLo a n).mons = s.mons := s.bump_mons a _ n
@[simp] theorem State.bumpLo_govq (s : State) (a n : Nat) : (s.bumpLo a n).govq = s.govq := s.bump_govq a _ n
@[simp] theorem State.bumpLo_free (s : State) (a n : Nat) : (s.bumpLo a n).free = s.free := s.bump_free a _ n
@[simp] theorem State.bumpHi_pending (s : State) (a n : Nat) : (s.bumpHi a n).pending = s.pending := s.bump_pending a _ n
@[simp] theorem State.bumpHi_part (s : State) (a n : Nat) : (s.bumpHi a n).part = s.part := s.bump_part a _ n
@[simp] theorem State.bumpHi_devId (s : State) (a n : Nat) : (s.bumpHi a n).devId = s.devId := s.bump_devId a _ n
@[simp] theorem State.bumpHi_inForce (s : State) (a n : Nat) : (s.bumpHi a n).inForce = s.inForce := s.bump_inForce a _ n
@[simp] theorem State.bumpHi_mem (s : State) (a n : Nat) : (s.bumpHi a n).mem = s.mem := s.bump_mem a _ n
@[simp] theorem State.bumpHi_ecc (s : State) (a n : Nat) : (s.bumpHi a n).ecc = s.ecc := s.bump_ecc a _ n
@[simp] theorem State.bumpHi_cores (s : State) (a n : Nat) : (s.bumpHi a n).cores = s.cores := s.bump_cores a _ n
@[simp] theorem State.bumpHi_queues (s : State) (a n : Nat) : (s.bumpHi a n).queues = s.queues := s.bump_queues a _ n
@[simp] theorem State.bumpHi_wire (s : State) (a n : Nat) : (s.bumpHi a n).wire = s.wire := s.bump_wire a _ n
@[simp] theorem State.bumpHi_flt (s : State) (a n : Nat) : (s.bumpHi a n).flt = s.flt := s.bump_flt a _ n
@[simp] theorem State.bumpHi_tb (s : State) (a n : Nat) : (s.bumpHi a n).tb = s.tb := s.bump_tb a _ n
@[simp] theorem State.bumpHi_topo (s : State) (a n : Nat) : (s.bumpHi a n).topo = s.topo := s.bump_topo a _ n
@[simp] theorem State.bumpHi_route (s : State) (a n : Nat) : (s.bumpHi a n).route = s.route := s.bump_route a _ n
@[simp] theorem State.bumpHi_bv (s : State) (a n : Nat) : (s.bumpHi a n).bv = s.bv := s.bump_bv a _ n
@[simp] theorem State.bumpHi_nz (s : State) (a n : Nat) : (s.bumpHi a n).nz = s.nz := s.bump_nz a _ n
@[simp] theorem State.bumpHi_boot (s : State) (a n : Nat) : (s.bumpHi a n).boot = s.boot := s.bump_boot a _ n
@[simp] theorem State.bumpHi_sec (s : State) (a n : Nat) : (s.bumpHi a n).sec = s.sec := s.bump_sec a _ n
@[simp] theorem State.bumpHi_pair (s : State) (a n : Nat) : (s.bumpHi a n).pair = s.pair := s.bump_pair a _ n
@[simp] theorem State.bumpHi_pwr (s : State) (a n : Nat) : (s.bumpHi a n).pwr = s.pwr := s.bump_pwr a _ n
@[simp] theorem State.bumpHi_memc (s : State) (a n : Nat) : (s.bumpHi a n).memc = s.memc := s.bump_memc a _ n
@[simp] theorem State.bumpHi_mons (s : State) (a n : Nat) : (s.bumpHi a n).mons = s.mons := s.bump_mons a _ n
@[simp] theorem State.bumpHi_govq (s : State) (a n : Nat) : (s.bumpHi a n).govq = s.govq := s.bump_govq a _ n
@[simp] theorem State.bumpHi_free (s : State) (a n : Nat) : (s.bumpHi a n).free = s.free := s.bump_free a _ n

/-! ### Cores -/

/-- The core just stored. -/
@[simp] theorem State.setCore_core (s : State) (c : Core) (k : CoreSt) : (s.setCore c k).core c = k := by
  show (s.cores.set c.val k c.isLt)[c.val] = k
  exact Vector.getElem_set_self ..

/-- Every other core. -/
theorem State.setCore_core_other (s : State) {c d : Core} (k : CoreSt) (h : d ≠ c) : (s.setCore c k).core d = s.core d := by
  show (s.cores.set c.val k c.isLt)[d.val] = s.cores[d.val]
  exact Vector.getElem_set_ne _ _ (fun e => h (Fin.ext e.symm))

@[simp] theorem State.onCore_core (s : State) (c : Core) (f : CoreSt → CoreSt) : (s.onCore c f).core c = f (s.core c) :=
  State.setCore_core ..

theorem State.onCore_core_other (s : State) {c d : Core} (f : CoreSt → CoreSt) (h : d ≠ c) : (s.onCore c f).core d = s.core d :=
  State.setCore_core_other s _ h

@[simp] theorem State.onSeq_core (s : State) (c : Core) (f : SeqSt → SeqSt) :
    (s.onSeq c f).core c = { s.core c with seq := f (s.core c).seq } := State.setCore_core ..

theorem State.onSeq_core_other (s : State) {c d : Core} (f : SeqSt → SeqSt) (h : d ≠ c) : (s.onSeq c f).core d = s.core d :=
  State.setCore_core_other s _ h

@[simp] theorem State.onSeq_seq (s : State) (c : Core) (f : SeqSt → SeqSt) : (s.onSeq c f).seq c = f (s.seq c) := by
  simp [State.seq]

/-- A flag just set. -/
theorem State.setFlag_seq (s : State) (c : Core) (i : Nat) (b : Bool) :
    (s.setFlag c i b).seq c = { s.seq c with f := setFld (s.seq c).f i 1 (b2n b) } := State.onSeq_seq ..

@[simp] theorem State.setReg_core (s : State) (a : Nat) (v : W64) (c : Core) : (s.setReg a v).core c = s.core c := rfl
@[simp] theorem State.setReg_seq (s : State) (a : Nat) (v : W64) (c : Core) : (s.setReg a v).seq c = s.seq c := rfl
@[simp] theorem State.bump_core (s : State) (a : Nat) (hi : Bool) (n : Nat) (c : Core) : (s.bump a hi n).core c = s.core c := by
  simp [State.core]
@[simp] theorem State.bumpLo_core (s : State) (a n : Nat) (c : Core) : (s.bumpLo a n).core c = s.core c := s.bump_core a _ n c
@[simp] theorem State.bumpHi_core (s : State) (a n : Nat) (c : Core) : (s.bumpHi a n).core c = s.core c := s.bump_core a _ n c
@[simp] theorem State.bumpLo_seq (s : State) (a n : Nat) (c : Core) : (s.bumpLo a n).seq c = s.seq c := by simp [State.seq]
@[simp] theorem State.bumpHi_seq (s : State) (a n : Nat) (c : Core) : (s.bumpHi a n).seq c = s.seq c := by simp [State.seq]

/-! ### Whole operations -/

/-- Noting a stale word writes registers only. -/
theorem State.noteStale_eq (s : State) (a : Nat) : ∃ r, s.noteStale a = { s with regs := r } := by
  unfold State.noteStale
  split
  · split
    · split
      · exact ⟨s.regs, rfl⟩
      · exact s.bump_eq ..
    · exact ⟨s.regs, rfl⟩
  · exact ⟨s.regs, rfl⟩

/-- Counting stale words writes registers only. -/
theorem State.countStale_eq (s : State) (l : List Nat) : ∃ r, s.countStale l = { s with regs := r } := by
  unfold State.countStale
  induction l generalizing s with
  | nil => exact ⟨s.regs, rfl⟩
  | cons a l ih =>
    obtain ⟨r, h⟩ := s.noteStale_eq a
    obtain ⟨r', h'⟩ := ih { s with regs := r }
    rw [List.foldl_cons, h, h']
    exact ⟨r', rfl⟩

@[simp] theorem State.countStale_core (s : State) (l : List Nat) (c : Core) : (s.countStale l).core c = s.core c := by
  obtain ⟨r, h⟩ := s.countStale_eq l; rw [h]; rfl
@[simp] theorem State.countStale_seq (s : State) (l : List Nat) (c : Core) : (s.countStale l).seq c = s.seq c := by
  simp [State.seq]

/-- A register access of a powered domain takes place. -/
theorem State.ifOn_powered {s : State} {d : Nat} {f : State → State} (h : s.powered d = true) : s.ifOn d f = f s := by
  simp [State.ifOn, h]

/-- A register access of a domain that is off is counted and does nothing else (R646). -/
theorem State.ifOn_off {s : State} {d : Nat} {f : State → State} (h : s.powered d = false) :
    s.ifOn d f = s.bumpLo rMapcnt1 1 := by
  simp [State.ifOn, h]

/-- Guards of a step that its unit has executed touch the flags of its core only (R346, R347). -/
theorem State.guardDone_none (s : State) (c : Core) : s.guardDone c .none = s := rfl

end Sys2Proof.Machine
end

