-- ==== Sys2Proof/Laws/Records.lean ====
section
/-! SUPPORT. What counting, fault records and checked reads can change: registers, queues, fault state, the companion's level messages
and the flags of cores, and nothing else. -/
namespace Sys2Proof.Machine

/-- t differs from s at most in registers, queues, fault state, the Nimzen state and the flags of cores. -/
structure Recorded (s t : State) : Prop where
  pending : t.pending = s.pending
  part : t.part = s.part
  devId : t.devId = s.devId
  inForce : t.inForce = s.inForce
  mem : t.mem = s.mem
  ecc : t.ecc = s.ecc
  wire : t.wire = s.wire
  tb : t.tb = s.tb
  topo : t.topo = s.topo
  route : t.route = s.route
  bv : t.bv = s.bv
  boot : t.boot = s.boot
  sec : t.sec = s.sec
  pair : t.pair = s.pair
  pwr : t.pwr = s.pwr
  memc : t.memc = s.memc
  mons : t.mons = s.mons
  govq : t.govq = s.govq
  free : t.free = s.free
  core : ∀ c, ∃ f, t.core c = { s.core c with seq := { s.seq c with f := f } }

namespace Recorded

theorem refl (s : State) : Recorded s s := by
  constructor <;> first | rfl | exact fun c => ⟨_, rfl⟩

theorem trans {s t u : State} (h : Recorded s t) (k : Recorded t u) : Recorded s u where
  pending := k.pending.trans h.pending
  part := k.part.trans h.part
  devId := k.devId.trans h.devId
  inForce := k.inForce.trans h.inForce
  mem := k.mem.trans h.mem
  ecc := k.ecc.trans h.ecc
  wire := k.wire.trans h.wire
  tb := k.tb.trans h.tb
  topo := k.topo.trans h.topo
  route := k.route.trans h.route
  bv := k.bv.trans h.bv
  boot := k.boot.trans h.boot
  sec := k.sec.trans h.sec
  pair := k.pair.trans h.pair
  pwr := k.pwr.trans h.pwr
  memc := k.memc.trans h.memc
  mons := k.mons.trans h.mons
  govq := k.govq.trans h.govq
  free := k.free.trans h.free
  core := fun c => by
    obtain ⟨f, hf⟩ := h.core c
    obtain ⟨g, hg⟩ := k.core c
    refine ⟨g, ?_⟩
    simp only [State.seq, hf] at hg ⊢
    exact hg

/-- The units of a core stay as they are. -/
theorem arr {s t : State} (h : Recorded s t) (c : Core) (a : Arr) : t.arr c a = s.arr c a := by
  obtain ⟨f, hf⟩ := h.core c
  simp only [State.arr, hf]; rfl
theorem sieve {s t : State} (h : Recorded s t) (c : Core) : t.sieve c = s.sieve c := by
  obtain ⟨f, hf⟩ := h.core c
  simp only [State.sieve, hf]
theorem vec {s t : State} (h : Recorded s t) (c : Core) : t.vec c = s.vec c := by
  obtain ⟨f, hf⟩ := h.core c
  simp only [State.vec, hf]

end Recorded

/-- A change of registers, queues, fault state and the Nimzen state alone. -/
theorem Recorded.of_eq {s t : State} {r : SMap W64} {q : SMap QueueSt} {f : FltSt} {z : NzSt}
    (h : t = { s with regs := r, queues := q, flt := f, nz := z }) : Recorded s t := by
  subst h
  constructor <;> first | rfl | exact fun c => ⟨_, rfl⟩

namespace State
variable (s : State)

theorem bump_recorded (a : Nat) (hi : Bool) (n : Nat) : Recorded s (s.bump a hi n) := by
  obtain ⟨r, h⟩ := s.bump_eq a hi n
  exact .of_eq (by rw [h])
theorem bumpLo_recorded (a n : Nat) : Recorded s (s.bumpLo a n) := s.bump_recorded a false n
theorem bumpHi_recorded (a n : Nat) : Recorded s (s.bumpHi a n) := s.bump_recorded a true n
theorem setQueue_recorded (q : Nat) (x : QueueSt) : Recorded s (s.setQueue q x) := .of_eq rfl

theorem lookFreed_recorded (q : Nat) : Recorded s (s.lookFreed q) := by
  unfold lookFreed; dsimp only; split
  · exact .refl s
  · exact s.setQueue_recorded _ _

/-- FLAGSET and FLAGCLR, and every command that sets a flag, change that core's flags alone. -/
theorem setFlag_recorded (c : Core) (i : Nat) (full : Bool) : Recorded s (s.setFlag c i full) := by
  constructor
  case core =>
    intro d
    by_cases h : d = c
    · subst h; exact ⟨setFld (s.seq d).f i 1 (b2n full), by simp [setFlag, onSeq, setSeq, seq]⟩
    · exact ⟨(s.seq d).f, s.onCore_core_other _ h⟩
  all_goals rfl

theorem levelCheck_recorded (q was : Nat) : Recorded s (s.levelCheck q was) := by
  unfold levelCheck; dsimp only
  split
  · have h := s.setQueue_recorded q { s.queue q with lvlHit := true }
    split
    · exact h.trans (.of_eq rfl)
    · split
      · exact h.trans (setFlag_recorded _ _ _ _)
      · exact h
    · exact h
  · exact .refl s

theorem lookWritten_recorded (q : Nat) : Recorded s (s.lookWritten q) := by
  unfold lookWritten; dsimp only; split
  · exact .refl s
  · exact s.setQueue_recorded _ _

theorem dropHead_recorded (q limit : Nat) (p : QPkt) : Recorded s (s.dropHead q limit p) := by
  unfold dropHead; dsimp only
  split
  · exact (setQueue_recorded _ _ _).trans (bumpHi_recorded _ _ _)
  · exact setQueue_recorded _ _ _

/-- Reads of the companion that are served change queues and the Nimzen state. -/
theorem servePops_recorded (q n : Nat) : Recorded s (s.servePops q n) := by
  induction n generalizing s with
  | zero => exact .refl s
  | succ n ih =>
    unfold servePops
    split
    · exact .refl s
    · dsimp only
      refine (s.lookWritten_recorded q).trans ?_
      split
      · split
        · refine Recorded.trans ?_ (ih _)
          unfold servePop; dsimp only
          exact (dropHead_recorded _ _ _ _).trans (.of_eq rfl)
        · exact .refl _
      · exact .refl _

theorem ignorePkt_recorded (q : Nat) : Recorded s (s.ignorePkt q) := (s.setQueue_recorded q _).trans (bumpLo_recorded _ _ _)

/-- A push reaches its queue, and where it crosses the level, the companion or a flag. -/
theorem pushPkt_recorded (q port : Nat) (data : List Byte) (written : Nat) : Recorded s (s.pushPkt q port data written) := by
  unfold pushPkt; dsimp only
  refine (s.lookFreed_recorded q).trans ?_
  split
  · exact (setQueue_recorded _ _ _).trans ((levelCheck_recorded _ _ _).trans (servePops_recorded _ _ _))
  · exact ignorePkt_recorded _ _

theorem offerRecord_recorded (r : List Byte) : Recorded s (s.offerRecord r) := by
  unfold offerRecord; dsimp only
  split
  · refine (s.lookFreed_recorded 0).trans ?_
    split
    · exact pushPkt_recorded _ _ _ _ _
    · exact (ignorePkt_recorded _ 0).trans ((bumpHi_recorded _ (rFltCnt 0) 1).trans (.of_eq rfl))
  · split
    · exact .of_eq rfl
    · exact s.bumpLo_recorded _ _

/-- Raising a fault record (R614, R615). -/
theorem raise_recorded (code block index : Nat) (det : List Nat) : Recorded s (s.raise code block index det) := by
  unfold raise
  exact (Recorded.of_eq (t := { s with flt := { s.flt with seq := s.flt.seq + 1 } }) rfl).trans
    ((bumpLo_recorded _ _ _).trans (offerRecord_recorded _ _))

theorem noPop_recorded (a : Nat) : Recorded s (s.noPop a) := by
  unfold noPop; dsimp only
  refine Recorded.trans (t := if inHbm a then s.bumpLo (rHbmCnt1 (hbmStack a)) 1 else s.bumpLo (rLpCnt1 0) 1) ?_ ?_
  · split <;> exact bumpLo_recorded _ _ _
  · split <;> exact raise_recorded _ _ _ _ _
theorem memCe_recorded (a : Nat) : Recorded s (s.memCe a) := by unfold memCe; split <;> exact bumpLo_recorded _ _ _
theorem memUe_recorded (a : Nat) : Recorded s (s.memUe a) := by
  unfold memUe; split <;> exact (bumpHi_recorded _ _ _).trans (raise_recorded _ _ _ _ _)
theorem memEcc_recorded (a : Nat) : Recorded s (s.memEcc a).2 := by
  unfold memEcc; split
  · exact .refl s
  · exact s.memCe_recorded a
  · exact s.memUe_recorded a
theorem sramEcc_recorded (block index struct a who : Nat) : Recorded s (s.sramEcc block index struct a who).2 := by
  unfold sramEcc; split
  · exact .refl s
  · exact s.bumpLo_recorded (rFltCnt 2) 1
  · exact (s.bumpHi_recorded _ _).trans (raise_recorded _ _ _ _ _)

/-- A checked read counts, and raises records: nothing else (R277, R398, R400, R613). -/
theorem readCheck_recorded (who a : Nat) : Recorded s (s.readCheck who a).2 := by
  unfold readCheck; dsimp only
  repeat' split
  all_goals dsimp only
  all_goals first
    | exact .refl s
    | exact s.sramEcc_recorded _ _ _ _ _
    | exact s.bumpLo_recorded _ _
    | exact s.memEcc_recorded _
    | exact s.noPop_recorded _

theorem readWords_recorded (who : Nat) (addrs : List Nat) : Recorded s (s.readWords who addrs).2 := by
  have step (l : List Nat) : ∀ r : Nat × State, Recorded s r.2 → Recorded s (l.foldl (fun r a =>
      let x := r.2.readCheck who a
      (if r.1 = 0 then x.1 else r.1, x.2)) r).2 := by
    induction l with
    | nil => exact fun r h => h
    | cons a l ih => exact fun r h => ih _ (h.trans (readCheck_recorded _ _ _))
  exact step addrs (0, s) (.refl s)

theorem scaleReads_recorded (c : Core) (ds : List Desc) : Recorded s (s.scaleReads c ds).2 := s.readWords_recorded _ _

end State
end Sys2Proof.Machine
end

