-- ==== Sys2Proof/Laws/Sequencer.lean ====
section
/-! SUPPORT. What issuing a step does: a step that is ready leaves issue, and what the sequencer does then. -/
namespace Sys2Proof.Machine

/-- While the device runs a command answers what it answers. -/
theorem State.live_of_running {s : State} {o : Host.Outcome State Fault Refusal} (h : s.pwr.trip = false) : s.live o = o := by
  simp [State.live, h]

/-- After a thermal trip nothing happens (R673). -/
theorem State.live_of_trip {s : State} {o : Host.Outcome State Fault Refusal} (h : s.pwr.trip = true) : s.live o = .next s := by
  simp [State.live, h]

/-- A ready step leaves issue. -/
theorem stepCmd_ready {s : State} {c : Core} {w : StepWord} (h : StepReady s c w) :
    s.live (s.stepCmd c w true) = .next (s.handOver c w) := by
  obtain ⟨hl, hm, hd, hp, hq, ha, hg, hu, ht⟩ := h
  rw [State.live_of_running hl]
  simp [State.stepCmd, hm, State.attempt, hd, hp, hq, ha, hg, hu, Nat.not_lt.2 ht]

/-- A step that its unit takes is done. -/
theorem handOver_ok {s t : State} {c : Core} {w : StepWord} (h : issueAny c w s = .ok t) :
    s.handOver c w = stepDone t c ((s.seq c).nextPc w) := by
  simp [State.handOver, h, stepDone]

/-- A ready step that its unit takes. -/
theorem stepCmd_ok {s t : State} {c : Core} {w : StepWord} {pc : BitVec 20} (h : StepReady s c w) (hi : issueAny c w s = .ok t)
    (hn : (s.seq c).nextPc w = pc) : s.live (s.stepCmd c w true) = .next (stepDone t c pc) := by
  rw [stepCmd_ready h, handOver_ok hi, hn]

/-! ### What an opcode issues -/

theorem issueAny_load {c : Core} {w : StepWord} {s : State} (h : W.opcode w = 0x00) : issueAny c w s = issueLoad c w s :=
  congrArg (issueOf · c w s) h
theorem issueAny_pass {c : Core} {w : StepWord} {s : State} (h : W.opcode w = 0x01) : issueAny c w s = issuePass c w s :=
  congrArg (issueOf · c w s) h
theorem issueAny_feed {c : Core} {w : StepWord} {s : State} (h : W.opcode w = 0x02) : issueAny c w s = issueFeed c w s :=
  congrArg (issueOf · c w s) h
theorem issueAny_export {c : Core} {w : StepWord} {s : State} (h : W.opcode w = 0x03) : issueAny c w s = issueExport c w s :=
  congrArg (issueOf · c w s) h
theorem issueAny_aclr {c : Core} {w : StepWord} {s : State} (h : W.opcode w = 0x04) : issueAny c w s = issueAclr c w s :=
  congrArg (issueOf · c w s) h
theorem issueAny_asave {c : Core} {w : StepWord} {s : State} (h : W.opcode w = 0x05) : issueAny c w s = issueAsave c w s :=
  congrArg (issueOf · c w s) h
theorem issueAny_arestore {c : Core} {w : StepWord} {s : State} (h : W.opcode w = 0x06) : issueAny c w s = issueArestore c w s :=
  congrArg (issueOf · c w s) h
theorem issueAny_fres {c : Core} {w : StepWord} {s : State} (h : W.opcode w = 0x08) : issueAny c w s = issueFres c w s :=
  congrArg (issueOf · c w s) h
theorem issueAny_fpres {c : Core} {w : StepWord} {s : State} (h : W.opcode w = 0x09) : issueAny c w s = issueFpres c w s :=
  congrArg (issueOf · c w s) h
theorem issueAny_fflush {c : Core} {w : StepWord} {s : State} (h : W.opcode w = 0x0A) : issueAny c w s = issueFflush c w s :=
  congrArg (issueOf · c w s) h
theorem issueAny_frel {c : Core} {w : StepWord} {s : State} (h : W.opcode w = 0x0B) : issueAny c w s = issueFrel c w s :=
  congrArg (issueOf · c w s) h
theorem issueAny_disp {c : Core} {w : StepWord} {s : State} (h : W.opcode w = 0x20) : issueAny c w s = issueDisp c w s :=
  congrArg (issueOf · c w s) h
theorem issueAny_sop {c : Core} {w : StepWord} {s : State} (h : W.opcode w = 0x21) : issueAny c w s = issueSop c w s :=
  congrArg (issueOf · c w s) h
theorem issueAny_sdrain {c : Core} {w : StepWord} {s : State} (h : W.opcode w = 0x22) : issueAny c w s = issueSdrain c w s :=
  congrArg (issueOf · c w s) h
theorem issueAny_sclr {c : Core} {w : StepWord} {s : State} (h : W.opcode w = 0x23) : issueAny c w s = issueSclr c w s :=
  congrArg (issueOf · c w s) h
theorem issueAny_vop {c : Core} {w : StepWord} {s : State} (h : W.opcode w = 0x40) : issueAny c w s = issueVector c w s :=
  congrArg (issueOf · c w s) h
theorem issueAny_vred {c : Core} {w : StepWord} {s : State} (h : W.opcode w = 0x41) : issueAny c w s = issueVector c w s :=
  congrArg (issueOf · c w s) h
theorem issueAny_vrow {c : Core} {w : StepWord} {s : State} (h : W.opcode w = 0x42) : issueAny c w s = issueVector c w s :=
  congrArg (issueOf · c w s) h
theorem issueAny_osm {c : Core} {w : StepWord} {s : State} (h : W.opcode w = 0x43) : issueAny c w s = issueVector c w s :=
  congrArg (issueOf · c w s) h
theorem issueAny_quant {c : Core} {w : StepWord} {s : State} (h : W.opcode w = 0x44) : issueAny c w s = issueVector c w s :=
  congrArg (issueOf · c w s) h
theorem issueAny_strm {c : Core} {w : StepWord} {s : State} (h : W.opcode w = 0x60) : issueAny c w s = issueStrm c w s :=
  congrArg (issueOf · c w s) h
theorem issueAny_copy {c : Core} {w : StepWord} {s : State} (h : W.opcode w = 0x61) : issueAny c w s = issueCopy c w s :=
  congrArg (issueOf · c w s) h
theorem issueAny_trickle {c : Core} {w : StepWord} {s : State} (h : W.opcode w = 0x62) : issueAny c w s = issueTrickle c w s :=
  congrArg (issueOf · c w s) h
theorem issueAny_dload {c : Core} {w : StepWord} {s : State} (h : W.opcode w = 0x63) : issueAny c w s = issueDload c w s :=
  congrArg (issueOf · c w s) h
theorem issueAny_dstore {c : Core} {w : StepWord} {s : State} (h : W.opcode w = 0x64) : issueAny c w s = issueDstore c w s :=
  congrArg (issueOf · c w s) h
theorem issueAny_dset {c : Core} {w : StepWord} {s : State} (h : W.opcode w = 0x65) : issueAny c w s = issueDset c w s :=
  congrArg (issueOf · c w s) h
theorem issueAny_fset {c : Core} {w : StepWord} {s : State} (h : W.opcode w = 0x80) : issueAny c w s = issueFset c w s :=
  congrArg (issueOf · c w s) h
theorem issueAny_fsigr {c : Core} {w : StepWord} {s : State} (h : W.opcode w = 0x81) : issueAny c w s = issueFsigr c w s :=
  congrArg (issueOf · c w s) h
theorem issueAny_fwait {c : Core} {w : StepWord} {s : State} (h : W.opcode w = 0x82) : issueAny c w s = issueFwait c w s :=
  congrArg (issueOf · c w s) h
theorem issueAny_fence {c : Core} {w : StepWord} {s : State} (h : W.opcode w = 0x83) : issueAny c w s = issueFence c w s :=
  congrArg (issueOf · c w s) h
theorem issueAny_alu {c : Core} {w : StepWord} {s : State} (h : W.opcode w = 0xA0) : issueAny c w s = issueAlu c w s :=
  congrArg (issueOf · c w s) h
theorem issueAny_movi {c : Core} {w : StepWord} {s : State} (h : W.opcode w = 0xA1) : issueAny c w s = issueMovi c w s :=
  congrArg (issueOf · c w s) h
theorem issueAny_cmp {c : Core} {w : StepWord} {s : State} (h : W.opcode w = 0xA2) : issueAny c w s = issueCmp c w s :=
  congrArg (issueOf · c w s) h
theorem issueAny_plog {c : Core} {w : StepWord} {s : State} (h : W.opcode w = 0xA3) : issueAny c w s = issuePlog c w s :=
  congrArg (issueOf · c w s) h
theorem issueAny_ld {c : Core} {w : StepWord} {s : State} (h : W.opcode w = 0xA4) : issueAny c w s = issueLd c w s :=
  congrArg (issueOf · c w s) h
theorem issueAny_st {c : Core} {w : StepWord} {s : State} (h : W.opcode w = 0xA5) : issueAny c w s = issueSt c w s :=
  congrArg (issueOf · c w s) h
theorem issueAny_br {c : Core} {w : StepWord} {s : State} (h : W.opcode w = 0xA8) : issueAny c w s = .ok s :=
  congrArg (issueOf · c w s) h
theorem issueAny_loop {c : Core} {w : StepWord} {s : State} (h : W.opcode w = 0xA9) : issueAny c w s = issueLoop c w s :=
  congrArg (issueOf · c w s) h
theorem issueAny_endl {c : Core} {w : StepWord} {s : State} (h : W.opcode w = 0xAA) : issueAny c w s = issueEndl c w s :=
  congrArg (issueOf · c w s) h
theorem issueAny_ptest {c : Core} {w : StepWord} {s : State} (h : W.opcode w = 0xAC) : issueAny c w s = issuePtest c w s :=
  congrArg (issueOf · c w s) h
theorem issueAny_nop {c : Core} {w : StepWord} {s : State} (h : W.opcode w = 0xAE) : issueAny c w s = .ok s :=
  congrArg (issueOf · c w s) h
theorem issueAny_end {c : Core} {w : StepWord} {s : State} (h : W.opcode w = 0xAF) : issueAny c w s = issueEnd c w s :=
  congrArg (issueOf · c w s) h
theorem issueAny_bset {c : Core} {w : StepWord} {s : State} (h : W.opcode w = 0xC0) : issueAny c w s = issueBset c w s :=
  congrArg (issueOf · c w s) h
theorem issueAny_belay {c : Core} {w : StepWord} {s : State} (h : W.opcode w = 0xC1) : issueAny c w s = issueBelay c w s :=
  congrArg (issueOf · c w s) h
theorem issueAny_qpush {c : Core} {w : StepWord} {s : State} (h : W.opcode w = 0xE0) : issueAny c w s = issueQpush c w s :=
  congrArg (issueOf · c w s) h
theorem issueAny_qpop {c : Core} {w : StepWord} {s : State} (h : W.opcode w = 0xE1) : issueAny c w s = issueQpop c w s :=
  congrArg (issueOf · c w s) h
theorem issueAny_qtry {c : Core} {w : StepWord} {s : State} (h : W.opcode w = 0xE2) : issueAny c w s = issueQtry c w s :=
  congrArg (issueOf · c w s) h
theorem issueAny_twait {c : Core} {w : StepWord} {s : State} (h : W.opcode w = 0xE8) : issueAny c w s = issueTwait c w s :=
  congrArg (issueOf · c w s) h
theorem issueAny_ttime {c : Core} {w : StepWord} {s : State} (h : W.opcode w = 0xE9) : issueAny c w s = issueTtime c w s :=
  congrArg (issueOf · c w s) h

/-- The step after a step that does not branch. -/
theorem nextPc_plain {q : SeqSt} {w : StepWord} (h8 : W.opcode w ≠ 0xA8) (h9 : W.opcode w ≠ 0xA9) (hA : W.opcode w ≠ 0xAA) :
    q.nextPc w = q.pc + 1 := by
  unfold SeqSt.nextPc
  split <;> simp_all

/-! ### Units that wait for nothing -/

/-- No vector step is queued: none runs. -/
theorem vecAdvance_quiet {s : State} {c : Core} (h : (s.vec c).jobs = []) (n : Nat) : s.vecAdvance c n = s := by
  cases n <;> simp [State.vecAdvance, h]

/-- Where no unit waits and no END is pending, nothing follows an event. -/
theorem settle_quiet {s : State} {c : Core} (h : UnitsQuiet s c) (he : (s.seq c).ending = none) : s.settle c = s := by
  have hd : s.dispSettle c = s := by simp [State.dispSettle, h.2]
  simp [State.settle, vecAdvance_quiet h.1, hd, State.endCheck, he]

/-- A change of a sequencer leaves the units waiting for what they waited for. -/
theorem onSeq_quiet {s : State} {c : Core} (f : SeqSt → SeqSt) (h : UnitsQuiet s c) : UnitsQuiet (s.onSeq c f) c := by
  obtain ⟨h1, h2⟩ := h
  exact ⟨by simpa [State.vec] using h1, by simpa [State.sieve] using h2⟩

/-- A step that changes its sequencer only, where no unit waits: the sequencer goes on, and nothing else happens. -/
theorem stepDone_onSeq {s : State} {c : Core} {f : SeqSt → SeqSt} {pc : BitVec 20} (h : UnitsQuiet s c)
    (he : (f (s.seq c)).ending = none) : stepDone (s.onSeq c f) c pc = (s.onSeq c f).advancePc c pc true := by
  refine settle_quiet (onSeq_quiet _ (onSeq_quiet _ h)) ?_
  simpa [State.advancePc] using he

/-- A step is issued while no END is pending. -/
theorem stepReady_ending {s : State} {c : Core} {w : StepWord} (h : StepReady s c w) : (s.seq c).ending = none := by
  have hm := h.2.1
  simp only [State.mayIssue, Bool.and_eq_true, Option.isNone_iff_eq_none] at hm
  exact hm.1.2

end Sys2Proof.Machine
end

