-- ==== Sys2Proof/Machine/Package.lean ====
section
/-! DEFINITION. The package seen from the board: which signal each land carries and what the output pins show
(spec/26_package_and_electrical.md R655 to R661, R663). No command depends on it. -/
namespace Sys2Proof.Machine

/-! ### Lands (R655 to R661) -/

/-- The letters that name rows, in their order (R655). -/
def rowLetters : List Char := ['A', 'B', 'C', 'D', 'E', 'F', 'G', 'H', 'J', 'K', 'L', 'M', 'N', 'P', 'T', 'U', 'V', 'W', 'Y']

/-- The name of row r, counted from 1 (R655). -/
def rowName (r : Nat) : List Char :=
  if r < 20 then [rowLetters.getD (r - 1) 'A']
  else [rowLetters.getD ((r - 20) / 19) 'A', rowLetters.getD ((r - 20) % 19) 'A']

/-- The rails of Table 26-5. -/
inductive Rail
  | core0 | core1 | pan0 | pan1 | iod0 | iod1 | ser | serA | qLp | cH | qH | qlH | ppH | aon | io18
deriving DecidableEq, Repr

/-- The signals of an LPDDR5X channel (Table 26-3). -/
inductive LpSignal
  | dq (n : Nat) | dmi (n : Nat) | rdqs (n : Nat) (comp : Bool) | wck (n : Nat) (comp : Bool) | ca (n : Nat) | ck (comp : Bool)
  | cs (n : Nat) | vss
deriving DecidableEq, Repr

/-- The named pins of Table 26-6 that are not supplies. A pair's `neg` is its N side. -/
inductive Pin
  | refclkCore (neg : Bool) | refclkSer (n : Nat) (neg : Bool) | timeref | syncIn | syncOut | porN | resetN | wakeN | intN | heatN
  | thermtripN | devid (n : Nat) | tck | tms | tdi | tdo | trstN | xspiCk | xspiCsN | xspiDs | xspiResetN | xspiDq (n : Nat)
  | avsClk | avsMdata | avsSdata | smbScl | smbSda | smbAlertN | lpResetN (n : Nat)
deriving DecidableEq, Repr

/-- What a land carries: a supply rail or ground, lane k of a Borvik link or Nimzen half, a signal of an LPDDR5X channel, or a named
pin. -/
inductive Land
  | vss
  | rail (r : Rail)
  | borvik (link lane : Nat) (rx neg : Bool)
  | nimzen (half lane : Nat) (rx neg : Bool)
  | lpddr (channel : Nat) (sig : LpSignal)
  | pin (p : Pin)
deriving DecidableEq, Repr

/-- The named pins by row and column, and the supplies among them (Table 26-6). -/
def namedPins : List (Nat × Nat × Land) :=
  [(2, 2, .pin (.refclkCore false)), (2, 3, .pin (.refclkCore true)), (4, 2, .pin (.refclkSer 0 false)),
   (4, 3, .pin (.refclkSer 0 true)), (111, 2, .pin (.refclkSer 1 false)), (111, 3, .pin (.refclkSer 1 true)),
   (6, 2, .pin .timeref), (6, 4, .pin .syncIn), (6, 6, .pin .syncOut), (8, 2, .pin .porN), (8, 4, .pin .resetN),
   (8, 6, .pin .wakeN), (8, 8, .pin .intN), (10, 2, .pin .heatN), (10, 4, .pin .thermtripN), (14, 2, .pin .tck),
   (14, 4, .pin .tms), (14, 6, .pin .tdi), (14, 8, .pin .tdo), (15, 2, .pin .trstN), (102, 2, .pin .xspiCk),
   (102, 4, .pin .xspiCsN), (102, 6, .pin .xspiDs), (102, 8, .pin .xspiResetN), (106, 2, .pin .avsClk),
   (106, 4, .pin .avsMdata), (106, 6, .pin .avsSdata), (108, 2, .pin .smbScl), (108, 4, .pin .smbSda),
   (108, 6, .pin .smbAlertN), (109, 2, .pin (.lpResetN 0)), (2, 111, .pin (.lpResetN 1))]
  ++ (List.range 8).map (fun k => (12, k + 1, .pin (.devid k)))
  ++ (List.range 8).map (fun k => (13, k + 1, .pin (.devid (8 + k))))
  ++ (List.range 8).map (fun k => (104, k + 1, .pin (.xspiDq k)))
  ++ [1, 3, 5, 7].map (fun c => (17, c, .rail .aon)) ++ [2, 4, 6, 8].map (fun c => (18, c, .rail .aon))
  ++ [1, 3, 5, 7].map (fun c => (19, c, .rail .io18)) ++ [2, 4, 6, 8].map (fun c => (20, c, .rail .io18))

/-- The supply areas: first and last row, first and last column, and rail (Table 26-4). -/
def supplyAreas : List (Nat × Nat × Nat × Nat × Rail) :=
  [(17, 56, 9, 24, .pan0), (57, 96, 9, 24, .pan1), (17, 56, 25, 88, .core0), (57, 96, 25, 88, .core1),
   (17, 36, 89, 96, .cH), (57, 76, 89, 96, .cH), (37, 46, 89, 96, .qH), (77, 86, 89, 96, .qH),
   (47, 52, 89, 96, .qlH), (87, 92, 89, 96, .qlH), (53, 56, 89, 96, .ppH), (93, 96, 89, 96, .ppH),
   (17, 56, 97, 104, .iod0), (57, 96, 97, 104, .iod1), (9, 16, 41, 88, .ser), (97, 104, 41, 88, .ser),
   (9, 16, 89, 104, .serA), (97, 104, 89, 104, .serA)]

/-- The signal at block position (b, o) of an LPDDR5X channel (Table 26-3). -/
def lpSignal (b o : Nat) : LpSignal :=
  let strobes (n : Nat) : List LpSignal := [.dmi n, .rdqs n false, .rdqs n true, .wck n false, .wck n true, .vss]
  (([(List.range 8).map .dq, strobes 0 ++ [.ca 0, .ca 1], [.ca 2, .ca 3, .ca 4, .ca 5, .ca 6, .ck false, .ck true, .vss],
     strobes 1 ++ [.cs 0, .cs 1], (List.range 8).map (fun n => .dq (8 + n))] : List (List LpSignal)).getD b []).getD o .vss

/-- Rows that hold TX_P, TX_N, RX_P and RX_N, as RX and N: of the rows given in that order. -/
def pairOf (rows : List Nat) (r : Nat) : Option (Bool × Bool) :=
  (rows.zip [(false, false), (false, true), (true, false), (true, true)]).findSome? (fun p => if p.1 = r then some p.2 else none)

/-- A rail's land and a ground land alternate (R660, R661). -/
def railOr (r c : Nat) (x : Rail) : Land := if (r + c) % 2 = 0 then .rail x else .vss

/-- The signal of land (r, c) (R656 to R661, Tables 26-2 to 26-4 and 26-6). -/
def landAt (r c : Nat) : Land :=
  if 9 ≤ c ∧ c ≤ 104 then
    if r ≤ 8 ∨ 105 ≤ r then
      match pairOf (if r ≤ 8 then [2, 3, 6, 7] else [111, 110, 107, 106]) r with
      | some (rx, neg) => .borvik ((if r ≤ 8 then 0 else 12) + (c - 9) / 8) ((c - 9) % 8) rx neg
      | none => .vss
    else if (r ≤ 16 ∨ 97 ≤ r) ∧ c ≤ 40 then
      match pairOf (if r ≤ 16 then [10, 11, 14, 15] else [103, 102, 99, 98]) r with
      | some (rx, neg) => if (c - 9) % 2 = 0 then .nimzen (if r ≤ 16 then 0 else 1) ((c - 9) / 2) rx neg else .vss
      | none => .vss
    else match supplyAreas.find? (fun a => decide (a.1 ≤ r ∧ r ≤ a.2.1 ∧ a.2.2.1 ≤ c ∧ c ≤ a.2.2.2.1)) with
      | some a => railOr r c a.2.2.2.2
      | none => .vss
  else if 21 ≤ r ∧ r ≤ 100 then
    let sig := lpSignal ((r - 21) % 5) (if c ≤ 8 then c - 1 else 112 - c)
    if sig = .vss then .vss else .lpddr ((if c ≤ 8 then 0 else 16) + (r - 21) / 5) sig
  else match namedPins.find? (fun p => decide (p.1 = r ∧ p.2.1 = c)) with
    | some p => p.2.2
    | none => railOr r c .qLp

/-! ### Output pins (R663) -/

/-- What an output pin shows: driven low or high, an open drain released, or high impedance. -/
inductive PinLevel | low | high | released | highZ
deriving DecidableEq, Repr

/-- An open drain pin that is driven low while `b` holds. -/
def openDrain (b : Bool) : PinLevel := if b then .low else .released

/-- The output pins whose level the rules give from the state: SYNC_OUT (R445), INT_N and with it SMB_ALERT_N (R617), HEAT_N (R604) and
THERMTRIP_N (R673). Of the other outputs of Table 26-6 the level in reset. None of an input. -/
def State.pinLevel (s : State) : Pin → Option PinLevel
  | .syncOut => some (if s.syncOut then .high else .low)
  | .intN | .smbAlertN => some (openDrain s.intLow)
  | .heatN => some (openDrain s.pwr.therm)
  | .thermtripN => some (openDrain s.pwr.trip)
  | p => if s.boot.phase != 0 then none else match p with
    | .tdo | .xspiDq _ => some .highZ
    | .xspiCk | .xspiResetN | .avsClk | .lpResetN _ => some .low
    | .xspiCsN | .avsMdata => some .high
    | .smbScl | .smbSda => some .released
    | _ => none

end Sys2Proof.Machine
end

