-- ==== Sys2Proof/Tests/Slice0.lean ====
section
/-! SUPPORT. Tests: ill-formed terms that WellFormed refuses, small checks of single operations against the spec's numbers, and
for every statement with hypotheses states that meet them. -/
set_option Elab.async false
namespace Sys2Proof.Tests
open Sys2Proof Sys2Proof.Machine

/-- A step word: opcode, no predicate, the opcode's class, and the other fields. -/
def stepW (op : Nat) (rest : Nat) : StepWord := BitVec.ofNat 128 (op * 2 ^ 120 + 15 * 2 ^ 116 + op / 32 * 2 ^ 112 + rest)
/-- After reset, the sequencer of core 0 running. -/
def run : State := State.reset.onSeq 0 (fun q => { q with st := .running })
/-- As before, with scalar registers 1 and 2 and descriptor 1. -/
def runWith (a b : W64) (d : Desc) : State := run.onSeq 0 (fun q => ((q.setX 1 a).setX 2 b).setT 1 d)

/-! ### Steps -/

theorem witness_scalar_steps : ∀ op ∈ [0xA0, 0xA1, 0xA2, 0xA3, 0xE9, 0x80, 0xAE, 0x65],
    StepReady run 0 (stepW op 0) ∧ UnitsQuiet run 0 ∧ W.opcode (stepW op 0) = op := by decide +kernel

theorem witness_flow_steps : (∀ op ∈ [0xA8, 0xA9, 0xAA, 0xAF, 0x82, 0x83, 0xE8], StepReady run 0 (stepW op 0) ∧ W.opcode (stepW op 0) = op) ∧
    run.flag 0 (W.dFLAG (stepW 0x82 0)) = W.dSTATE (stepW 0x82 0) ∧ run.fenceMet 0 (W.imm (stepW 0x83 0)) = true ∧
    fld ((run.seq 0).getX (W.dXA (stepW 0xE8 0))) 0 48 ≤ run.tb.pitch ∧ (run.reg rTbOrigin).toNat ≤ run.tb.time.toNat := by
  decide +kernel

theorem witness_alu_frame_skip : UnitsQuiet run 0 ∧ StepReady run 0 (stepW 0xA0 (10 * 2 ^ 90)) ∧ W.aSUB (stepW 0xA0 (10 * 2 ^ 90)) = 10 ∧
    RegsOk run ∧ Instr.alu 0 (stepW 0xA0 0) ∈ stepRows 0 (stepW 0xA0 0) ∧ (Instr.alu 0 (stepW 0xA0 0)).wf = true ∧
    (let w := stepW 0xA0 0 - BitVec.ofNat 128 (8 * 2 ^ 116);
      decodeBad w = none ∧ W.psel w = 7 ∧ (run.seq 0).predicate (w ||| BitVec.ofNat 128 (2 ^ 115)) = true ∧
      (run.seq 0).predicate w = false ∧ (run.core 0).trk.length ≤ 8 ∧ (namedP w).any (run.core 0).pendingP.contains = false ∧ run.mayIssue 0 w = true) := by decide +kernel

/-- As `run`, with word 0 of the pantry valid, and struck by an error that is not corrected. -/
def struck : State := (run.wrLocal 0 [1]).strike 0 .uncorrectable

theorem witness_pantry_read_steps : (∀ op ∈ [0xA4, 0x63], StepReady run 0 (stepW op 0) ∧ StepReady struck 0 (stepW op 0) ∧
    W.opcode (stepW op 0) = op) ∧ (run.readWords 12 [0]).1 = 0 ∧ (struck.readWords 12 [0]).1 ≠ 0 := by decide +kernel

theorem witness_trickle_steps : (∀ op ∈ [0x62, 0xA5, 0xAC, 0x64], StepReady run 0 (stepW op 0) ∧ W.opcode (stepW op 0) = op) ∧
    (run.core 0).trk.length + W.fn (stepW 0x64 15) 0 4 / 8 < 8 := by decide +kernel

/-- A packet of 3 bytes in cell 0, that of 200 bytes of which one cell of four is written, and the first with its link word struck. -/
def pkt3 : QPkt := ⟨[1, 2, 3], linkCells 3 [0], 1, false, 15, 0, false⟩
def pktPart : QPkt := ⟨List.replicate 200 7, linkCells 200 [0, 1, 2, 3], 1, false, 15, 0, false⟩
def pktBad : QPkt := { pkt3 with cells := [⟨0, 0, 0⟩] }
/-- As `run`, with a packet in queue 0, which is enabled and shows a packet from its first cell on. -/
def runP (p : QPkt) : State :=
  (run.setReg (rQcfg 0) (BitVec.ofNat 64 (2 ^ 59 + 2 ^ 34 + 64))).setQueue 0 { QueueSt.empty with pkts := [p], wr := ⟨1, gray 1, []⟩ }
def runQ : State := runP pkt3
/-- As `runQ`, with an address in another device in X1. -/
def runF : State := runQ.onSeq 0 (fun q => q.setX 1 (BitVec.ofNat 64 (2 ^ 48)))

theorem witness_queue_steps : (∀ op ∈ [0xE0, 0xE1, 0xE2], StepReady runQ 0 (stepW op 1) ∧ W.imm (stepW op 1) % 2 ^ 13 = 1) ∧
    StepReady run 0 (stepW 0xE0 4096) ∧ StepReady run 0 (stepW 0xE2 1) ∧ (run.stepBytes 0 0 4096).1.toOption.isSome = true ∧
    runQ.domOn (76 + dieOf 0) = true ∧ (runQ.popPkt 0 1).1 = .got [1] 3 false ∧ runQ.farAddr 0 = false ∧
    ((runQ.popPkt 0 1).2.busWrite (.unit 0 12) (.program 0) 12 (coreProd 0) (localOf 0) [1]).1 = .done ∧
    (run.popPkt 0 1).1 = .none := by decide +kernel

theorem witness_queue_steps_far : ((runP pktBad).popPkt 0 1).1 = .got [] 0 true ∧ (let w := stepW 0xE1 (1 + 2 ^ 100);
      let a := ((runF.seq 0).getX (W.dXA w)).toNat; StepReady runF 0 w ∧ W.imm w % 2 ^ 13 = 1 ∧ (runF.popPkt 0 1).1 = .got [1] 3 false ∧
        runF.farAddr a = true ∧ runF.farRoom a (farPieces a 1).length = true) := by decide +kernel

theorem witness_signal_step : StepReady run 0 (stepW 0x81 5) ∧ W.imm (stepW 0x81 5) % 64 = (5 : Core).val ∧ run.coreOn 5 = true ∧
    run.fenceMet 0 0x3FFF = true ∧ StepReady (runWith 7 0 0) 0 (stepW 0x81 (64 + 2 ^ 100)) ∧
    W.imm (stepW 0x81 (64 + 2 ^ 100)) % 64 = (0 : Core).val ∧
    BitVec.ofNat 16 (fld (((runWith 7 0 0).seq 0).getX (W.dXA (stepW 0x81 (64 + 2 ^ 100)))) 0 16) ≠ (runWith 7 0 0).devId := by decide +kernel

/-- As `run`, with belay context 7 of core 0 a first stage. -/
def runB : State := (run.setReg (rBelayA 0 7) 0).setReg (rBelayB 0 7) 0x8003

theorem witness_belay_steps : (∀ op ∈ [0xC0, 0xC1], StepReady runB 0 (stepW op (7 * 2 ^ 102)) ∧ W.fCTX (stepW op (7 * 2 ^ 102)) = 7) ∧
    (runB.belay 0 7).busy = false ∧ (Bctl.of (runB.reg (rBelayA 0 7)) (runB.reg (rBelayB 0 7))).bad = false := by decide +kernel

/-- A descriptor of one row of a plain type, at address 0 of the pantry, and a tiled one with one tile of an empty header pair. -/
def desc1 : Desc := BitVec.ofNat 256 (4 * 2 ^ 128)
def descT : Desc := BitVec.ofNat 256 (2 ^ 215 + 4 * 2 ^ 128 + 63 * 2 ^ 160 + 63 * 2 ^ 184)
/-- As `run`, with every descriptor register the first of these. -/
def runD : State := run.onSeq 0 (fun q => { q with t := Vector.replicate 16 desc1 })

theorem witness_array_steps :
    (∀ op ∈ [0x00, 0x01, 0x03, 0x04, 0x05, 0x06], StepReady run 0 (stepW op 13) ∧ W.fn (stepW op 13) 0 3 = (5 : Arr).val) ∧
    (run.arr 0 5).loadq.length < 2 ∧ (run.arr 0 5).opq.length < 4 ∧ D.tiled desc1 = false ∧ ScalesOk run 0 [desc1] ∧
    (run.operandBad 0 1 desc1 false).isNone = true ∧ operandCode desc1 false = none ∧
    W.fn (stepW 0x00 5) 3 3 ≠ 4 ∧ W.fn (stepW 0x00 5) 3 3 ≠ 5 := by decide +kernel

/-- As `run`, with the header pair of an EMPTY tile of the whole extent at word 0. -/
def runT : State := run.wrLocal 0 (pairBytes (blankHdr tF32))

theorem witness_array_steps_tiled : D.tiled descT = true ∧ ScalesOk runT 0 [descT] ∧ (runT.operandBad 0 1 descT false).isNone = true ∧
    (let r := (runT.scaleReads 0 [descT]).2.loadHdrs 0 descT 4 0 0 0; r.2.1 = false ∧ r.1.any (fun l => s24Refuses 4 l.hdr) = false) ∧
    W.fn (stepW 0x01 (2 * 8 + 5)) 3 2 = 2 ∧ W.fn (stepW 0x04 (15 * 8)) 3 4 + W.fn (stepW 0x04 (15 * 8)) 7 4 ≤ 15 := by decide +kernel

/-- A window record with every parameter 1. -/
def winRec : BitVec 512 := BitVec.ofNat 512 ((List.range 6).map (fun k => 2 ^ (64 + 16 * k)) |>.sum) |||
  BitVec.ofNat 512 ((List.range 8).map (fun k => 2 ^ (160 + 8 * k)) |>.sum)

/-- As `run`, with gathering context 15 of core 0 enabled, rows of one word, deadline 1. -/
def runG : State := run.setReg (rFgctx 0 15) (BitVec.ofNat 64 (2 ^ 41 + 2 ^ 30 + 2 ^ 18))
/-- And with place 0 of its fill 0 reserved. -/
def runG1 : State := (runG.reservePlace 0 15).2

theorem witness_feed_steps : (∀ m ∈ [0, 64, 128], StepReady run 0 (stepW 0x02 (32 + m)) ∧ W.fn (stepW 0x02 (32 + m)) 6 2 = m / 64) ∧
    feederOfMask 0 (W.fn (stepW 0x02 32) 0 6) = some 5 ∧ ((run.core 0).getFeed 5).length < 4 ∧
    (run.operandBad 0 0 desc1 false).isNone = true ∧ ScalesOk run 0 [desc1] ∧
    (let s := run.wrLocal 0 (bytesOf 64 winRec.toNat); let r := Win.ofRec (BitVec.ofNat 512 (s.unitWord 0));
      StepReady s 0 (stepW 0x02 96) ∧ (s.readCheck (feedWho 0 5) 0).1 = 0 ∧ r.ok = true ∧ r.ty.isSome = true ∧ r.base % 64 = 0) := by decide +kernel

theorem witness_gather_steps : (∀ op ∈ [0x08, 0x09, 0x0A, 0x0B], StepReady runG1 0 (stepW op 15) ∧ W.imm (stepW op 15) % 16 = (15 : Ctx).val) ∧
    StepReady run 0 (stepW 0x08 15) ∧ (runG.reservePlace 0 15).1 = some (0, 0) ∧ (run.reservePlace 0 15).1 = none ∧
    runG1.placeOf 0 15 0 = some (0, 0) := by decide +kernel

theorem witness_sieve_steps : (∀ op ∈ [0x20, 0x21, 0x22, 0x23], StepReady runD 0 (stepW op 0)) ∧
    (runD.sieve 0).jobs.length + b2n (runD.sieve 0).disp.isSome < 16 ∧
    (let w := stepW 0x20 8; StepReady runD 0 w ∧ (runD.dispRefusal 0 w).isNone = true ∧ ScalesOk runD 0 [desc1, desc1] ∧
      (runD.tilesRefused 0 desc1).isNone = true ∧ (runD.operandBad 0 3 desc1 (W.fnb w 33)).isNone = true) ∧
    (let w := stepW 0x21 0; ScalesOk runD 0 (sopDescs (runD.seq 0) w) ∧ (runD.sopRefusal 0 w).isNone = true) ∧
    ScalesOk runD 0 [desc1] ∧ (D.ety desc1).isSome = true ∧ drainBad desc1 = none ∧
    W.fn (stepW 0x23 15) 0 4 + W.fn (stepW 0x23 15) 4 4 ≤ 15 := by decide +kernel

/-- A vector step issues: its scale words are read and nothing is wrong with it. -/
def vecFine (w : StepWord) : Bool :=
  let j := runD.vecJob 0 w
  decide (ScalesOk runD 0 (j.operands.map (·.1) ++ j.dests)) && (runD.vecRefusal 0 j).isNone

theorem witness_vector_steps : (∀ op ∈ [0x40, 0x41, 0x42, 0x43, 0x44], StepReady runD 0 (stepW op 0) ∧ vecFine (stepW op 0) = true) ∧
    (runD.vec 0).jobs.length < 8 ∧
    (∀ f ∈ [1, 2], StepReady runD 0 (stepW 0x43 f) ∧ W.fn (stepW 0x43 f) 0 6 = f ∧ vecFine (stepW 0x43 f) = true) := by decide +kernel

theorem witness_start_steps : (∀ op ∈ [0x60, 0x61], StepReady run 0 (stepW op 3) ∧ (run.eng 0 (W.engine (stepW op 3))).q.length < 4) ∧
    (runD.copyRefusal 0 (stepW 0x61 3)).isNone = true ∧ ScalesOk runD 0 [desc1, desc1] := by decide +kernel

/-! ### Events of a core's units -/

/-- A load of an untiled operand at the head of array 5's queue, not begun and begun, and a swap to come. -/
def loadJob (b : Bool) : LoadJob := ⟨0, 1, [⟨.empty, some (desc1, 0, 0), 0⟩], .none, false, b, if b then some (.none, .none) else none⟩
def runL (b : Bool) : State := run.setArr 0 5 { run.arr 0 5 with loadq := [loadJob b], swap := b }

theorem witness_load_events : Live (runL false) ∧ ((runL false).arr 0 5).loadq = [loadJob false] ∧
    ((runL false).arr 0 5).loadMayBegin = true ∧ ((runL false).readSrcs 0 1 (loadJob false).srcs).2.1 = false ∧
    (loadJob true).busy = true ∧ (loadJob true).built.isSome = true ∧ ((runL true).arr 0 5).swap = true ∧
    (loadJob true).layout ≠ 6 ∧ ({ loadJob true with layout := 6 } : LoadJob).layout = 6 ∧ ((runL true).arr 0 5).fp32 = false := by decide +kernel

def feedJob : FeedJob := ⟨0, 0, .desc desc1 0 0 0, 1, .none⟩

theorem witness_feeder_events : (let s := run.onCore 0 (fun k => k.setFeed 5 [feedJob]);
      (s.core 0).getFeed 5 = [feedJob] ∧ s.feedReady 0 feedJob = true) ∧
    (let s := { runG1 with tb := { runG1.tb with starts := 2 } };
      (s.fg 0 15).openFill = some 0 ∧ s.fgDeadline 0 15 ≠ 0 ∧ ((s.fg 0 15).fill 0).due ≤ s.tb.starts) ∧
    (let s := runG1.closeTime 0 15; let u := { s with tb := { s.tb with starts := 1002 } };
      ((u.fg 0 15).fill 0).st = .closed ∧ watchdogPast (u.slotWd 0) ((u.fg 0 15).fill 0).closedAt u.tb.starts = true) ∧
    (run.powered 0 = true ∧ (run.fg 0 15).f0.st = .free ∧ (run.fg 0 15).f1.st = .free ∧ fld (5 * 2 ^ 38 : W64) 38 3 < 6 ∧
      (EType.ofField (fld (5 * 2 ^ 38 : W64) 42 5)).isSome = true) := by decide +kernel

def sieveJob : SieveJob := ⟨0, .clear 0 1, run.numctl 0, 0, .none, false⟩
def mergeTile : MergeTile := ⟨0, 0, [], desc1, tF32, false, false, false, false, run.numctl 0, 0⟩
/-- The tiles l in the merge buffers of a job with guard g; and what the buffers hold after the first is written. -/
def mergeS (l : List MergeTile) (g : Option Guard) : State := run.setSieve 0 { run.sieve 0 with merge := l, merging := g }
def mergeLeft (s : State) : List MergeTile × Option Guard :=
  let u := ((((s.bumpLo (rSieveCnt 0 5) 0).setSieve 0 { s.sieve 0 with merge := (s.sieve 0).merge.tail }).closeMerge 0 mergeTile).mergeFill 0).sieve 0
  (u.merge, u.merging)

theorem witness_sieve_events : (let d : DispSt := ⟨sieveJob, 0, 0, [], [], 0, 0⟩;
      (((run.setSieve 0 { run.sieve 0 with disp := some d }).sieve 0).disp = some d)) ∧
    (let s := run.setSieve 0 { run.sieve 0 with jobs := [sieveJob] }; (s.sieve 0).headReady = true ∧ (s.sieve 0).jobs = [sieveJob]) ∧
    ((mergeS [mergeTile, mergeTile] (some .none)).sieve 0).merge = [mergeTile, mergeTile] ∧
    mergeLeft (mergeS [mergeTile, mergeTile] (some .none)) = ([mergeTile], some .none) ∧
    mergeLeft (mergeS [mergeTile] (some .none)) = ([], some .none) ∧ mergeLeft (mergeS [mergeTile] none) = ([], none) := by
  decide +kernel

theorem witness_vector_events : (let b : TileBuf := ⟨[1], 0, 0, 64, some 1⟩; let s := run.setVec 0 { run.vec 0 with bufs := [b] };
      (s.vec 0).bufs = [b]) ∧ run.powered 0 = true := by decide +kernel

/-- A start request that waits at an idle sequencer. -/
def startReq : StartReq := ⟨5, 7, none⟩
def idleS : State := State.reset.onSeq 0 (fun q => { q with starts := [startReq] })

theorem witness_start_take : Live idleS ∧ (idleS.seq 0).starts = [startReq] ∧ (idleS.seq 0).st = .idle ∧
    (idleS.core 0).getUnit 12 = .enabled ∧ idleS.coreOn 0 = true := by decide +kernel

theorem witness_start_seed : RegsOk idleS ∧ (let s := State.reset.onSeq 0 (fun q => { q with starts := [⟨5, 7, some 9⟩] });
    RegsOk s ∧ (s.seq 0).starts = [⟨5, 7, some 9⟩] ∧ (s.seq 0).st = .idle ∧ (s.core 0).getUnit 12 = .enabled ∧ s.coreOn 0 = true) ∧
    (let s := State.reset.onSeq 0 (fun q => { q with starts := [startReq], st := .faulted });
    (s.seq 0).starts = [startReq] ∧ (s.seq 0).st = .faulted ∧ (s.core 0).getUnit 12 = .enabled) := by decide +kernel

theorem witness_counters : (RegPlace.core 0 0x68).kind = cntBoth ∧ (RegPlace.core 0 0x50).kind = cntLow := by decide +kernel

theorem witness_start_refused : ((idleS.seq 0).starts.length < 4 ∧ (idleS.seq 0).st ≠ .faulted ∧ (idleS.core 0).getUnit 12 = .enabled ∧
      idleS.coreOn 0 = true) ∧
    4 ≤ ((idleS.onSeq 0 (fun q => { q with starts := List.replicate 4 startReq })).seq 0).starts.length ∧
    ((idleS.onSeq 0 (fun q => { q with st := .faulted })).seq 0).st = .faulted ∧
    ((idleS.onCore 0 (fun k => k.setUnit 12 .draining)).core 0).getUnit 12 ≠ .enabled := by decide +kernel

theorem witness_core_control : State.reset.powered (0 : Core).val = true ∧
    ((State.reset.onSeq 0 (fun q => { q with st := .faulted })).seq 0).st = .faulted ∧
    (let s := State.reset.onCore 0 (fun k => k.setUnit 11 .draining);
      (s.core 0).getUnit 11 = .draining ∧ s.drained 0 11 = true) ∧
    (let s := State.reset.onCore 0 (fun k => k.setUnit 12 .draining);
      (s.core 0).getUnit 12 = .draining ∧ s.drained 0 12 = true) ∧ bitOf (2 ^ 24 : W64) 24 = true := by decide +kernel

/-- A step that is stalled, on a full queue, on an empty queue of the pool, on a pitch, and on a guard. -/
def stalled (w : StepWord) (why : Nat) (s : State) : State := s.onSeq 0 (fun q => { q with st := .stalled, stall := some ⟨w, why, 0, 0⟩ })

theorem witness_stall_events :
    (let w := stepW 0x62 0; let s := stalled w 4 run;
      s.mayIssue 0 w = true ∧ ((s.attempt 0 w).seq 0).stall ≠ some ⟨w, 4, 0, 0⟩) ∧
    (let w := stepW 0xE1 1; let s := stalled w 7 runQ;
      s.mayIssue 0 w = true ∧ ((s.attempt 0 w).seq 0).stall ≠ some ⟨w, 7, 0, 0⟩) ∧
    (let w := stepW 0xE8 0; let s := stalled w 8 run;
      s.mayIssue 0 w = true ∧ ((s.attempt 0 w).seq 0).stall ≠ some ⟨w, 8, 0, 0⟩) ∧
    (let s := stalled (stepW 0x82 0) 3 run; watchdogPast (s.slotWd 0) 0 1001 = true) := by decide +kernel

theorem witness_pantry_write : MemOk State.reset ∧ 0xFFFFFF + [(1 : Byte)].length ≤ 0x1000000 ∧
    (let s := State.reset.onCore 47 (fun k => { k with valid := NSet.add 262143 k.valid });
      s.wordValid 47 262143 = true ∧ State.reset.wordValid 47 262143 = false) := by decide +kernel

theorem witness_window_access : State.reset.isLocal 0x40000004 = true ∧ (accWindow (localOf 0x40000004)).isSome = true ∧
    State.reset.isLocal 0x2FFFFFC0 = true ∧ (pantryOf (localOf 0x2FFFFFC0)).isSome = true ∧ 2 % 4 ≠ 0 ∧ [(1 : Byte)].length % 4 ≠ 0 ∧
    (accWindow 0x4017FFFC = some (0, 0x17FFFC) ∧ State.reset.coreOn 0 = true ∧ accReserved 0x4017FFFC = false ∧
      0x180000 < 0x17FFFC + 8 ∧ 0x17FFFC + 8 ≤ 0x200000) ∧
    (accWindow 0x401FFFFC = some (0, 0x1FFFFC) ∧ accReserved 0x401FFFFC = true ∧ accWindow (0x401FFFFC + (0x200000 - 0x1FFFFC)) = some (1, 0) ∧
      State.reset.coreOn 1 = true ∧ 0x200000 - 0x1FFFFC < 8 ∧ 8 ≤ 0x200000 - 0x1FFFFC + 0x180000) := by decide +kernel

/-- A first stage that waits, a running one without a credit, and a last stage that runs, in context 7 of core 0. -/
def belayWaits : State := (run.setBelay 0 7 { BelayCtx.reset with state := 1, ctlB := 0x8003 }).setBelay 0 6
  { BelayCtx.reset with state := 2, ctlA := 1 + 2 * 2 ^ 12, ctlB := 2 ^ 13 * 3 }
def belayLast : State := run.setBelay 0 7 { BelayCtx.reset with state := 2, ctlA := 1 * 2 ^ 14 + 2 * 2 ^ 12, ctlB := 2 ^ 13 * 3 + 1 }
def belayRow : BelayRow := ⟨0, 0, List.replicate 64 0⟩

theorem witness_belay_events : belayWaits.belayReady 0 7 = true ∧ (belayWaits.belay 0 7).busy = true ∧
    (belayWaits.belay 0 7).ctl.role ≠ 2 ∧ belayWaits.mayGrant 0 (belayWaits.belay 0 7) = true ∧
    (let b := (belayLast.belay 0 7); let s := { belayLast with wire := [⟨b.ctl.prev, 1, 0, 0, 0, belayRow⟩] };
      b.busy = true ∧ b.ctl.role ≠ 0 ∧ belayRow.tag = b.ctl.tag ∧ b.state = 2 ∧ b.bufs.length < 2 ∧ belayRow.row.length = 64 ∧
        b.recvd < b.ctl.rows ∧ s.onWire 0 b.ctl b.ctl.prev belayRow = true) ∧
    watchdogPast (belayWaits.slotWd 0) (belayWaits.belay 0 7).since 1002 = true := by decide +kernel

/-- A stream of engine 3 of core 0 in a phase, with a program. -/
def strJob : StrJob := ⟨0, 0, none, 0, 0, Vector.replicate 32 0, run.numctl 0, 0, .none, 0⟩
def strRun (ph : StrPhase) (words : List W64) : StrRun := { StrRun.new strJob words 1 with phase := ph }
def strS (ph : StrPhase) (words : List W64) : State := run.setRun 0 3 (strRun ph words)
def sw (op : Nat) : W64 := BitVec.ofNat 64 (op * 2 ^ 58)

theorem witness_stream_words : ∀ op ∈ [1, 2, 3, 4, 5, 6, 7, 8, 9, swCred], Sw.op (sw op) = op ∧ (strRun .run [sw op]).words[0]? = some (sw op) ∧
    ((strS .run [sw op]).eng 0 3).cur = some (strRun .run [sw op]) ∧ (strS .run [sw op]).coreOn 0 = true ∧
    (strRun .head [sw op]).phase = .head := by decide +kernel

theorem witness_stream_begin_admit : (let s := run.setEng 0 3 { run.eng 0 3 with q := [strJob] };
      (s.eng 0 3).cur = none ∧ (s.eng 0 3).q = [strJob] ∧ (s.core 0).getUnit 11 ≠ .disabled ∧ s.coreOn 0 = true) ∧
    (let s := (strS .queued []).onCore 0 (fun k => { k with admitq := [3] });
      (s.core 0).admitq.head? = some 3 ∧ (s.eng 0 3).cur = some (strRun .queued []) ∧
        (strRun .queued []).credits ≤ (s.bumpHi (rStrCnt 0 1) 0).freeCredits 0) := by decide +kernel

theorem witness_stream_events : (∀ op ∈ [swGo, swWait, 11, swEnd],
      ((strS .run [sw op]).eng 0 3).cur = some (strRun .run [sw op]) ∧ (strRun .run [sw op]).words[0]? = some (sw op) ∧ Sw.op (sw op) = op) ∧
    strJob.copy = none ∧ run.flag 0 (fld (sw swWait) 0 6) = bitOf (sw swWait) 57 ∧
    (strRun .run [sw 11]).sends = [] ∧ (strRun .run [sw 11]).quiet = true ∧
    (let w := sw swWait ||| BitVec.ofNat 64 (2 ^ 57); Sw.op w = swWait ∧ run.flag 0 (fld w 0 6) ≠ bitOf w 57 ∧
      watchdogPast (run.slotWd 0) 0 1001 = true) ∧ fld (1 : W64) 0 16 ≠ 0 := by decide +kernel

theorem witness_copy_and_trickle : (let j := { strJob with copy := some ⟨0, 0, 0, 0, 0, false, 0⟩ }; j.copy.isSome = true) ∧
    (let j : TrkJob := ⟨0, .store [1, 2, 3, 4, 5, 6, 7, 8], 0, 0, 8, none, .none, []⟩; let s := run.onCore 0 (fun k => { k with trk := [j] });
      (s.core 0).trk = [j] ∧ s.coreOn 0 = true ∧ (s.trkWrite 0 j [1, 2, 3, 4, 5, 6, 7, 8]).1 = some true) := by decide +kernel

/-! ### Memory, queues, dispatch -/

/-- Memory trained and filled, with requests of two words at an HBM stack, an LPDDR channel and a core's egress. -/
def memReq : MemReq := ⟨0, 0, 0x1000000000, 2, none⟩
def memS : State := { State.reset with memc := { State.reset.memc with hbmFilled := true, lpFilled := true, trained := true } }

theorem witness_arbiters : memReq.words ≠ 0 ∧ (let s := memS.setMemReqs (.hbm 0) [memReq];
      s.serves (.hbm 0) = true ∧ (∀ k, k < memReq.words → s.atCtl (.hbm 0) (reqWord memReq k) = true) ∧ (s.readyReq (.hbm 0)).1 = some memReq ∧
        (let u := (s.readyReq (.hbm 0)).2; u.memStopped (u.lane (.hbm 0) memReq.addr.toNat) = none) ∧
        s.pick (.hbm 0) (s.memReqs (.hbm 0)) = some memReq ∧ 0 < transferWords (.hbm 0) memReq) ∧
    (let s := (memS.setMemReqs (.hbm 0) [memReq]).setMemStopped (memS.lane (.hbm 0) memReq.addr.toNat) (some memReq);
      (s.readyReq (.hbm 0)).1 = some memReq ∧ (let u := (s.readyReq (.hbm 0)).2; u.memStopped (u.lane (.hbm 0) memReq.addr.toNat) = some memReq)) := by
  decide +kernel

theorem witness_fill : Live State.reset ∧ MemOk State.reset ∧ State.reset.memc.hbmFilled = false ∧ State.reset.memc.lpFilled = false ∧
    (let s := { State.reset with boot := { State.reset.boot with phase := 1 } }; s.boot.phase ≠ 0 ∧ s.boot.weights = [] ∧
      (∀ c, (s.core c).coll = []) ∧ s.pair.todo = []) ∧
    bitOf (1 : W64) 0 = true := by decide +kernel

theorem witness_governor : State.reset.powered 79 = true ∧ (State.reset.govQueue 1).length < 16 ∧
    16 ≤ ((State.reset.setGovQueue 1 (List.replicate 16 0)).govQueue 1).length := by decide +kernel

/-- A gather request that is in order, and one with an operation that does not exist. -/
def nreq : BitVec 512 := BitVec.ofNat 512 (2 ^ 416)

theorem witness_gather_engines : memS.powered (48 + (7 : Stack).val) = true ∧ (memS.nmgQueue 7).length < 16 ∧
    16 ≤ ((memS.setNmgQueue 7 (List.replicate 16 nreq)).nmgQueue 7).length ∧ memS.nmgRun 7 = none ∧
    (memS.setNmgQueue 7 [nreq]).nmgQueue 7 = [nreq] ∧ memS.memc.hbmFilled = true ∧ memS.nmgBad (.of nreq) = 0 ∧ memS.domOn (48 + (7 : Stack).val) = true ∧
    (memS.anyWaits (.gather 7) ((memS.nmgRows (.of nreq) 7).map (fun a => (a, 64))) false).1 = false ∧
    memS.nmgBad (.of (nreq ||| BitVec.ofNat 512 (3 * 2 ^ 358))) ≠ 0 ∧
    (let x : NmgRun := ⟨nreq, 0, 0, 0, 0, 0⟩; (memS.setNmgRun 7 (some x)).nmgRun 7 = some x ∧
      (coreOf? (Nreq.of x.req).dcore).isSome = true ∧ x.status ≠ 3) := by decide +kernel

theorem witness_push : (runQ.queue 0).rl.lag = 0 ∧ runQ.domOn (76 + dieOf 0) = true ∧ (runQ.morePkt 0 15 [5] 1).isNone = true ∧ bitOf (runQ.reg (rQcfg 0)) 59 = true ∧ (runQ.queue 0).cells + cellsOf 4096 > runQ.rf (rQcfg 0) 0 17 ∧
    (runQ.queue 0).cells + cellsOf 1 ≤ runQ.rf (rQcfg 0) 0 17 ∧ cellsOf 1 ≤ runQ.freeCells (dieOf 0) := by decide +kernel

theorem witness_queue_pool : ((runQ.lookWritten 0).qHead 0 = some pkt3 ∧ pkt3.linked = true ∧ pkt3.whole = true ∧
      ((runQ.lookWritten 0).queue 0).flush = false) ∧
    (((runP pktPart).lookWritten 0).qHead 0 = some pktPart ∧ pktPart.linked = true ∧ pktPart.whole = false) ∧
    (((runP pktBad).lookWritten 0).qHead 0 = some pktBad ∧ pktBad.cells.findIdx? (fun c => !c.ok) = some 0) ∧
    (let s := runQ.setRf (rQcfg 0) 59 1 0; let v := s.reg (rQcfg 0); (s.queue 0).cells ≠ 0 ∧ bitOf v 59 = false ∧ fld v 45 2 ≠ 3 ∧
      fld v 34 7 ≤ 64) ∧
    (let s (now : W64) : State := { runP { pktPart with since := 5 } with tb := { TbSt.reset with time := now } };
      (s 10001).breakAt 0 = some 10005 ∧ (s 10001).tb.time.toNat < 10005 ∧ 10005 < (s 10001).nextPitchTime ∧
        (s 10005).breakAt 0 = some 10005 ∧ 10005 ≤ (s 10005).tb.time.toNat) ∧
    (let v : W64 := BitVec.ofNat 64 (64 * 2 ^ 34); State.reset.powered (76 + dieOf 2047) = true ∧
      bitOf (State.reset.reg (rQcfg 2047)) 59 = false ∧ (State.reset.queue 2047).cells = 0 ∧ fld v 45 2 ≠ 3 ∧ fld v 34 7 ≤ 64 ∧
      bitOf v 59 = false ∧ bitOf v 60 = false) := by decide +kernel

/-- As after reset, with changes to the time base, a link, a half, the pair, power control or boot. -/
def tbS (f : TbSt → TbSt) : State := { State.reset with tb := f State.reset.tb }
def linkS (l : Link) (x : LinkSt) : State := State.reset.setLink l x
def halfS (h : Half) (f : HalfSt → HalfSt) : State := State.reset.onHalf h f
def pairS (f : PairSt → PairSt) : State := { State.reset with pair := f State.reset.pair }
def pwrS (f : PwrSt → PwrSt) : State := { State.reset with pwr := f State.reset.pwr }
def bootS (f : BootSt → BootSt) : State := { State.reset with boot := f State.reset.boot }

/-- The due list names entry 0, whose bits are given. -/
def topoS (bits : Nat) : State := { tbS (fun t => { t with due := [0] }) with
  topo := SMap.put topoDefault 0 (BitVec.ofNat 1024 bits) [] }

/-- A dispatch record of one entry, and a receive slot in use. -/
def xrS (a : Nat) (x : XdRecv) : State :=
  (State.reset.setReg (rXrxa 0 15) (BitVec.ofNat 64 a)).onCore 0 (fun k => k.setXr 15 x)

theorem witness_token_dispatch :
    (topoS 4).topoHead 4 = some (0, 4) ∧ Te.at' 4 29 0 1 = 0 ∧
    (let e := 4 + 2 ^ 232; (topoS e).topoHead 4 = some (0, BitVec.ofNat 1024 e) ∧ Te.at' (BitVec.ofNat 1024 e) 29 0 1 = 1) ∧
    (let x := { XdRecv.none with busy := true }; ((xrS 0 x).core 0).getXr 15 = x ∧ x.pitch = (xrS 0 x).tb.pitch ∧ x.total = none ∧ x.counts = []) ∧
    (((xrS 0 .none).core 0).getXr 15).busy = false ∧
    (let s := { xrS 0 { XdRecv.none with busy := true } with tb := { TbSt.reset with pitch := 2 } };
      ((s.core 0).getXr 15).busy = true ∧ (1 : BitVec 48).toNat < s.tb.pitch) ∧
    (let x : XdSrc := ⟨0, 0, 0, [], [], false, [], none⟩;
     let s := (tbS (fun t => { t with pitch := 1 })).onCore 0 (fun k => { k with xsrc := [x] });
      (s.core 0).xsrc = [x] ∧ x.sent = false ∧ x.pitch + 1 = s.tb.pitch) ∧
    (let s := { xrS (2 ^ 31) .none with tb := { TbSt.reset with pitch := 1 } };
      (s.core 0).returned 0 = false ∧ s.xrEnabled 0 15 = true ∧ ((s.core 0).getXr 15).busy = false ∧ ((s.core 0).getXr 15).pitch ≤ 0 ∧
        ((s.core 0).getXr 15).total = none) ∧
    (let x := { XdRecv.none with busy := true, counts := [(7, 1)], total := some 1 }; let s := xrS (2 ^ 31 + 2 ^ 30) x;
     let t := (s.xdTaken 3 (xdHead 1 0 15 9 7 0 5 0 0)).xdStart 0 15; let y := (t.core 0).getXr 15;
      s.xrEnabled 0 15 = true ∧ t.xrRegion 0 15 = true ∧ y.total = some 1 ∧ y.counts.find? (fun p => p.1 == 7) = some (7, 1) ∧
        y.dropFrom = none ∧ y.offset 7 + 0 < 1) := by decide +kernel

theorem witness_token_returns : (let x : XdSrc := ⟨0, 0, 0, [(5, 0, 0)], [], true, [], none⟩;
     let s := State.reset.onCore 0 (fun k => { k with xsrc := [x] });
      (s.core 0).xsrc.find? (fun x => x.awaits (5 : BitVec 20).toNat (0 : BitVec 16).toNat (0 : BitVec 48).toNat) = some x) ∧
    (let va : W64 := BitVec.ofNat 64 (2 ^ 31 + 2 ^ 30 + 2 ^ 18); let vb : W64 := BitVec.ofNat 64 (2 ^ 18);
      bitOf va 31 = true ∧ fld vb 18 12 ≠ 0 ∧ fld va 18 12 ≠ 0) := by decide +kernel

/-! ### Time and topo -/

/-- TIME_SRC is TB_CFG bits 1:0. -/
def srcS (n : Nat) (f : TbSt → TbSt) : State := (tbS f).setRf rTbCfg 0 2 n

theorem witness_time : State.reset.timeSrc = 0 ∧ (1000000000 : W64).toNat % 1000000000 = 0 ∧ (srcS 2 id).timeSrc = 2 ∧
    (let s := srcS 0 (fun t => { t with st := 1, value := some 1000000000 });
      s.mayBe 5 = true ∧ s.timeSrc = 0 ∧ s.tb.value = some 1000000000 ∧ (5 : W64).toNat ≤ (1000000000 : W64).toNat) ∧
    (let s := srcS 1 id; s.timeSrc = 1 ∧ s.mayBe 0 = true ∧ s.parentLink = some 0) ∧
    (let s := (linkS 0 { LinkSt.reset with st := 4 }).setRf rTbCfg 0 2 1; s.timeSrc = 1 ∧ s.parentLink = some 0 ∧ (s.link 0).up = true) ∧
    (srcS 1 (fun t => { t with asked := some 0 })).mayBe 9 = true ∧
    (let s := tbS (fun t => { t with due := [] }); Live s ∧ s.tb.due = []) := by decide +kernel

theorem witness_topo : (∀ k ∈ [0, 1, 2, 3, 5, 6, 8, 9], (topoS k).topoHead k = some (0, BitVec.ofNat 1024 k)) ∧
    (let e := 7 + 2 * 2 ^ 160; (topoS e).topoHead 7 = some (0, BitVec.ofNat 1024 e) ∧ 2 ≤ Te.at' (BitVec.ofNat 1024 e) 20 0 3) ∧
    (let s := { topoS 8 with pair := { PairSt.reset with st := 2, heard := true } };
      s.topoHead 8 = some (0, 8) ∧ s.pair.st = 2 ∧ s.pair.heard = true) ∧
    (let w : TopoWin := ⟨23, false, false, 0, 9, 0, 1⟩; let s := tbS (fun t => { t with wins := [w] });
      s.firstWin 23 = some w ∧ (s.reachBy (s.tb.time.toNat - s.inPitch + w.hi)).isSome = true) := by decide +kernel

/-! ### Links -/

/-- Link 5 UP. -/
def upS : State := linkS 5 { LinkSt.reset with st := 4 }
/-- CRC-32C with the running value forced at every byte, so that the kernel evaluates it without deep recursion. -/
def crcFold : List Byte → Nat → W32
  | [], c => BitVec.ofNat 32 c
  | b :: l, c => match c with
    | 0 => crcFold l (crcByte 0 b).toNat
    | n + 1 => crcFold l (crcByte (BitVec.ofNat 32 (n + 1)) b).toNat
theorem crcFold_eq (l : List Byte) : ∀ c, crcFold l c = l.foldl crcByte (BitVec.ofNat 32 c) := by
  induction l with
  | nil => intro c; rfl
  | cons b l ih => intro c; cases c <;> simp [crcFold, ih]
/-- A flit with CRC and FHC that match, SEQ 0 and ACK 1023, of the given kind. -/
def goodFlit (kind : Nat) : BitVec 2048 :=
  let bs := flitHdr kind 0 true true 0 1023 ++ padTo 244 []
  BitVec.ofNat 2048 (natOf (bs ++ bytesOf 4 (~~~(crcFold bs 0xFFFFFFFF)).toNat))
theorem crcOk_of (f : BitVec 2048) (h : ~~~(crcFold ((flitBytes f).take 252) 0xFFFFFFFF) = BitVec.ofNat 32 (fld f 2016 32)) :
    flitCrcOk f = true := by
  rw [crcFold_eq] at h
  simpa [flitCrcOk, crc32c] using h
theorem test_crc_kind1 : flitCrcOk (goodFlit 1) = true := crcOk_of _ (by decide +kernel)
theorem test_crc_kind2 : flitCrcOk (goodFlit 2) = true := crcOk_of _ (by decide +kernel)
theorem test_crc_refuses : flitCrcOk (goodFlit 1 ^^^ 1#2048) = false := by
  have h : ~~~(crcFold ((flitBytes (goodFlit 1 ^^^ 1#2048)).take 252) 0xFFFFFFFF) ≠ BitVec.ofNat 32 (fld (goodFlit 1 ^^^ 1#2048) 2016 32) := by decide +kernel
  rw [crcFold_eq] at h
  simpa [flitCrcOk, crc32c] using h

def pkt0 (dest src : BitVec 16) (ptype : BitVec 4) (body : List Byte) : Pkt := ⟨dest, src, ptype, 9, 1, 1, body⟩

theorem witness_flits (kind : Nat) (h : kind = 1 ∨ kind = 2) : (upS.checkFlit 5 (goodFlit kind)).1 = true ∧ flitKind (goodFlit kind) = kind := by
  rcases h with rfl | rfl
  · exact ⟨checkFlit_good _ _ _ test_crc_kind1 (by decide +kernel) (by decide +kernel) (by decide +kernel), by decide +kernel⟩
  · exact ⟨checkFlit_good _ _ _ test_crc_kind2 (by decide +kernel) (by decide +kernel) (by decide +kernel), by decide +kernel⟩

theorem witness_link_traffic : (upS.link 5).up = true ∧
    (let s := linkS 5 { LinkSt.reset with st := 4, replay := [⟨3, 0, 0, none⟩] };
      (s.link 5).replay = [⟨3, 0, 0, none⟩] ∧ (s.reachBy ((s.link 5).ackAt.toNat + 2000)).isSome = true ∧ (∃ x ∈ (s.link 5).replay, x.seq = (3 : BitVec 10).toNat)) ∧ upS.calNow 5 = false := by decide +kernel

theorem witness_packets : (pkt0 0 1 0 []).dest = State.reset.devId ∧ (pkt0 1 0 0 []).src = State.reset.devId ∧
    (pkt0 1 2 0 []).dest ≠ State.reset.devId ∧ pkt0 1 2 0 [] ∉ State.reset.bv.out := by decide +kernel

/-- Device 1 may read and write the queue pages of a booted device. -/
theorem witness_remote : (let p := pkt0 0 1 0 (bytesOf 8 0x90000000 ++ [5]);
      State.reset.staleDenies p = false ∧ p.ptype = 0 ∧ 9 ≤ p.body.length) ∧
    (let p := pkt0 0 1 1 (bytesOf 8 0 ++ bytesOf 2 64); State.reset.staleDenies p = false ∧ p.ptype = 1 ∧ p.body.length = 10) ∧
    State.reset.remoteMay 1 0 64 = true ∧ State.reset.remoteMay 1 0xFFFFFFFFFF 1 = false ∧
    (let s := { State.reset with bv := { BvSt.reset with txns := [⟨9, 1, .trickle 0 0 false⟩] } };
      ∃ x ∈ s.bv.txns, x.txid = (9 : BitVec 10).toNat ∧ x.dest = 1) := by decide +kernel

theorem witness_link_states : (∀ n ∈ [1, 2, 3], let s := { linkS 5 { LinkSt.reset with st := n } with tb := { TbSt.reset with time := 1000000000 } };
      (s.link 5).st = n ∧ s.linkOver n (s.link 5).since = some s) ∧ ([⟨3, 0, true, true, ctrlRekey, none⟩] : List TxFlit).any (·.rekeys) = true ∧
    State.reset.sec.trngFail = false ∧ State.reset.powered (linkDom (23 : Link).val) = true ∧ (upS.link 5).up = true ∧
    (let s := (linkS 5 { LinkSt.reset with st := 2 }).setReg (rLcfg 5) 3;
      (s.link 5).st = 2 ∧ bitOf (s.reg (rLcfg 5)) 1 = true ∧ bitOf (s.reg (rLcfg 5)) 0 = true) ∧
    (pwrS (fun p => { p with off := [linkDom 0] })).powered (linkDom (0 : Link).val) = false := by decide +kernel

/-- A collective of one ring that runs. -/
def collX (f : CollRing → CollRing) : CollSt := ⟨BitVec.ofNat 1024 (2 ^ 320), false, none, [f ⟨0, false, 0, 0, 0, false, 0⟩], [], 0, 0, false, [], []⟩
def collS (x : CollSt) : State := (tbS (fun t => { t with time := 1000000000 })).onCore 0 (fun k => { k with coll := [x] })

/-- One whose ring still waits for bytes, one whose ring runs no step, and one whose ring failed. -/
def collBusy : CollSt := { collX id with desc := BitVec.ofNat 1024 (2 ^ 320 + 64 * 2 ^ 192 + 2 ^ 256) }
def collFailed : CollSt := { collBusy with rings := [⟨0, true, 2, 7, 3, true, 0⟩] }

/-- One whose rings have ended and that still waits for the acknowledgement of a write of OUT. -/
def collPuts : CollSt := { collX id with puts := [⟨0, 0, [], some (.waiting 0 0)⟩] }

theorem witness_coll_notice : (let s := collS collBusy;
      (s.core 0).coll.find? (fun x => x.tag == 0 && x.pitch == 0) = some collBusy ∧ s.collOf 0 (0 : BitVec 16).toNat = some collBusy ∧
        collBusy.rings[(0 : Fin 8).val]? = some ⟨0, false, 0, 0, 0, false, 0⟩ ∧
        Cd.runs collBusy.desc 0 = true ∧ collBusy.ringDone 0 = false ∧ s.collOf 0 collBusy.tag = some collBusy) ∧
    (let s := (tbS id).onCore 0 (fun k => { k with collDone := [collBusy] });
      (s.core 0).coll.find? (fun x => x.tag == 0 && x.pitch == 0) = none ∧
        (s.core 0).collDone.find? (fun x => x.tag == 0 && decide (0 ≤ x.pitch)) = some collBusy ∧ collBusy.pitch = 0) ∧
    ((State.reset.core 0).coll = [] ∧ (State.reset.core 0).collDone = []) ∧ collFailed.rings[0]?.map (·.noticed) = some true := by
  decide +kernel

theorem witness_coll_timeout : (((collS collBusy).collDue 0 0).bind (collS collBusy).reachBy).map (fun t =>
      (t.core 0).coll.find? (fun x => x.ringLate 0 t.tb.time.toNat)) = some (some collBusy) ∧
    (((collS collPuts).collDue 0 0).bind (collS collPuts).reachBy).map (fun t => ((t.core 0).coll.find? (fun x => x.ringLate 0 t.tb.time.toNat),
      (t.core 0).coll.find? (fun x => x.putLate 0 t.tb.time.toNat))) = some (none, some collPuts) ∧
    (((collS collFailed).collDue 0 0).bind (collS collFailed).reachBy).isNone = true := by decide +kernel

theorem witness_coll_end : (let s := collS (collX id); (s.core 0).coll.find? (s.collEnded 0) = some (collX id)) ∧ (collX id).status = 0 ∧
    (let s := collS collFailed; (s.core 0).coll.find? (s.collEnded 0) = some collFailed) ∧ collFailed.status ≠ 0 ∧
    (let s := collS collBusy; (s.core 0).coll.find? (s.collEnded 0) = none) := by decide +kernel

/-! ### The Nimzen link -/

/-- Half 1 UP or DEGRADED, window 15 covering the device memory for reads and writes of either half, with or without COH, and
memory filled. -/
def nzS (coh : Bool) (f : HalfSt → HalfSt) : State :=
  (({ halfS 1 (fun x => f { x with st := 5 }) with memc := memS.memc }).setReg (rNzWinB 15)
    (BitVec.ofNat 64 (2 ^ 34 + 3 * 2 ^ 32 + 3 * 2 ^ 28 + 2 ^ 28 - 1 + (if coh then 2 ^ 30 else 0))))

theorem witness_nimzen_accesses : ((nzS true id).half 1).up = true ∧ (nzS true id).compMay 1 0 (64 * 64) false = true ∧
    (nzS true id).compMay 0 0x40 4096 true = true ∧ State.reset.compMay 1 0 64 false = false ∧ queuePage 0 = none ∧
    ((nzS true id).busRead (.nc 1 9) 15 0 64).1 = .data (List.replicate 64 0) ∧
    ((nzS true id).nzWrite 1 9 0 (List.replicate 64 7)).1 = .done ∧
    ((nzS true id).nzPart 1 9 0 (List.replicate 64 7) 0x8000000000000001).1 = .done := by decide +kernel

theorem witness_nimzen_coherent : let s := nzS true id; let a := 0x1000000000;
    s.boot.st ≠ 4 ∧ s.winFor 1 a 64 false = some 15 ∧ s.winBit 15 30 = true ∧ s.populated a = true ∧ s.domOn (s.memDom a) = true ∧
      s.filled a = true ∧ s.snooping (a / 64) = false ∧ s.nz.waits = [] ∧ s.dirUsed 1 < 262144 ∧ s.eccOf (eccUnit a) = .ok ∧ s.dirGet (a / 64) < 4 ∧
      othersOf (s.dirGet (a / 64)) (some 1) = [] := by decide +kernel

theorem witness_nimzen_returns : (let s := (nzS true id).dirSet 3 5;
      s.snoopOf 1 3 = none ∧ s.dirGet 3 = 4 + (1 : Half).val ∧ dirHolds (s.dirGet 3) 1 = true) ∧
    (let p : NzSnoop := ⟨3, 1, some 9, 0⟩; let s := { nzS true id with nz := { (nzS true id).nz with snoops := [p] } };
      s.snoopOf 1 3 = some p ∧ s.nz.stale.contains ((1 : Half).val, 9) = false ∧ (s.half 1).up = true ∧
        (s.reachBy (p.since + 1000 * s.rf rNzCfg 3 8)).isSome = true) ∧
    (let s := { nzS true id with nz := { (nzS true id).nz with stale := [(1, 9)] } }; s.nz.stale.contains ((1 : Half).val, 9) = true) ∧
    (nzS true id).nz.snoops = [] := by decide +kernel

theorem witness_nimzen_messages :
    (let r : NzPop := ⟨9, 0, 64, 0⟩; let s := ({ nzS true (fun x => { x with pops := [r] }) with queues := runQ.queues, regs := runQ.regs });
      (s.half 1).pops = [r] ∧ (s.queue r.queue).pkts.head?.any (·.begun) = false ∧ (s.reachBy (r.since + 1000 * s.rf rNzCfg 27 16)).isSome = true ∧
        s.firstPop 0 = some (1, r) ∧ (s.lookWritten 0).qHead 0 = some pkt3 ∧ pkt3.whole = true ∧ pkt3.linked = true) ∧
    (let w : W64 := BitVec.ofNat 64 (2 + 64 * 2 ^ 39 + 3 * 2 ^ 52);
     let s := { nzS true id with boot := { BootSt.reset with st := 3, menu := [w] } };
      s.boot.st = 3 ∧ s.pair.st ≠ 1 ∧ s.pair.st ≠ 4 ∧ s.menuEntry 1 0 64 = some w ∧ fld w 0 2 = 2) ∧
    (let r : NzReq := ⟨9, 0, 0, false, .trickle 0 0 false, true, none, [], []⟩; let s := nzS true (fun x => { x with reqs := [r] });
      (s.half 1).reqs = [r] ∧ r.txid = (9 : BitVec 10).toNat ∧ r.write = false ∧ r.inv = true ∧ r.data = none ∧
        ({ r with data := some [1] } : NzReq).need = []) ∧
    (let r : NzReq := ⟨9, 0, 0, true, .trickle 0 0 true, false, none, [], []⟩; ((nzS true (fun x => { x with reqs := [r] })).half 1).reqs = [r]) ∧
    (let s := { nzS true id with nz := { (nzS true id).nz with levels := [4] } };
      s.nz.levels = [4] ∧ s.levelHalf = 1 ∧ (s.half 1).msgs.length < 16 ∧ s.nzFull 1 = false) ∧
    (let m : NzOut := ⟨9, 1025, [], false, true, 0⟩; let s := nzS true (fun x => { x with msgs := [m] });
      resendNext (s.half 1).msgs = some m ∧ (s.reachBy m.due).isSome = true) ∧
    (let b : BitVec 1888 := BitVec.ofNat 1888 (1 + (2 ^ 32 - 2) * 2 ^ 32);
      ((nzBytes b).drop 4).take 4 = complBytes ((nzBytes b).take 4) ∧ fld b 0 2 = 1 ∧ ((nzS true id).half 1).rx.length < 64 ∧
      ((nzS true id).half 1).lost = false) := by
  decide +kernel

theorem witness_half_states : ((nzS true id).half 1).up = true ∧ (nzS true id).powered (halfDom 1) = true ∧
    ((nzS true id).half 1).st ≠ 0 ∧ ((nzS true id).half 1).st ≠ 2 ∧
    (nzS true id).calNow (24 + (1 : Half).val) = false ∧ (nzS true id).sec.trngFail = false ∧
    (∀ n ∈ [1, 2, 3], let s := { halfS 1 (fun x => { x with st := n }) with tb := { TbSt.reset with time := 1000000000 } };
      (s.half 1).st = n ∧ s.linkOver n (s.half 1).since = some s) := by
  decide +kernel

/-! ### Boot, flash, larder, security -/

/-- A weight load of no bytes from the companion. -/
def wl0 : List Byte := [1] ++ padTo 127 []

theorem witness_boot : State.reset.boot.phase = 0 ∧ Live State.reset ∧
    (let s := { memS with boot := { BootSt.reset with phase := 1 } };
      s.boot.phase = 1 ∧ s.memc.hbmFilled = true ∧ s.sec.dead = false) ∧ (bootS (fun b => { b with phase := 2 })).boot.phase = 2 := by
  decide +kernel

theorem witness_weight_loads : (let s := { bootS (fun b => { b with phase := 3, weights := [(0, wl0)] }) with tb := { TbSt.reset with time := 20000000000 } };
      s.wlNow.map (fun p => (p.1, p.2.1)) = some (0, wl0) ∧ s.wlData wl0 = some [] ∧
        (s.reachBy (s.boot.since.toNat + 1000000 * s.rf rBootCtl 0 16)).isSome = true) ∧
    (let e : List Byte := [1] ++ padTo 23 [] ++ [64] ++ padTo 103 []; let s := bootS (fun b => { b with phase := 3, weights := [(0, e)] });
      s.wlNow.map (fun p => (p.1, p.2.1)) = some (0, e) ∧ (s.wlData e).isNone = true) := by decide +kernel

theorem witness_flash_larder : (∀ code ∈ [1, 2, 3, 4],
      let u := State.reset.setReg rBootPaddr 0x3FFF0000; u.boot.cmd = none ∧ u.rf rBootPaddr 0 30 = 0x3FFF0000 ∧ 0x3FFF0000 % flashUnit code = 0 ∧
        u.bootedSlot ≠ some (u.slotOf 0x3FFF0000)) ∧
    (let c : FlashRun := ⟨1, 0, []⟩; let s := bootS (fun b => { b with cmd := some c }); s.boot.cmd = some c ∧ s.boot.wantReset = false) ∧
    lardAllows (.program 0) 96 = true ∧ lardAllows (.mesh 47) 103 = true ∧ lardAllows (.program 0) 95 = false ∧
    lardAllows (.program 0) 104 = false ∧ lardAllows (.program 0) 256 = true ∧ lardAllows .companion 256 = false ∧
    State.reset.boot.lardq.length < 8 ∧ (bootS (fun b => { b with lardq := [(9, 1)] })).boot.lardq = [(9, 1)] := by decide +kernel

/-- The enclave as each command wants it: an identity, owned or not, debug open or not, a nonce, a password in SEC_BUF. -/
def secS (owned debug : Bool) : State :=
  let s := bootS (fun b => { b with st := 3, lard := SMap.put lardDefault 19 1 [], lardC := SMap.put lardCDefault 19 (~~~1) [] })
  ({ s with sec := { s.sec with ident := true, owned := owned, debug := debug, nonce := some 0 } }).secStore 0 (List.replicate 8 0x41)

theorem witness_security : (secS true false).secReach .smbus = true ∧ (secS true false).sec.busy = none ∧ (secS true false).lardOk 19 = true ∧
    (∀ code ∈ [1, 2, 3, 4, 8, 10, 11], (secS true false).secRefusal code 0 = 0) ∧ (secS false false).secRefusal 5 8 = 0 ∧
    (∀ code ∈ [7, 12], (secS false true).secRefusal code 0 = 0) ∧ (secS false true).secRefusal 6 8 = 0 ∧
    (secS false false).secRefusal 9 0 = 0 ∧ (secS false false).secRefusal 4 0 ≠ 0 ∧
    (∀ code ∈ [3, 5], let c : SecRun := ⟨code, .jtag, 0, none, 0⟩;
     let s := { State.reset with sec := { SecSt.reset with busy := some c }, tb := { TbSt.reset with time := 1000000 } };
      s.sec.busy = some c ∧ (s.secEnds c).isSome = true) ∧
    (let s := { secS true false with tb := { TbSt.reset with time := 60000000000 } };
      s.sec.nonce = some 0 ∧ (s.reachBy (s.sec.drawn.toNat + 60000000000)).isSome = true) ∧
    (let s := { memS with boot := { BootSt.reset with phase := 4 } }; s.boot.phase ≠ 0 ∧ s.memc.hbmFilled = true) := by decide +kernel

/-! ### Pairs and power -/

/-- A paired device whose twin is device 0 and whose pair link 0 is UP. -/
def twinS (st : Nat) (f : PairSt → PairSt) : State :=
  { linkS 0 { LinkSt.reset with st := 4 } with pair := f { PairSt.reset with st := st }, boot := { BootSt.reset with st := 3 } }

theorem witness_pair : (twinS 2 id).fromTwin 0 0 = true ∧ (twinS 1 id).fromTwin 0 0 = true ∧ (twinS 1 id).pair.resync = 0 ∧
    (let s := { twinS 1 (fun p => { p with ran := 0 }) with tb := { TbSt.reset with starts := 70000 } };
      s.boot.st = 3 ∧ s.pair.peerOk = false ∧ s.pitchesPast s.pair.ran s.attachWait = true) ∧
    (let s := twinS 1 id; let m : AttachMsg := ⟨0, s.lardNext 18, s.mirrorGen, s.shardGen⟩;
      m.epoch = s.lardNext 18 ∧ m.shardGen = s.mirrorGen ∧ s.shardGen = m.mirrorGen) ∧
    ((twinS 1 id).lardNext 18).toNat < (1 : W64).toNat ∧
    (let s := { twinS 1 id with boot := { BootSt.reset with lard := SMap.put lardDefault 18 1 [], lardC := SMap.put lardCDefault 18 (~~~1) [] } };
      (0 : W64).toNat < (s.lardNext 18).toNat) ∧
    (let s := twinS 3 (fun p => { p with resync := 1, rejoin := none }); s.pair.resync = 1 ∧ s.pair.rejoin = none ∧ s.pair.todo = [] ∧ s.pair.st = 3) ∧
    (let s := twinS 4 (fun p => { p with resync := 2, srcGen := some 5 }); s.pair.resync = 2 ∧ s.pair.todo = [] ∧ s.pair.srcGen = some 5) ∧
    (let s := twinS 4 (fun p => { p with resync := 2, rejoin := some 0 }); s.pair.rejoin = some 0 ∧ 0 ≤ s.tb.pitch ∧ s.pair.resync ≠ 0) ∧
    (let s := { twinS 2 (fun p => { p with asked := some 0 }) with tb := { TbSt.reset with starts := 8 } };
      s.pair.st = 2 ∧ s.pair.asked = some 0 ∧ s.pitchesPast 0 8 = true) ∧
    (let s := twinS 5 (fun p => { p with release := some 0 }); s.pair.st = 5 ∧ s.pair.release = some 0) := by decide +kernel

def req0 (phase : Nat) (steps : List Nat) : PwrReq := ⟨4, [79], false, none, phase, steps, 0⟩

theorem witness_sleep : State.reset.pwr.req = none ∧ State.reset.pwr.wake = none ∧ State.reset.pwr.st ≤ 1 ∧
    (let s := pwrS (fun p => { p with req := some { req0 0 [] with doms := [79], goal := 2 } });
      s.querying = some { req0 0 [] with goal := 2 } ∧ (s.firstRefusal { req0 0 [] with goal := 2 } false).isSome = true) ∧
    (let r := { req0 0 [] with doms := [73] }; let s := pwrS (fun p => { p with req := some r });
      s.querying = some r ∧ s.firstRefusal r true = none) ∧
    (let r := { req0 0 [] with doms := [78] }; let s := { pwrS (fun p => { p with req := some r }) with sec := { SecSt.reset with busy := some ⟨3, .jtag, 0, none, 0⟩ }, tb := { TbSt.reset with time := 1000000000 } };
      s.querying = some r ∧ s.reachBy (r.since.toNat + 1000 * s.rf rPwrCfg 2 10) = some s ∧ (s.firstRefusal r true).isSome = true) ∧
    (pwrS (fun p => { p with req := some (req0 1 [7]) })).pwr.req = some (req0 1 [7]) ∧
    (pwrS (fun p => { p with req := some (req0 2 [7, 6]) })).pwr.req = some (req0 2 [7, 6]) ∧
    (let q : AvsReq := ⟨5, 0, false, 0⟩; let s := { pwrS (fun p => { p with avs := [q] }) with tb := { TbSt.reset with time := 1000000000 } };
      s.pwr.avs = [q] ∧ s.reachBy (q.since.toNat + 1000 * s.rf rPwrCfg 12 10) = some s ∧ s.pwr.wake = none) ∧
    NSet.has (79 : Dom).val (pwrS (fun p => { p with gated := [79] })).pwr.gated = true := by decide +kernel

/-- Every wake source enabled, TEMP_HI 0 and RAIL_LO 0xFFFF. -/
def wcfg : List W64 := [0, 0, 0, BitVec.allOnes 64, 0, 0xFFFF]

theorem witness_waking : (∀ i < 29, (pwrS (fun p => { p with wcfg := wcfg })).wakeEn i = true) ∧
    (pwrS (fun p => { p with wcfg := wcfg })).tempOut 1 = true ∧ (pwrS (fun p => { p with wcfg := wcfg })).railOut 0 0 = true ∧
    (let s := pwrS (fun p => { p with wakeAt := some 0 }); s.pwr.req = none ∧ s.pwr.wakeAt = some 0 ∧ 0 ≤ s.tb.pitch) ∧
    (let s := { pwrS (fun p => { p with wcfg := wcfg, st := 4 }) with tb := { TbSt.reset with time := 1000000000 } };
      let u := { s with pwr := { s.pwr with sampled := s.tb.time } };
      s.pwr.st = 4 ∧ s.reachBy (s.pwr.sampled.toNat + 1000000 * s.watchPeriod) = some s ∧
      u.sampleSource ⟨0, 2, false, 0, 0, 0⟩ = some (2, 0, 1)) ∧
    (∀ k ∈ [2, 3, 4, 5, 6, 7, 8, 9], let w : PwrWake := ⟨k, [0], 0, true⟩; (pwrS (fun p => { p with wake := some w })).pwr.wake = some w ∧
      (pwrS (fun p => { p with wake := some w })).saveErrs = []) ∧
    State.reset.pwr.therm = false ∧ (16 * (State.reset.rf rPwrCfg 22 8 : Int) ≤ (2000 : BitVec 16).toInt) ∧
    1920 ≤ (1920 : BitVec 16).toInt := by decide +kernel

/-! ### Self-test, monitors, register access -/

theorem witness_selftest : (let x := { ArrSt.reset with bistPending := true }; let s := State.reset.setArr 0 5 x;
      (s.arr 0 5).bistPending = true ∧ (s.arr 0 5).bistRunning = false ∧ s.coreOn 0 = true ∧ s.bistIdle 0 5 = true) ∧
    ((State.reset.setArr 0 5 { ArrSt.reset with bistRunning := true }).arr 0 5).bistRunning = true ∧
    (let s := { State.reset.setArr 0 5 { ArrSt.reset with bistPending := true } with tb := { TbSt.reset with starts := 65535 } };
      s.pitchesPast (s.arr 0 5).bistSince (s.rf rFltCtl 1 16) = true) ∧ State.reset.powered (monDom (127 : MonNo).val) = true := by decide +kernel

theorem witness_monitors : (let s := State.reset.setReg (rMonCfg 127) (BitVec.ofNat 64 (2 ^ 55 + 2 ^ 39 + 2));
      s.monEnabled 127 = true ∧ s.monWindow 127 ≠ 0 ∧ s.monSrc 127 = 2) ∧
    (let s := { State.reset.setReg (rMonCfg 127) (BitVec.ofNat 64 (2 ^ 55 + 2 ^ 39)) with tb := { TbSt.reset with starts := 1 } };
      s.pitchesPast (s.mon 127).since (s.monWindow 127) = true) := by decide +kernel

theorem witness_register_write : ∀ who ∈ [Writer.program 0, .mesh 47, .smbus], let a : W64 := BitVec.ofNat 64 (rFltCtl);
    State.reset.isLocal a = true ∧ inRegs (localOf a.toNat) = true ∧ State.reset.writerMay who (localOf a.toNat) 8 = true := by decide +kernel

/-! ### The block as a whole -/

theorem witness_block : Live State.reset ∧ State.reset.pending = [] ∧ (Instr.nop 0 (stepW 0xAE 0)).wf = true ∧
    (let i := Instr.alu 0 (stepW 0xAE 0); i.step? = some (stepW 0xAE 0, 0xA0) ∧ opcodeKnown (wordOpcode (stepW 0xAE 0)) = true ∧
      wordOpcode (stepW 0xAE 0) ≠ 0xA0) ∧
    (let s := pwrS (fun p => { p with trip := true }); s.pwr.trip = true) ∧ MemOk State.reset ∧ RegsOk State.reset := by decide +kernel

theorem witness_steps_answer : MemOk State.reset ∧ step State.reset = .next State.reset := ⟨by decide, rfl⟩

theorem witness_trip : let s := { pwrS (fun p => { p with trip := true }) with pending := [.wakeNLow] };
    s.pending = [.wakeNLow] ∧ step s = .next { s with pending := [] } := ⟨rfl, rfl⟩

theorem witness_part_timeout : Live (strS .run []) ∧ ((strS .run []).eng 0 3).cur = some (strRun .run []) := by decide +kernel

theorem witness_remote_done : State.reset.remoteMay 1 0 1 = true ∧ (State.reset.writeKeep (.pkt 1 9) (.remote 1) 15 66 0 [5]).1 = .done ∧
    ((pwrS (fun p => { p with off := [76] })).writeKeep (.pkt 1 9) (.remote 1) 15 66 0x60000000 [5]).1 = .fail 3 ∧
    (State.reset.busRead (.pkt 1 9) 15 0 64).1 = .data (List.replicate 64 0) := by decide +kernel

/-! ### Ill-formed commands: one for each check -/

def acc (n : Nat) (d : Option (List Byte)) : Access := ⟨.smbus, 0x40000000, n, d⟩

theorem test_wf_opcode : (Instr.alu 0 (stepW 0xA1 0)).wf = false ∧ (Instr.alu 0 (stepW 0xA0 0)).wf = true := by decide +kernel
theorem test_wf_func : (Instr.osmUpdate 0 (stepW 0x43 1)).wf = false ∧ (Instr.osmRescale 0 (stepW 0x43 0)).wf = false ∧
    (Instr.osmFinal 0 (stepW 0x43 2)).wf = true := by decide +kernel
theorem test_wf_access : (Instr.accWindowAccess .smbus 0x40000000 (.read 0)).wf = false ∧ (Instr.meshPantryAccess (acc 4 (some [])) .ok).wf = false ∧
    (Instr.accWindowAccess .smbus 0x40000000 (.read 4)).wf = true := by decide +kernel
theorem test_wf_packet : (Instr.packetForward (pkt0 0 0 0 [])).wf = false ∧ (Instr.pktWrite (pkt0 0 0 0 [])).wf = false ∧
    (Instr.pktRead (pkt0 0 0 1 [])).wf = false ∧ (Instr.pktResponse (pkt0 0 0 2 [])).wf = false ∧
    (Instr.pktResponse (pkt0 0 0 2 [1])).wf = true := by decide +kernel
theorem test_wf_row : (Instr.belayRowReceive 0 0 ⟨0, 0, 0, 0⟩ ⟨0, 0, List.replicate 63 0⟩).wf = false := by decide +kernel
theorem test_wf_mem : (Instr.memRequest (.hbm 0) ⟨0, 0, 0, 0, none⟩).wf = false ∧
    (Instr.memRequest (.hbm 0) ⟨0, 0, 0, 1, some [1]⟩).wf = false ∧ (Instr.memRequest (.hbm 0) memReq).wf = true := by decide +kernel
theorem test_wf_push : (Instr.packetPush 0 0 [] 0).wf = false ∧ (Instr.packetPush 0 0 [1] 1).wf = true := by decide +kernel
theorem test_wf_nimzen : (Instr.rdNc 0 0 0 0).wf = false ∧ (Instr.wrNc 0 0 0 [1]).wf = false ∧ (Instr.wrPart 0 0 0 [1] 1).wf = false ∧
    (Instr.wbDirty 0 0 0 [1]).wf = false ∧ (Instr.snpRsp 0 ⟨0, 0⟩ (some [1])).wf = false ∧ (Instr.snpRsp 0 ⟨0, 0⟩ none).wf = true := by decide +kernel
theorem test_wf_register_write : (Instr.registerWrite .smbus 0 []).wf = false := by decide +kernel

/-! ### Numbers of the spec -/

def nc0 : NumCtl := NumCtl.ofReg 0

/-- Chapter 02, worked example: the FP32 value nearest 0.3 (0x3E99_999A) to FP8E4M3 by RNE and, with a small random word, by SR. -/
theorem test_e4m3 : (convert nc0 false .e4m3 .rne (f32 0x3E99999A)).1 = 0x2A ∧ (convert nc0 false .e4m3 (.sr 26215) (f32 0x3E99999A)).1 = 0x2A ∧
    (convert nc0 false .e4m3 (.sr 26214) (f32 0x3E99999A)).1 = 0x29 := by decide +kernel

/-- Chapter 02, worked example: a block with amax 5.0 to MXFP8 E4M3. -/
theorem test_mx_block :
    let r := convertBlock nc0 .e4m3 (List.replicate 32 .rne) ([f32 0x40A00000, f32 0x3C23D70A, f32 0x3727C5AC] ++ List.replicate 29 (f32 0));
    r.1 = 0x79 ∧ r.2.1.take 3 = [0x7A, 0x32, 0x00] := by decide +kernel

/-- Table 2-5: overflow of E4M3 takes the largest finite value, of E5M2 infinity, with the control bits at reset. -/
theorem test_overflow : convert nc0 false .e4m3 .rne (f32 0x447A0000) = (0x7E, ⟨0, 1, 0⟩) ∧
    (convert nc0 false .e5m2 .rne (f32 0x48000000)).1 = 0x7C := by decide +kernel

/-- R38, R39: an INT32 add past the bound saturates or, with INT_WRAP, wraps; both count. -/
theorem test_i32_saturates : i32add nc0 0x7FFFFFFF 1 = (0x7FFFFFFF, 1) ∧
    i32add (NumCtl.ofReg 1) 0x7FFFFFFF 1 = (0x80000000, 1) := by decide +kernel

/-- Chapter 03, worked example: the size and the header of the CSR tile, and the index and value words of its first three lines. -/
def csrTile : OutTile := ⟨⟨.e4m3, false⟩, false, 64, 64, false, 0,
  (List.range 3).map (fun l => (List.range 64).map (fun p =>
    if l = 0 ∧ p = 3 then 0x30 else if l = 0 ∧ p = 40 then 0xC0 else if l = 2 ∧ p = 7 then 0x3C else 0)), []⟩

theorem test_csr_header : csrWords ⟨.e4m3, false⟩ 5 = 7 ∧
    fld (csrTile.header ⟨2, List.replicate 7 0, 5, 0⟩ false 0) 0 64 = 0x000000050FFF000E := by decide +kernel

theorem test_csr_payload : let o := { csrTile with rows := 3 };
    (List.range 3).map o.linePos = [[3, 40], [], [7]] ∧ packWords .e4m3 [0x30, 0xC0, 0x3C, 0x28, 0x7E] = [0x30 + 0xC0 * 2 ^ 8 + 0x3C * 2 ^ 16 +
      0x28 * 2 ^ 24 + 0x7E * 2 ^ 32] := by decide +kernel

/-- Chapter 03, worked example: group 0 of line 0 under PRUNE keeps 0.75 at 0 and 1.25 at 3. -/
def s24Tile : OutTile := { csrTile with elems := [0x34, 0xB4, 0, 0x3A] :: List.replicate 63 [] }
theorem test_s24_prune : s24Tile.kept 0 0 = [0, 3] ∧ s24Tile.slots s24Tile.kept 0 0 = [(0, 0x34), (3, 0x3A)] ∧
    s24Words ⟨.e4m3, false⟩ = 40 := by decide +kernel

/-- Chapter 16, worked example: the offset of one exchange, and the pitch of a time. -/
theorem test_time_example : timeOffset 1730000000123000000 1730000000123000412 1730000000123001000 1730000000123001388 = 12 ∧
    State.reset.pitchOf 1730000000123456789 = 173000000012345 := by decide +kernel

/-- Chapter 15, worked example: 256 B are 4 cells. -/
theorem test_cells : cellsOf 256 = 4 ∧ cellsOf 1 = 1 ∧ cellsOf 4096 = 64 := by decide

/-- Chapter 09, worked example: a turn square of FP32 at base word 8,192 takes 7 slots beyond its first at a pitch of 16 words, and none
at 18. -/
theorem test_square_slots : (let sq (pitch : Nat) := (List.range 32).flatMap (fun r => [8192 + pitch * r, 8192 + pitch * r + 1]);
    slotsBeyond (sq 16) = 7 ∧ slotsBeyond (sq 18) = 0) := by decide +kernel

/-- R336: the largest and smallest ALU results. -/
theorem test_alu : aluFn 1 0 1 = 0xFFFFFFFFFFFFFFFF ∧ aluFn 5 1 64 = 1 ∧ aluFn 7 0x8000000000000000 63 = 0xFFFFFFFFFFFFFFFF := by decide

/-- Chapter 26, worked example: the lands EL54, K23, BV110 and AL40. -/
theorem test_lands : rowName 106 = ['E', 'L'] ∧ landAt 106 54 = .borvik 17 5 true true ∧ rowName 10 = ['K'] ∧
    landAt 10 23 = .nimzen 0 7 false false ∧ rowName 55 = ['B', 'V'] ∧ landAt 55 110 = .lpddr 22 (.dq 10) ∧ rowName 30 = ['A', 'L'] ∧
    landAt 30 40 = .rail .core0 := by decide +kernel

/-- Table 26-6: the outputs in reset. -/
theorem test_pins_in_reset : State.reset.pinLevel .syncOut = some .low ∧ State.reset.pinLevel .intN = some .released ∧
    State.reset.pinLevel .tdo = some .highZ ∧ State.reset.pinLevel .xspiCsN = some .high := by decide +kernel

end Sys2Proof.Tests
end

section
/-! The laws of registers and of their counter fields (R54), and the settlement of O7. What O7 says of advances holds in every
state whose registers are canonical; what it says of a clearing write holds where the writer has a path to the register (R542),
and fails without that premise at the counters of the SEC_ page. -/
namespace Sys2Proof.Machine

/-! ### Fields of a word -/

/-- A field read back bit by bit. -/
theorem testBit_fld {n : Nat} (w : BitVec n) (lo len i : Nat) :
    (fld w lo len).testBit i = (decide (i < len) && w.getLsbD (lo + i)) := by
  rw [fld, Nat.testBit_mod_two_pow, Nat.testBit_div_two_pow, BitVec.testBit_toNat, Nat.add_comm]

/-- Storing a field replaces the bits of the field and no others. -/
theorem getLsbD_setFld {n : Nat} (w : BitVec n) (lo len v i : Nat) (hi : i < n) :
    (setFld w lo len v).getLsbD i = if lo ≤ i ∧ i < lo + len then v.testBit (i - lo) else w.getLsbD i := by
  simp only [setFld, BitVec.getLsbD_or, BitVec.getLsbD_and, BitVec.getLsbD_not, BitVec.getLsbD_ofNat, Nat.testBit_mul_two_pow,
    Nat.testBit_two_pow_sub_one, Nat.testBit_mod_two_pow, hi]
  by_cases hlo : lo ≤ i
  · have hlen : i - lo < len ↔ i < lo + len := by omega
    by_cases hup : i < lo + len <;> simp [hlo, hup, hlen]
  · simp [hlo]

theorem fld_lt {n : Nat} (w : BitVec n) (lo len : Nat) : fld w lo len < 2 ^ len :=
  Nat.mod_lt _ (Nat.two_pow_pos len)

/-- A field read after a store to it holds the low bits of the value stored. -/
theorem fld_setFld_same {n : Nat} (w : BitVec n) {lo len : Nat} (v : Nat) (hn : lo + len ≤ n) :
    fld (setFld w lo len v) lo len = v % 2 ^ len := by
  refine Nat.eq_of_testBit_eq fun i => ?_
  rw [testBit_fld, Nat.testBit_mod_two_pow]
  by_cases hi : i < len
  · rw [getLsbD_setFld w lo len v (lo + i) (by omega), if_pos (by omega), Nat.add_sub_cancel_left]
  · simp [hi]

/-- A store to a field leaves a field beside it alone. -/
theorem fld_setFld_other {n : Nat} (w : BitVec n) {lo len lo' len' : Nat} (v : Nat) (hn : lo' + len' ≤ n)
    (h : lo + len ≤ lo' ∨ lo' + len' ≤ lo) : fld (setFld w lo len v) lo' len' = fld w lo' len' := by
  refine Nat.eq_of_testBit_eq fun i => ?_
  rw [testBit_fld, testBit_fld]
  by_cases hi : i < len'
  · rw [getLsbD_setFld w lo len v (lo' + i) (by omega), if_neg (by omega)]
  · simp [hi]

/-! ### Registers -/

/-- A store to a register keeps the registers canonical. -/
theorem State.setReg_regsOk {s : State} (a : Nat) (v : W64) (h : RegsOk s) : RegsOk (s.setReg a v) := SMap.wf_put a v h

theorem State.reg_setReg_same {s : State} (a : Nat) (v : W64) (h : RegsOk s) : (s.setReg a v).reg a = v :=
  SMap.get_put_same a v h

theorem State.reg_setReg_other {s : State} {a b : Nat} (v : W64) (h : RegsOk s) (hb : b ≠ a) :
    (s.setReg a v).reg b = s.reg b := SMap.get_put_other v h hb

theorem State.setRf_regsOk {s : State} (a lo len v : Nat) (h : RegsOk s) : RegsOk (s.setRf a lo len v) :=
  State.setReg_regsOk a _ h

theorem State.rf_lt (s : State) (a lo len : Nat) : s.rf a lo len < 2 ^ len := fld_lt _ lo len

theorem State.rf_setRf_same {s : State} (a : Nat) {lo len : Nat} (v : Nat) (h : RegsOk s) (hn : lo + len ≤ 64) :
    (s.setRf a lo len v).rf a lo len = v % 2 ^ len := by
  rw [State.rf, State.setRf, State.reg_setReg_same a _ h, fld_setFld_same _ v hn]

theorem State.rf_setRf_other {s : State} (a : Nat) {lo len lo' len' : Nat} (v : Nat) (h : RegsOk s) (hn : lo' + len' ≤ 64)
    (hd : lo + len ≤ lo' ∨ lo' + len' ≤ lo) : (s.setRf a lo len v).rf a lo' len' = s.rf a lo' len' := by
  rw [State.rf, State.setRf, State.reg_setReg_same a _ h, fld_setFld_other _ v hn hd, State.rf]

theorem State.reg_setRf_other {s : State} {a b : Nat} (lo len v : Nat) (h : RegsOk s) (hb : b ≠ a) :
    (s.setRf a lo len v).reg b = s.reg b := State.reg_setReg_other _ h hb

/-! ### Advances of a counter (R54) -/

/-- Where the low or high counter of a counter register starts. -/
def cntOff (hi : Bool) : Nat := if hi then 32 else 0

theorem cntOff_le (hi : Bool) : cntOff hi + 32 ≤ 64 := by cases hi <;> decide

theorem cntOff_disjoint (hi : Bool) : cntOff hi + 32 ≤ cntOff (!hi) ∨ cntOff (!hi) + 32 ≤ cntOff hi := by cases hi <;> decide

/-- An advance by more than 0 stores the saturated sum. -/
theorem State.bump_of_pos (s : State) (a : Nat) (hi : Bool) {n : Nat} (hn : n ≠ 0) :
    s.bump a hi n = s.setRf a (cntOff hi) 32 (satAdd32 (s.rf a (cntOff hi) 32) n) := if_neg hn

@[simp] theorem State.bump_zero (s : State) (a : Nat) (hi : Bool) : s.bump a hi 0 = s := rfl

theorem satAdd32_lt (old n : Nat) : satAdd32 old n < 2 ^ 32 := by rw [satAdd32]; omega

/-- Saturating sums add up: the order and the grouping of advances do not matter. -/
theorem satAdd32_satAdd32 (old n m : Nat) : satAdd32 (satAdd32 old n) m = satAdd32 old (n + m) := by
  simp only [satAdd32]; omega

theorem State.bump_regsOk {s : State} (a : Nat) (hi : Bool) (n : Nat) (h : RegsOk s) : RegsOk (s.bump a hi n) := by
  by_cases hn : n = 0
  · rwa [hn, State.bump_zero]
  · rw [State.bump_of_pos s a hi hn]; exact State.setRf_regsOk a _ _ _ h

/-- The counter that advances holds the saturated sum. -/
theorem State.rf_bump_same {s : State} (a : Nat) (hi : Bool) (n : Nat) (h : RegsOk s) :
    (s.bump a hi n).rf a (cntOff hi) 32 = satAdd32 (s.rf a (cntOff hi) 32) n := by
  by_cases hn : n = 0
  · have hlt := s.rf_lt a (cntOff hi) 32
    rw [hn, State.bump_zero, satAdd32]; omega
  · rw [State.bump_of_pos s a hi hn, State.rf_setRf_same a _ h (cntOff_le hi), Nat.mod_eq_of_lt (satAdd32_lt _ _)]

/-- The other counter of the register keeps its value. -/
theorem State.rf_bump_other {s : State} (a : Nat) (hi : Bool) (n : Nat) (h : RegsOk s) :
    (s.bump a hi n).rf a (cntOff (!hi)) 32 = s.rf a (cntOff (!hi)) 32 := by
  by_cases hn : n = 0
  · rw [hn, State.bump_zero]
  · rw [State.bump_of_pos s a hi hn, State.rf_setRf_other a _ h (cntOff_le _) (cntOff_disjoint hi)]

/-- Every other register keeps its value. -/
theorem State.reg_bump_other {s : State} {a b : Nat} (hi : Bool) (n : Nat) (h : RegsOk s) (hb : b ≠ a) :
    (s.bump a hi n).reg b = s.reg b := by
  by_cases hn : n = 0
  · rw [hn, State.bump_zero]
  · rw [State.bump_of_pos s a hi hn, State.reg_setRf_other _ _ _ h hb]

/-- Advances by several units add up. -/
theorem State.rf_bump_bump {s : State} (a : Nat) (hi : Bool) (n m : Nat) (h : RegsOk s) :
    ((s.bump a hi n).bump a hi m).rf a (cntOff hi) 32 = satAdd32 (s.rf a (cntOff hi) 32) (n + m) := by
  rw [State.rf_bump_same a hi m (State.bump_regsOk a hi n h), State.rf_bump_same a hi n h, satAdd32_satAdd32]

/-! ### Writes to a counter -/

/-- A writer that has no path to a register changes nothing (R542). -/
theorem State.regWrite_of_pathClosed {s : State} {who : Writer} {p : RegPlace} (a : Nat) (v : W64)
    (h : s.pathOpen who p = false) : s.regWrite who a v p = s := by
  simp [State.regWrite, h]

/-- Outside the SEC_ page every writer has a path. -/
theorem State.pathOpen_of_ne_sec (s : State) (who : Writer) {p : RegPlace} (h : ∀ o, p ≠ .sec o) : s.pathOpen who p = true := by
  cases p with
  | sec o => exact absurd rfl (h o)
  | _ => rfl

/-- A write with a path to a write-1-to-clear register clears the bits written as 1 and no others. -/
theorem State.regWrite_w1c {s : State} {who : Writer} {p : RegPlace} {m : W64} (a : Nat) (v : W64)
    (h : s.pathOpen who p = true) (hk : p.kind = .w1c m) :
    s.regWrite who a v p = s.setReg a (s.reg a &&& ~~~(v &&& m)) := by
  simp [State.regWrite, h, hk]

/-- The word that writes 0xFFFF_FFFF to one counter of a register and 0 to the other. -/
def cntOnes (hi : Bool) : W64 := BitVec.ofNat 64 ((2 ^ 32 - 1) * 2 ^ cntOff hi)

/-- A write of 0xFFFF_FFFF to a counter stores 0 in it, where the writer has a path to the register (R54, R542). -/
theorem State.regWrite_cntOnes {s : State} {who : Writer} {p : RegPlace} (a : Nat) (hi : Bool)
    (h : s.pathOpen who p = true) (hk : p.kind = cntBoth ∨ (p.kind = cntLow ∧ hi = false)) :
    s.regWrite who a (cntOnes hi) p = s.setRf a (cntOff hi) 32 0 := by
  have hmask : ∃ m, p.kind = .w1c m ∧ cntOnes hi &&& m = cntOnes hi := by
    obtain hk | ⟨hk, rfl⟩ := hk
    · exact ⟨_, hk, by cases hi <;> decide⟩
    · exact ⟨_, hk, by decide⟩
  obtain ⟨m, hm, hand⟩ := hmask
  rw [State.regWrite_w1c a _ h hm, hand, State.setRf]
  simp [setFld, cntOnes]

/-- What O7 says of a clearing write, under the premise that it lacks. -/
theorem State.regWrite_clears_counter {s : State} {who : Writer} {p : RegPlace} (a : Nat) (hi : Bool) (hs : RegsOk s)
    (h : s.pathOpen who p = true) (hk : p.kind = cntBoth ∨ (p.kind = cntLow ∧ hi = false)) :
    (s.regWrite who a (cntOnes hi) p).rf a (cntOff hi) 32 = 0 ∧
    (s.regWrite who a (cntOnes hi) p).rf a (cntOff (!hi)) 32 = s.rf a (cntOff (!hi)) 32 ∧
    ∀ b, b ≠ a → (s.regWrite who a (cntOnes hi) p).reg b = s.reg b := by
  rw [State.regWrite_cntOnes a hi h hk]
  exact ⟨State.rf_setRf_same a 0 hs (cntOff_le hi), State.rf_setRf_other a 0 hs (cntOff_le _) (cntOff_disjoint hi),
    fun b hb => State.reg_setRf_other _ _ _ hs hb⟩

/-! ### The clearing write of a writer without a path -/

/-- After reset, with one refused command counted in SEC_CNT0. -/
def secCounted : State := State.reset.setReg (rSecCnt 0) 1

theorem secCounted_regsOk : RegsOk secCounted := State.setReg_regsOk _ _ rfl

theorem rf_secCounted : secCounted.rf (rSecCnt 0) 0 32 = 1 := by decide

/-- The counterexample's place is that of its address. -/
theorem regPlace_rSecCnt : regPlace (rSecCnt 0) = some (.sec 0x10) := by decide

theorem kind_secCnt : (RegPlace.sec 0x10).kind = cntBoth := by decide

/-- The companion has no path to the SEC_ page (R542). -/
theorem State.pathOpen_companion_sec (s : State) (o : Nat) : s.pathOpen .companion (.sec o) = false := rfl

/-- Refutes O7: its clause on the clearing write ranges over every writer, and the companion has no path to the SEC_ page (R542),
so its write of 0xFFFF_FFFF leaves the 1 that SEC_CNT0 holds. -/
theorem not_countersSaturate : ¬ Obligations.CountersSaturate := by
  unfold Obligations.CountersSaturate
  intro h
  obtain ⟨-, -, -, -, -, -, -, hclear, -⟩ := h secCounted (rSecCnt 0) 0 0 secCounted_regsOk
  obtain ⟨hzero, -, -⟩ := hclear .companion (.sec 0x10) (.inl kind_secCnt)
  rw [State.regWrite_of_pathClosed _ _ (State.pathOpen_companion_sec _ _), rf_secCounted] at hzero
  exact absurd hzero (by decide)

end Sys2Proof.Machine
end

section
/-! Recipes (spec/11_recipes.md): the laws of the sequencer's registers, of a step that issues or is skipped and of starts, and the
settlement of O9, O11, O25 and O26. -/
namespace Sys2Proof.Machine

/-! ### Scalar and predicate registers -/

theorem SeqSt.getX_eq (q : SeqSt) (i : Nat) : q.getX i = q.x[i]?.getD 0 := by simp [SeqSt.getX, nth]

@[simp] theorem SeqSt.getX_setX_same (q : SeqSt) {i : Nat} (v : W64) (h : i < 32) : (q.setX i v).getX i = v := by
  rw [SeqSt.getX_eq, SeqSt.setX, Vector.getElem?_setIfInBounds_self_of_lt h]
  rfl

@[simp] theorem SeqSt.getP_setP_same (q : SeqSt) {i : Nat} (b : Bool) (h : i < 8) : (q.setP i b).getP i = b := by
  rw [SeqSt.getP, SeqSt.setP, getLsbD_setFld _ _ _ _ _ h, if_pos (by omega), Nat.sub_self]
  cases b <;> rfl

theorem W.aXD_lt (w : StepWord) : W.aXD w < 32 := fld_lt w 107 5
theorem W.aPD_lt (w : StepWord) : W.aPD w < 8 := fld_lt w 94 3

/-! ### The sequencer goes on -/

/-- Going on to another step moves PC, and changes no register and no flag of the core and no waiting start. -/
theorem State.advancePc_seq (s : State) (c : Core) (pc : BitVec 20) (issued : Bool) :
    ((s.advancePc c pc issued).seq c).pc = pc ∧ ((s.advancePc c pc issued).seq c).x = (s.seq c).x ∧
    ((s.advancePc c pc issued).seq c).p = (s.seq c).p ∧ ((s.advancePc c pc issued).seq c).l = (s.seq c).l ∧
    ((s.advancePc c pc issued).seq c).t = (s.seq c).t ∧ ((s.advancePc c pc issued).seq c).f = (s.seq c).f ∧
    ((s.advancePc c pc issued).seq c).starts = (s.seq c).starts := by
  simp [State.advancePc]

@[simp] theorem State.advancePc_regs (s : State) (c : Core) (pc : BitVec 20) (issued : Bool) :
    (s.advancePc c pc issued).regs = s.regs := rfl

/-- What a scalar step leaves where no unit waits: the registers of the block, and X and P as its own effect has them. -/
theorem stepDone_onSeq_registers {s : State} {c : Core} {f : SeqSt → SeqSt} (pc : BitVec 20) (h : UnitsQuiet s c)
    (he : (f (s.seq c)).ending = none) :
    (stepDone (s.onSeq c f) c pc).regs = s.regs ∧ ((stepDone (s.onSeq c f) c pc).seq c).x = (f (s.seq c)).x ∧
    ((stepDone (s.onSeq c f) c pc).seq c).p = (f (s.seq c)).p := by
  obtain ⟨-, hx, hp, -⟩ := (s.onSeq c f).advancePc_seq c pc true
  rw [stepDone_onSeq h he]
  exact ⟨rfl, by rw [hx, State.onSeq_seq], by rw [hp, State.onSeq_seq]⟩

/-! ### ALU and PLOG (R336) -/

/-- A shift count is bits [5:0] of B. -/
theorem shiftCount_eq (b : W64) : b.toNat % 64 = fld b 0 6 := by simp [fld]

theorem aluFn_sub_toNat (a b : W64) : (aluFn 1 a b).toNat = (a.toNat + 2 ^ 64 - b.toNat) % 2 ^ 64 := by
  have hb := b.isLt
  rw [aluFn, BitVec.toNat_sub]
  congr 1
  omega

theorem aluFn_shl_toNat (a b : W64) : (aluFn 5 a b).toNat = a.toNat * 2 ^ fld b 0 6 % 2 ^ 64 := by
  rw [aluFn, shiftCount_eq, BitVec.toNat_shiftLeft, Nat.shiftLeft_eq]

theorem aluFn_shr_toNat (a b : W64) : (aluFn 6 a b).toNat = a.toNat / 2 ^ fld b 0 6 := by
  rw [aluFn, shiftCount_eq, BitVec.toNat_ushiftRight, Nat.shiftRight_eq_div_pow]

theorem aluFn_sar_toInt (a b : W64) : (aluFn 7 a b).toInt = a.toInt / 2 ^ fld b 0 6 := by
  rw [aluFn, shiftCount_eq, BitVec.toInt_sshiftRight, Int.shiftRight_eq_div_pow]
  norm_cast

theorem aluFn_min_toInt (a b : W64) : (aluFn 9 a b).toInt = min a.toInt b.toInt := by
  simp only [aluFn]
  split <;> omega

theorem aluFn_max_toInt (a b : W64) : (aluFn 10 a b).toInt = max a.toInt b.toInt := by
  simp only [aluFn]
  split <;> omega

/-- A ready ALU step changes no register of the block, and leaves the result of its SUB in XD. -/
theorem exec_alu_ready {s : State} {c : Core} {w : StepWord} (h : StepReady s c w) (hq : UnitsQuiet s c) (ho : W.opcode w = 0xA0) :
    ∃ t, exec (.alu c w) s = .next t ∧ t.regs = s.regs ∧
      (t.seq c).getX (W.aXD w) = aluFn (W.aSUB w) ((s.seq c).getX (W.aXA w)) ((s.seq c).opB w) := by
  have hdone := stepCmd_ok h (issueAny_alu ho) (nextPc_plain (by omega) (by omega) (by omega))
  obtain ⟨hregs, hx, -⟩ := stepDone_onSeq_registers ((s.seq c).pc + 1) hq (f := fun q =>
    q.setX (W.aXD w) (aluFn (W.aSUB w) (q.getX (W.aXA w)) (q.opB w))) (stepReady_ending h)
  refine ⟨_, by rw [exec_alu, execAlu, ho]; exact hdone, hregs, ?_⟩
  rw [SeqSt.getX, hx]
  exact SeqSt.getX_setX_same _ _ (W.aXD_lt w)

/-- A ready PLOG step leaves the result of its SUB in PD. -/
theorem exec_plog_ready {s : State} {c : Core} {w : StepWord} (h : StepReady s c w) (hq : UnitsQuiet s c) (ho : W.opcode w = 0xA3) :
    ∃ t, exec (.plog c w) s = .next t ∧ (t.seq c).getP (W.aPD w) =
      plogFn (W.aSUB w) ((s.seq c).getP (W.imm w % 8)) ((s.seq c).getP (W.imm w / 8 % 8)) := by
  have hdone := stepCmd_ok h (issueAny_plog ho) (nextPc_plain (by omega) (by omega) (by omega))
  obtain ⟨-, -, hp⟩ := stepDone_onSeq_registers ((s.seq c).pc + 1) hq (f := fun q =>
    q.setP (W.aPD w) (plogFn (W.aSUB w) (q.getP (W.imm w % 8)) (q.getP (W.imm w / 8 % 8)))) (stepReady_ending h)
  refine ⟨_, by rw [exec_plog, execPlog, ho]; exact hdone, ?_⟩
  rw [SeqSt.getP, hp]
  exact SeqSt.getP_setP_same _ _ (W.aPD_lt w)

/-- Settles O9: the step leaves the model's function of its sources in its destination, and each SUB of the function is the
arithmetic that R336 and Table 11-12 give. -/
theorem aluResults : Obligations.AluResults := by
  unfold Obligations.AluResults
  intro s c w h hq
  constructor
  · intro ho
    obtain ⟨t, hexec, hregs, hx⟩ := exec_alu_ready h hq ho
    refine ⟨t, hexec, hregs, ?_⟩
    rw [hx]
    refine ⟨?add, ?sub, ?and, ?or, ?xor, ?shl, ?shr, ?sar, ?mul, ?min, ?max⟩ <;> intro hsub <;> rw [hsub]
    case add => exact BitVec.toNat_add _ _
    case sub => exact aluFn_sub_toNat _ _
    case and => exact fun _ => BitVec.getLsbD_and
    case or => exact fun _ => BitVec.getLsbD_or
    case xor => exact fun _ => BitVec.getLsbD_xor
    case shl => exact aluFn_shl_toNat _ _
    case shr => exact aluFn_shr_toNat _ _
    case sar => exact aluFn_sar_toInt _ _
    case mul => exact BitVec.toNat_mul _ _
    case min => exact aluFn_min_toInt _ _
    case max => exact aluFn_max_toInt _ _
  · intro ho
    obtain ⟨t, hexec, hp⟩ := exec_plog_ready h hq ho
    refine ⟨t, hexec, ?_⟩
    rw [hp]
    exact ⟨fun hset => by rw [hset]; rfl, fun hclear => by rw [hclear]; rfl⟩

/-! ### A step command of its own row -/

/-- The command, where it is well formed, is an attempt to issue step word w on core c. -/
def IssuesStep (c : Core) (w : StepWord) (i : Instr) : Prop :=
  i.wf = true → ∀ s : State, exec i s = s.live (s.stepCmd c w true)

/-- A well-formed command's step word holds the opcode of its row, as the sequencer reads it. -/
theorem opcode_of_wf {i : Instr} {w : StepWord} {op : Nat} (hs : i.step? = some (w, op)) (hwf : i.wf = true) : W.opcode w = op := by
  have hw := w.isLt
  simp only [Instr.wf, Instr.opcodeOk, hs, Bool.and_eq_true, beq_iff_eq] at hwf
  obtain ⟨hop, -⟩ := hwf
  rw [← hop, wordOpcode, W.opcode, fld]
  omega

/-- A row that an opcode tells from the others. -/
theorem issuesStep_of_opcode {c : Core} {w : StepWord} {i : Instr} {op : Nat} (hs : i.step? = some (w, op))
    (hx : ∀ s : State, exec i s = s.live (s.stepCmd c w (W.opcode w == op))) : IssuesStep c w i := by
  intro hwf s
  rw [hx, opcode_of_wf hs hwf, beq_self_eq_true]

/-- A row of OSM, which FUNC tells from the other two (R328). -/
theorem issuesStep_of_func {c : Core} {w : StepWord} {i : Instr} {func : Nat} (hs : i.step? = some (w, 0x43))
    (hf : i.sizeOk = funcOk w func) (hx : ∀ s : State, exec i s = s.live (s.stepCmd c w (isOsm w func))) : IssuesStep c w i := by
  intro hwf s
  have hop := opcode_of_wf hs hwf
  have hfunc : funcOk w func = true := by
    rw [Instr.wf, Bool.and_eq_true, hf] at hwf
    exact hwf.2
  have hosm : isOsm w func = true := by simpa [isOsm, hop, funcOk, W.fn, fld] using hfunc
  rw [hx, hosm]

/-- Every row of Tables 11-6 to 11-13. -/
theorem stepRows_issuesStep (c : Core) (w : StepWord) : ∀ i ∈ stepRows c w, IssuesStep c w i := by
  have osm : IssuesStep c w (.osmUpdate c w) ∧ IssuesStep c w (.osmRescale c w) ∧ IssuesStep c w (.osmFinal c w) :=
    ⟨issuesStep_of_func rfl rfl fun _ => rfl, issuesStep_of_func rfl rfl fun _ => rfl, issuesStep_of_func rfl rfl fun _ => rfl⟩
  obtain ⟨hupdate, hrescale, hfinal⟩ := osm
  simp only [stepRows, List.forall_mem_cons, hupdate, hrescale, hfinal, true_and, List.not_mem_nil, false_implies,
    implies_true, and_true]
  and_intros
  all_goals exact issuesStep_of_opcode rfl fun _ => rfl

/-! ### Skipped steps (R343) -/

/-- A step whose predicate does not match, and that nothing holds or rejects before, counts as skipped and the sequencer goes on. -/
theorem State.attempt_skipped {s : State} {c : Core} {w : StepWord} (hd : decodeBad w = none)
    (hp : (namedP w).any (s.core c).pendingP.contains = false) (ht : (s.core c).trk.length ≤ 8) (hq : (s.seq c).predicate w = false) :
    s.attempt c w = (s.bumpLo (rSeqCnt c 1) 1).advancePc c ((s.seq c).pc + 1) false := by
  simp [State.attempt, hd, hp, hq, Nat.not_lt.2 ht]

/-- Settles O11: the command is an attempt of its word, which is skipped; only SKIPPED and the sequencer's place change. -/
theorem skippedStepsDoNothing : Obligations.SkippedStepsDoNothing := by
  unfold Obligations.SkippedStepsDoNothing
  intro s c w i hl hr hi hwf hm hd hp ht hq
  have hexec : exec i s = .next ((s.bumpLo (rSeqCnt c 1) 1).advancePc c ((s.seq c).pc + 1) false) := by
    rw [stepRows_issuesStep c w i hi hwf, State.live_of_running hl, State.stepCmd, if_pos (by rfl), if_pos hm,
      State.attempt_skipped hd hp ht hq]
  obtain ⟨hpc, hx, hpr, hlc, hdesc, hf, hst⟩ := (s.bumpLo (rSeqCnt c 1) 1).advancePc_seq c ((s.seq c).pc + 1) false
  simp only [State.bumpLo_seq] at hx hpr hlc hdesc hf hst
  refine ⟨_, hexec, hpc, State.rf_bump_same _ false 1 hr, State.rf_bump_other _ false 1 hr,
    fun a ha => State.reg_bump_other false 1 hr ha, ?mem, ?queues, ?other, ?units, hx, hpr, hlc, hdesc, hf, hst⟩
  case mem => simp [State.advancePc]
  case queues => simp [State.advancePc]
  case other => exact fun d hdc => by rw [State.advancePc, State.onSeq_core_other _ _ hdc, State.bumpLo_core]
  case units => simp [State.advancePc, State.seq]

/-! ### Taking a start (R317) -/

/-- The sequencer once it has taken start r, with `rest` still waiting, in the pitch of number `pitch` on the device of CORE_SELF `self`. -/
def SeqSt.started (q : SeqSt) (r : StartReq) (rest : List StartReq) (pitch self : W64) : SeqSt :=
  { q with st := .running, starts := rest, x := ((q.x.set 1 r.arg).set 2 pitch).set 3 self, p := 0, l := Vector.replicate 8 0
           pc := BitVec.ofNat 20 r.addr, stall := none, ending := none }

/-- X1 to X3 of a start, and every other X as it was. -/
theorem SeqSt.started_getX (q : SeqSt) (r : StartReq) (rest : List StartReq) (pitch self : W64) (k : Nat) :
    (q.started r rest pitch self).getX k = if k = 1 then r.arg else if k = 2 then pitch else if k = 3 then self else q.getX k := by
  obtain rfl | rfl | rfl | ⟨h1, h2, h3⟩ : k = 1 ∨ k = 2 ∨ k = 3 ∨ (1 ≠ k ∧ 2 ≠ k ∧ 3 ≠ k) := by omega
  · simp [SeqSt.getX_eq, SeqSt.started]
  · simp [SeqSt.getX_eq, SeqSt.started]
  · simp [SeqSt.getX_eq, SeqSt.started]
  · simp [SeqSt.getX_eq, SeqSt.started, h1, h2, h3, h1.symm, h2.symm, h3.symm]

theorem SeqSt.started_getL (q : SeqSt) (r : StartReq) (rest : List StartReq) (pitch self : W64) (k : Nat) :
    (q.started r rest pitch self).getL k = 0 := by
  simp only [SeqSt.getL, SeqSt.started, nth, Vector.toList_replicate, List.getElem?_replicate]
  split <;> rfl

/-- The generator of a core after a start: loaded where the start names a seed (R45). -/
def State.reseed (s : State) (c : Core) : Option W32 → State
  | none => s
  | some g => s.setGen c (startSeed s.devId c g)

@[simp] theorem State.reseed_core (s : State) (c d : Core) (g : Option W32) : (s.reseed c g).core d = s.core d := by cases g <;> rfl
@[simp] theorem State.reseed_seq (s : State) (c d : Core) (g : Option W32) : (s.reseed c g).seq d = s.seq d := by cases g <;> rfl
@[simp] theorem State.reseed_mem (s : State) (c : Core) (g : Option W32) : (s.reseed c g).mem = s.mem := by cases g <;> rfl

/-- The value that R45 loads, with 2 ^ 8 written as the statement has it. -/
theorem startSeed_toNat (dev : BitVec 16) (c : Core) (g : W32) :
    (startSeed dev c g).toNat = if g ^^^ BitVec.ofNat 32 (dev.toNat * 2 ^ 8) ^^^ BitVec.ofNat 32 c.val = 0 then 0x9E3779B9
      else (g ^^^ BitVec.ofNat 32 (dev.toNat * 2 ^ 8) ^^^ BitVec.ofNat 32 c.val).toNat :=
  apply_ite BitVec.toNat ..

/-- A reseed loads the generator and leaves every other register. -/
theorem State.reseed_some_regs {s : State} (c : Core) (g : W32) (h : RegsOk s) :
    (s.reseed c (some g)).rf (rSrstate c) 0 32 = (startSeed s.devId c g).toNat ∧
    ∀ a, a ≠ rSrstate c → (s.reseed c (some g)).reg a = s.reg a :=
  ⟨(State.rf_setRf_same _ _ h (by decide)).trans (Nat.mod_eq_of_lt (startSeed s.devId c g).isLt),
    fun _ ha => State.reg_setRf_other _ _ _ h ha⟩

/-- The state in which core c has taken start r. -/
def State.startTaken (s : State) (c : Core) (r : StartReq) (rest : List StartReq) : State :=
  (s.setSeq c ((s.seq c).started r rest (BitVec.ofNat 64 (s.tb.pitch % 2 ^ 48)) (s.full 0))).reseed c r.seed

/-- The sequencer of a core that is on takes the oldest start while it is IDLE and enabled (R318). -/
theorem exec_startTake_idle {s : State} {c : Core} {r : StartReq} {rest : List StartReq} (hl : Live s)
    (hs : (s.seq c).starts = r :: rest) (hi : (s.seq c).st = .idle) (hu : (s.core c).getUnit 12 = .enabled) (ho : s.coreOn c = true) :
    exec (.startTake c) s = .next (s.startTaken c r rest) := by
  rw [exec_startTake, execStartTake, State.live_of_running hl]
  simp only [hs, hi, hu, ho, beq_self_eq_true, Bool.and_self, if_true, State.startTaken, SeqSt.started]
  cases r.seed <;> rfl

/-- A sequencer that is not IDLE takes no start. -/
theorem exec_startTake_busy {s : State} {c : Core} (hl : Live s) (hi : (s.seq c).st ≠ .idle) :
    exec (.startTake c) s = .next s := by
  rw [exec_startTake, execStartTake, State.live_of_running hl]
  dsimp only
  split
  · rfl
  · simp [hi]

theorem State.startTaken_seq (s : State) (c : Core) (r : StartReq) (rest : List StartReq) :
    (s.startTaken c r rest).seq c = (s.seq c).started r rest (BitVec.ofNat 64 (s.tb.pitch % 2 ^ 48)) (s.full 0) := by
  rw [State.startTaken, State.reseed_seq]
  exact State.onSeq_seq s c fun _ => _

theorem State.startTaken_core_other (s : State) {c d : Core} (r : StartReq) (rest : List StartReq) (h : d ≠ c) :
    (s.startTaken c r rest).core d = s.core d := by
  rw [State.startTaken, State.reseed_core]
  exact State.onCore_core_other s _ h

/-- Settles O25: what the sequencer holds once it has taken the start, and what the reseed does to the registers. -/
theorem startTakeSetsTheRegisters : Obligations.StartTakeSetsTheRegisters := by
  unfold Obligations.StartTakeSetsTheRegisters
  intro s c r rest hl hs hi hu ho
  refine ⟨_, exec_startTake_idle hl hs hi hu ho, ?seq, ?unseeded, ?seeded, by simp [State.startTaken, State.setSeq],
    fun d hd => s.startTaken_core_other r rest hd⟩
  case seq =>
    rw [State.startTaken_seq]
    refine ⟨rfl, rfl, rfl, ?x1, ?x2, ?x3, rfl, SeqSt.started_getL _ _ _ _ _, fun k h1 h2 h3 => ?others, rfl, rfl⟩
    case x1 => simp [SeqSt.started_getX]
    case x2 => simp [SeqSt.started_getX]
    case x3 => simp [SeqSt.started_getX, State.full]
    case others => simp [SeqSt.started_getX, h1, h2, h3]
  case unseeded =>
    intro hn
    rw [State.startTaken, hn]
    rfl
  case seeded =>
    intro g hg hr
    obtain ⟨hgen, hother⟩ := State.reseed_some_regs (s := s.setSeq c ((s.seq c).started r rest
      (BitVec.ofNat 64 (s.tb.pitch % 2 ^ 48)) (s.full 0))) c g hr
    rw [State.startTaken, hg]
    exact ⟨hgen.trans (startSeed_toNat _ _ _), hother⟩

/-! ### Start requests (R318) -/

/-- A request that nothing refuses waits behind those already held. -/
theorem State.requestStart_queued {s : State} {c : Core} (src : Nat) (r : StartReq) (hn : (s.seq c).starts.length < 4)
    (hf : (s.seq c).st ≠ .faulted) (hu : (s.core c).getUnit 12 = .enabled) (ho : s.coreOn c = true) :
    s.requestStart c src r = s.onSeq c (fun q => { q with starts := q.starts ++ [r] }) := by
  simp only [State.seq] at hn hf
  simp [State.requestStart, hf, hu, ho, Nat.not_le.2 hn]

/-- A request that finds four held, a FAULTED sequencer or a unit that is not enabled is refused. -/
theorem State.requestStart_refused {s : State} {c : Core} (src : Nat) (r : StartReq)
    (h : 4 ≤ (s.seq c).starts.length ∨ (s.seq c).st = .faulted ∨ (s.core c).getUnit 12 ≠ .enabled) :
    s.requestStart c src r = (s.bumpHi (rSeqCnt c 2) 1).raise fStartLost 7 c.val [c.val, src, r.addr] := by
  simp only [State.seq] at h
  obtain hn | hf | hu := h
  · simp [State.requestStart, hn]
  · simp [State.requestStart, hf]
  · simp [State.requestStart, hu]

/-- A record changes at most the flags of a sequencer. -/
theorem Recorded.seq_but_flags {s t : State} (h : Recorded s t) (d : Core) : { t.seq d with f := (s.seq d).f } = s.seq d := by
  obtain ⟨f, hf⟩ := h.core d
  simp only [State.seq, hf]

/-- Writing 1 to CLEAR_FAULT of a FAULTED sequencer leaves it IDLE and keeps the starts that wait (R318, R352). -/
theorem exec_clearFault_faulted {s : State} {c : Core} (v : W64) (hl : Live s) (ho : s.powered c.val = true)
    (hf : (s.seq c).st = .faulted) :
    ∃ t, exec (.clearFault c v) s = .next t ∧ (t.seq c).st = .idle ∧ (t.seq c).starts = (s.seq c).starts := by
  have hbit : bitOf (setFld v 16 1 1) 16 = true := by rw [bitOf, getLsbD_setFld _ _ _ _ _ (by decide)]; rfl
  refine ⟨_, by rw [exec_clearFault, execClearFault, State.live_of_running hl, State.ifOn_powered ho], ?_⟩
  simp [State.seqCtlWrite, hbit, hf]

theorem State.powered_of_coreOn {s : State} {c : Core} (h : s.coreOn c = true) : s.powered c.val = true := by
  simp only [State.coreOn, State.domOn, Bool.and_eq_true] at h
  exact h.1.1

/-- Settles O26: a request is queued or refused by the state of the core, and a start is taken while the sequencer is IDLE and kept
while it is FAULTED. -/
theorem startRequestsRefused : Obligations.StartRequestsRefused := by
  unfold Obligations.StartRequestsRefused
  intro s c src r
  refine ⟨fun ⟨hn, hf, hu, ho⟩ => State.requestStart_queued src r hn hf hu ho, fun h => ?refused, fun hl rest hs hu ho => ⟨?idle, ?faulted⟩⟩
  case refused =>
    have hrec := State.requestStart_refused src r h
    refine ⟨hrec, fun d => ?_⟩
    rw [hrec]
    exact ((s.bumpHi_recorded _ 1).trans (State.raise_recorded _ _ _ _ _)).seq_but_flags d
  case idle =>
    intro hi
    exact ⟨_, exec_startTake_idle hl hs hi hu ho, by rw [State.startTaken_seq]; exact ⟨rfl, rfl, rfl⟩⟩
  case faulted =>
    intro hf
    exact ⟨exec_startTake_busy hl (by simp [hf]), fun v => exec_clearFault_faulted v hl (State.powered_of_coreOn ho) hf⟩

end Sys2Proof.Machine
end

section
/-! The block as a whole: the queue of commands, which outcomes a command can have, and a device that a thermal trip has stopped. The
settlement of O1, O2, O3 and O4. -/
namespace Sys2Proof.Machine

/-! ### The front of the queue -/

/-- Settles O1: a step is exec of the command at the front, by definition, and idles where there is none. -/
theorem stepRunsTheFront : Obligations.StepRunsTheFront := by
  unfold Obligations.StepRunsTheFront
  refine ⟨fun s i rest => rfl, fun s hs => ?_⟩
  rw [step, hs]

theorem step_of_pending {s : State} {i : Instr} {rest : List Instr} (h : s.pending = i :: rest) :
    step s = exec i { s with pending := rest } := by
  rw [step, h]

/-! ### A word of another row -/

/-- The opcode of a word, as the sequencer and as the command's form read it. -/
theorem W.opcode_eq_wordOpcode (w : StepWord) : W.opcode w = wordOpcode w := by
  have hw := w.isLt
  rw [W.opcode, fld, wordOpcode]
  omega

/-- A step command whose word holds a known opcode that its row does not have is refused. -/
theorem State.stepCmd_refused {s : State} {c : Core} {w : StepWord} {mine : Bool} (hm : mine = false)
    (hk : opcodeKnown (W.opcode w) = true) : s.stepCmd c w mine = .refused .illFormed := by
  simp [State.stepCmd, hm, hk]

/-- Settles O3: every step row hands its word to stepCmd, which compares the opcode with the row's. -/
theorem otherRowsWordRefused : Obligations.OtherRowsWordRefused := by
  unfold Obligations.OtherRowsWordRefused
  intro s i w op hl hs hk hne
  rw [← W.opcode_eq_wordOpcode] at hk hne
  have refuse {c : Core} {mine : Bool} (hm : mine = false) : s.live (s.stepCmd c w mine) = .refused .illFormed := by
    rw [State.live_of_running hl, State.stepCmd_refused hm hk]
  cases i <;> cases hs
  case osmUpdate | osmRescale | osmFinal => exact refuse (by simp [isOsm, hne])
  all_goals exact refuse (by simpa using hne)

/-! ### Every command answers -/

/-- The outcome is a next state. -/
def Answers (o : Host.Outcome State Fault Refusal) : Prop := ∃ t, o = .next t

theorem answers_next (t : State) : Answers (.next t) := ⟨t, rfl⟩

/-- A trip answers with the state as it is, so it never takes an answer away (R673). -/
theorem State.answers_live (s : State) {o : Host.Outcome State Fault Refusal} (h : Answers o) : Answers (s.live o) := by
  cases htrip : s.pwr.trip
  · rwa [State.live_of_running htrip]
  · exact ⟨s, State.live_of_trip htrip⟩

/-- An attempt of a step word by its own row is an answer. -/
theorem State.stepCmd_answers (s : State) (c : Core) (w : StepWord) : Answers (s.stepCmd c w true) := answers_next _

/-- Every event answers: each branch of its meaning gives a next state. -/
theorem exec_event_answers (i : Instr) (s : State) (h : i.step? = none) : Answers (exec i s) := by
  cases i <;> cases h
  all_goals dsimp only [exec,
    execLoadBegin, execLoadDone, execFeedStart, execFillWatchdog, execDispResume, execSieveJobStart, execMergeTileClose,
    execTileOutputWrite, execBelayStageReady, execBelayCreditGrant, execBelayRowReceive, execBelayTimeout,
    execStartTake, execStreamAdmit, execGovernorRun, execTopoXdispCount, execXdCountReceive, execXdRowReceive,
    execTopoXdispReturn, execXdReturnReceive, execMemGrant, execMemPreempt, execNmgRun, execNmgDone, execSyncInEdge,
    execTimeLock, execRefLost, execHoldoverExpiry, execTimeRequest, execTimeRequestReceive, execTimeReply,
    execSyncOutPulse, execPitchStart, execTopoStart, execTopoSwap, execTopoLinkwin, execLinkwinEnd, execTopoColl,
    execTopoCalwin, execTopoDeadline, execTopoSleep, execTopoHeart, execTopoEpoch, execFlitReceive, execRetryRequest,
    execAckTimeout, execRecordClose, execSealReceive, execPacketForward, execPktWrite, execPktRead, execPktResponse,
    execLinkDown, execLinkRetrainTimer, execTrainingDone, execTrainingTimeout, execLinkKeying, execWakeDet,
    execCollTimeout, execCollEnd, execNzKeying, execImageRead, execImageReadDone, execFlashCmdDone, execLardWriteDone,
    execNonceExpiry, execTrngFail, execHeartbeatReceive, execAttachWaitExpiry, execAttachMsg, execResyncDone,
    execRejoinPitch, execDetachAck, execPairDetach, execReleasePitch, execDomainQuery, execDelayLimExpiry,
    execPwrCommit, execSaveDone, execOffStep, execAvsAck, execAvsTimeout, execWakePitch, execWatchSample, execWakeStep,
    execRestoreDone, execUngate, execThermalStep, execBistDone, execRegisterWrite, execSecCmdDone]
  all_goals first | exact answers_next _ | refine State.answers_live _ ?_ | skip
  all_goals repeat' split
  all_goals exact answers_next _

/-- Every step command in the rows of Tables 11-6 to 11-13. -/
theorem mem_stepRows_of_step {i : Instr} {w : StepWord} {op : Nat} (h : i.step? = some (w, op)) : ∃ c, i ∈ stepRows c w := by
  cases i <;> cases h
  all_goals exact ⟨‹Core›, by simp [stepRows]⟩

/-- Settles O2: an event by its meaning, a step because its word is its own row's. -/
theorem everyCommandAnswers : Obligations.EveryCommandAnswers := by
  unfold Obligations.EveryCommandAnswers
  intro s i hwf
  cases hs : i.step? with
  | none => exact exec_event_answers i s hs
  | some p =>
    obtain ⟨w, op⟩ := p
    obtain ⟨c, hrow⟩ := mem_stepRows_of_step hs
    rw [stepRows_issuesStep c w i hrow hwf]
    exact s.answers_live (s.stepCmd_answers c w)

/-! ### After a thermal trip (R673) -/

/-- The commands that act after a thermal trip: the pins, the supply, the larder write under way and the trip itself. -/
def actsAfterTrip : Instr → Bool
  | .porNAssert | .resetNAssert | .vddAonLow | .lardWriteDone | .thermtrip _ => true
  | _ => false

/-- Every other command leaves the state as it is. -/
theorem exec_of_trip {i : Instr} {s : State} (h : s.pwr.trip = true) (hi : actsAfterTrip i = false) : exec i s = .next s := by
  cases i
  case porNAssert | resetNAssert | vddAonLow | lardWriteDone | thermtrip => cases hi
  all_goals exact State.live_of_trip h

/-- POR_N apart, what acts after a trip keeps it. -/
theorem exec_keeps_trip {i : Instr} {s t : State} (h : s.pwr.trip = true) (hi : i ≠ .porNAssert) (he : exec i s = .next t) :
    t.pwr.trip = true := by
  cases hacts : actsAfterTrip i with
  | false =>
    rw [exec_of_trip h hacts] at he
    cases he
    exact h
  | true =>
    cases i <;> try contradiction
    case resetNAssert => cases he; exact h
    case vddAonLow => cases he; exact h
    case thermtrip temp =>
      rw [exec_thermtrip, execThermtrip] at he
      cases he
      split
      · rfl
      · exact h
    case lardWriteDone =>
      rw [exec_lardWriteDone, execLardWriteDone] at he
      split at he
      · cases he; exact h
      · cases he
        split
        · rw [State.enrolled]; split <;> exact h
        · exact h

/-- Settles O4: five commands alone act after a trip, and only POR_N releases it. -/
theorem thermalTripHolds : Obligations.ThermalTripHolds := by
  unfold Obligations.ThermalTripHolds
  intro s t i rest htrip hpending hstep
  rw [step_of_pending hpending] at hstep
  have htrip' : ({ s with pending := rest } : State).pwr.trip = true := htrip
  refine ⟨fun hi => exec_keeps_trip htrip' hi hstep, fun ⟨hpor, hreset, haon, hlard, htherm⟩ => ?_⟩
  have hacts : actsAfterTrip i = false := by
    cases i
    case porNAssert => exact absurd rfl hpor
    case resetNAssert => exact absurd rfl hreset
    case vddAonLow => exact absurd rfl haon
    case lardWriteDone => exact absurd rfl hlard
    case thermtrip => exact absurd rfl (htherm _)
    all_goals rfl
  rw [exec_of_trip htrip' hacts] at hstep
  cases hstep
  rfl

end Sys2Proof.Machine
end

section
/-! The steps of a recipe (spec/11_recipes.md): what each row does where nothing holds it at issue. The settlement of O8, O12, O13,
O14, O15, O16, O17, O18, O19, O20 and O21. -/
namespace Sys2Proof.Machine

/-! ### A ready step of its own row -/

/-- A ready step whose opcode is its row's and that its unit takes is done; the sequencer goes on to pc. -/
theorem stepDone_of_issue {s t : State} {c : Core} {w : StepWord} {op : Nat} {pc : BitVec 20} (h : StepReady s c w)
    (ho : W.opcode w = op) (hi : issueAny c w s = .ok t) (hn : (s.seq c).nextPc w = pc) :
    s.live (s.stepCmd c w (W.opcode w == op)) = .next (stepDone t c pc) := by
  rw [ho, beq_self_eq_true, stepCmd_ok h hi hn]

/-- The same for a row that does not branch. -/
theorem stepDone_of_plain {s t : State} {c : Core} {w : StepWord} {op : Nat} (h : StepReady s c w) (ho : W.opcode w = op)
    (hi : issueOf op c w s = .ok t) (hb : op ≠ 0xA8 ∧ op ≠ 0xA9 ∧ op ≠ 0xAA) :
    s.live (s.stepCmd c w (W.opcode w == op)) = .next (stepDone t c ((s.seq c).pc + 1)) := by
  subst ho
  obtain ⟨h8, h9, hA⟩ := hb
  exact stepDone_of_issue h rfl hi (nextPc_plain h8 h9 hA)

/-! ### Scalar steps -/

/-- Settles O8: each row's issue function, at a ready step. -/
theorem scalarStepsComplete : Obligations.ScalarStepsComplete := by
  unfold Obligations.ScalarStepsComplete
  intro s c w h
  refine ⟨fun ho => ?alu, fun ho => ?movi, fun ho => ?cmp, fun ho => ?plog, fun ho => ?ttime, fun ho => ?fset, fun ho => ?nop,
    fun ho => ?dset⟩
  case ttime =>
    refine stepDone_of_plain h ho ?_ (by decide)
    simp only [issueOf, issueTtime, tb, apply_ite (BitVec.ofNat 64)]
    rfl
  all_goals exact stepDone_of_plain h ho rfl (by decide)

/-! ### Control steps and waits that are met -/

theorem nextPc_br {q : SeqSt} {w : StepWord} (h : W.opcode w = 0xA8) : q.nextPc w = q.pc + BitVec.ofInt 20 (W.eTARGET w) := by
  simp [SeqSt.nextPc, h]

theorem nextPc_loop {q : SeqSt} {w : StepWord} (h : W.opcode w = 0xA9) :
    q.nextPc w = if q.loopVal w = 0 then q.pc + BitVec.ofInt 20 (W.eTARGET w) else q.pc + 1 := by
  simp [SeqSt.nextPc, h]

theorem nextPc_endl {q : SeqSt} {w : StepWord} (h : W.opcode w = 0xAA) :
    q.nextPc w = if q.getL (W.eLC w) - 1 = 0 then q.pc + 1 else q.pc + BitVec.ofInt 20 (W.eTARGET w) := by
  simp [SeqSt.nextPc, h]

/-- An FWAIT whose flag is as it waits for. -/
theorem issueFwait_met {c : Core} {w : StepWord} {s : State} (h : s.flag c (W.dFLAG w) = W.dSTATE w) : issueFwait c w s = .ok s :=
  if_pos h

/-- A FENCE whose units have completed. -/
theorem issueFence_met {c : Core} {w : StepWord} {s : State} (h : s.fenceMet c (W.imm w) = true) : issueFence c w s = .ok s :=
  if_pos h

/-- A TWAIT for a pitch number that has come. -/
theorem issueTwait_met {c : Core} {w : StepWord} {s : State} (ha : (W.imm w).testBit 0 = false)
    (hp : fld ((s.seq c).getX (W.dXA w)) 0 48 ≤ s.tb.pitch) (ho : (s.reg rTbOrigin).toNat ≤ s.tb.time.toNat) :
    issueTwait c w s = .ok s := by
  have htarget : ((s.seq c).getX (W.dXA w)).toNat % 2 ^ 48 ≤ s.tb.pitch := by simpa [fld] using hp
  simp only [issueTwait, tb, ha, Bool.false_eq_true, if_false]
  exact if_pos ⟨htarget, ho⟩

/-- Settles O12: the branch rows by the address of the step after them, the waits by their condition. -/
theorem flowStepsComplete : Obligations.FlowStepsComplete := by
  unfold Obligations.FlowStepsComplete
  intro s c w h
  refine ⟨fun ho => ?br, fun ho => ?loop, fun ho => ?endl, fun ho => ?endStep, fun ho hf => ?fwait, fun ho hf => ?fence,
    fun ho ha hp hr => ?twait⟩
  case br => exact stepDone_of_issue h ho (issueAny_br ho) (nextPc_br ho)
  case loop => exact stepDone_of_issue h ho (issueAny_loop ho) (nextPc_loop ho)
  case endl => exact stepDone_of_issue h ho (issueAny_endl ho) (nextPc_endl ho)
  case endStep => exact stepDone_of_plain h ho rfl (by decide)
  case fwait => exact stepDone_of_plain h ho (issueFwait_met hf) (by decide)
  case fence => exact stepDone_of_plain h ho (issueFence_met hf) (by decide)
  case twait => exact stepDone_of_plain h ho (issueTwait_met ha hp hr) (by decide)

/-! ### Data steps -/

/-- Settles O13: both rows read their words at issue, and branch on whether all were delivered. -/
theorem pantryReadStepsComplete : Obligations.PantryReadStepsComplete := by
  unfold Obligations.PantryReadStepsComplete
  intro s c w h
  refine ⟨fun ho => ⟨fun hr => ?ld, fun hr => ?ldFault⟩, fun ho => ⟨fun hr => ?dload, fun hr => ?dloadFault⟩⟩
  case ld => exact stepDone_of_plain h ho (if_neg (not_not_intro hr)) (by decide)
  case ldFault => exact stepDone_of_plain h ho (if_pos hr) (by decide)
  case dload => exact stepDone_of_plain h ho (if_neg (not_not_intro hr)) (by decide)
  case dloadFault => exact stepDone_of_plain h ho (if_pos hr) (by decide)

/-- Transfers enter a trickle path that has a place. -/
theorem State.trkQueue_ok {s : State} {c : Core} (js : List TrkJob) (h : (s.core c).trk.length < 8) :
    s.trkQueue c js = .ok (s.trkAdd c js) := if_neg (Nat.not_le.2 h)

/-- Settles O14: each row hands its transfers to a trickle path that has a place. -/
theorem trickleStepsComplete : Obligations.TrickleStepsComplete := by
  unfold Obligations.TrickleStepsComplete
  intro s c w h
  refine ⟨fun ho ht => ?trickle, fun ho ht => ?st, fun ho ha ht => ?ptest, fun ho ht => ?dstore⟩
  case ptest =>
    refine stepDone_of_plain h ho ?_ (by decide)
    simp only [issueOf, issuePtest, ha, ne_eq, not_true_eq_false, if_false, State.trkQueue_ok _ ht]
  all_goals exact stepDone_of_plain h ho (State.trkQueue_ok _ ht) (by decide)

/-! ### Scale words (R342) -/

/-- What a record changes leaves the bytes of memory and which pantry words are valid. -/
theorem Recorded.wordAt {s t : State} (h : Recorded s t) (a : Nat) : t.wordAt a = s.wordAt a := by
  have hvalid (k : Core) (n : Nat) : t.wordValid k n = s.wordValid k n := by
    obtain ⟨f, hf⟩ := h.core k
    rw [State.wordValid, hf, State.wordValid]
  unfold State.wordAt State.rdBytes
  rw [h.mem]
  dsimp only
  split
  · rfl
  · rw [hvalid]

/-- It leaves every tensor exponent as it was. -/
theorem Recorded.tensorExp {s t : State} (h : Recorded s t) (c : Core) (d : Desc) : t.tensorExp c d = s.tensorExp c d := by
  rw [State.tensorExp, h.wordAt, State.tensorExp]

@[simp] theorem State.scaleReads_nil (s : State) (c : Core) : s.scaleReads c [] = (0, s) := rfl

/-- A step of no operands has no scale word. -/
theorem State.readScales_nil (s : State) (c : Core) (block : Nat) (k : State → Issue) (drop : State → State) :
    s.readScales c block [] k drop = k s := rfl

/-- A step whose scale words are delivered and lawful goes on. -/
theorem State.readScales_ok {s : State} {c : Core} {ds : List Desc} (block : Nat) (k : State → Issue) (drop : State → State)
    (h : ScalesOk s c ds) : s.readScales c block ds k drop = k (s.scaleReads c ds).2 := by
  obtain ⟨hread, hexp⟩ := h
  simp only [(s.scaleReads_recorded c ds).tensorExp] at hexp
  simp [State.readScales, hread, hexp]

/-! ### Array steps -/

theorem arrOf?_val (a : Arr) : arrOf? a.val = some a := dif_pos a.isLt

/-- A step that decodes has no reserved field. -/
theorem reservedField_of_decodes {w : StepWord} (h : decodeBad w = none) : reservedField w = false := by
  unfold decodeBad at h
  dsimp only at h
  by_contra hr
  simp only [Bool.not_eq_false] at hr
  repeat' split at h
  all_goals simp_all

theorem load_layout {w : StepWord} (h : decodeBad w = none) (ho : W.opcode w = 0x00) : ¬ (W.fn w 3 3 = 0 ∨ W.fn w 3 3 = 7) := by
  have hr := reservedField_of_decodes h
  simp [reservedField, ho] at hr
  omega

theorem pass_mode {w : StepWord} (h : decodeBad w = none) (ho : W.opcode w = 0x01) : W.fn w 3 2 ≠ 3 := by
  have hr := reservedField_of_decodes h
  simp [reservedField, ho] at hr
  omega

theorem sop_op {w : StepWord} (h : decodeBad w = none) (ho : W.opcode w = 0x21) : W.fn w 0 3 ≠ 7 := by
  have hr := reservedField_of_decodes h
  simp [reservedField, ho] at hr
  omega

/-- The decode of a step that is ready. -/
theorem stepReady_decodes {s : State} {c : Core} {w : StepWord} (h : StepReady s c w) : decodeBad w = none := by
  obtain ⟨-, -, hd, -⟩ := h
  exact hd

section
variable {s : State} {c : Core} {w : StepWord} {a : Arr}

/-- LOAD of operands that decode and whose scale words are delivered. -/
theorem issueLoad_ok (ha : W.fn w 0 3 = a.val) (hlay : ¬ (W.fn w 3 3 = 0 ∨ W.fn w 3 3 = 7)) (hq : (s.arr c a).loadq.length < 2)
    (hop : s.operandBad c 1 ((s.seq c).getT (W.ta w)) false = none) (hsc : ScalesOk s c [(s.seq c).getT (W.ta w)]) :
    issueLoad c w s =
      (let d := (s.seq c).getT (W.ta w)
       let i := ((s.seq c).getX (W.xa w)).toNat
       let j := ((s.seq c).getX (W.xb w)).toNat
       let u := (s.scaleReads c [d]).2
       let e := (u.tensorExp c d).getD 0
       if D.tiled d then
         let r := u.loadHdrs c d (W.fn w 3 3) i j e
         if r.2.1 then .ok (r.2.2.stopArr c a)
         else if (W.fn w 3 3 = 4 ∨ W.fn w 3 3 = 5) ∧ r.1.any (fun l => s24Refuses (W.fn w 3 3) l.hdr) then .ok (r.2.2.arrReject c a 7)
         else .ok (r.2.2.loadEnqueue c a (W.fn w 3 3) (W.guard w) r.1)
       else if W.fn w 3 3 = 4 ∨ W.fn w 3 3 = 5 then .ok (u.arrReject c a 7)
       else .ok (u.loadEnqueue c a (W.fn w 3 3) (W.guard w) ((layoutTiles (W.fn w 3 3)).map (fun p =>
         ⟨.empty, some (d, i + p.1, j + p.2), e⟩)))) := by
  rw [issueLoad, ha, arrOf?_val]
  dsimp only
  rw [if_neg hlay, if_neg (Nat.not_le.2 hq), hop]
  exact State.readScales_ok _ _ _ hsc


/-- PASS of a mode that has no operand. -/
theorem issuePass_plain (ha : W.fn w 0 3 = a.val) (h3 : W.fn w 3 2 ≠ 3) (h2 : W.fn w 3 2 ≠ 2) (hq : (s.arr c a).opq.length < 4) :
    issuePass c w s = .ok (s.arrEnqueue c a ⟨s.now c,
      .pass (W.fn w 3 2) (W.fnb w 5) (W.fnb w 6) (W.fn w 7 10) (W.fn w 17 10 + 1)
        (if W.fnb w 27 then (s.seq c).getX (W.xa w) else BitVec.allOnes 64)
        (if W.fnb w 27 then (s.seq c).getX (W.xb w) else BitVec.allOnes 64)
        ((s.seq c).getT (W.ta w)) ((s.seq c).getX (W.xc w)).toNat 0, s.numctl c, W.guard w, false, none⟩) := by
  rw [issuePass, ha, arrOf?_val]
  dsimp only
  simp only [if_neg h3, if_neg (Nat.not_le.2 hq), if_neg h2, State.readScales_nil]

/-- PASS with an operand that decodes and whose scale word is delivered. -/
theorem issuePass_operand (ha : W.fn w 0 3 = a.val) (h2 : W.fn w 3 2 = 2) (hq : (s.arr c a).opq.length < 4)
    (hop : s.operandBad c 1 ((s.seq c).getT (W.ta w)) false = none) (hsc : ScalesOk s c [(s.seq c).getT (W.ta w)]) :
    issuePass c w s = (let d := (s.seq c).getT (W.ta w)
      let u := (s.scaleReads c [d]).2
      .ok (u.arrEnqueue c a ⟨u.now c, .pass 2 (W.fnb w 5) (W.fnb w 6) (W.fn w 7 10) (W.fn w 17 10 + 1)
        (if W.fnb w 27 then (s.seq c).getX (W.xa w) else BitVec.allOnes 64)
        (if W.fnb w 27 then (s.seq c).getX (W.xb w) else BitVec.allOnes 64)
        d ((s.seq c).getX (W.xc w)).toNat ((u.tensorExp c d).getD 0), u.numctl c, W.guard w, false, none⟩)) := by
  rw [issuePass, ha, arrOf?_val]
  dsimp only
  simp only [h2, if_neg (show ¬ (2 = 3) by decide), if_neg (Nat.not_le.2 hq), if_true, hop]
  exact State.readScales_ok _ _ _ hsc

theorem issueExport_ok (ha : W.fn w 0 3 = a.val) (hq : (s.arr c a).opq.length < 4) :
    issueExport c w s = .ok (s.arrEnqueue c a ⟨s.now c, .exportTile (W.fn w 3 4) (W.fnb w 7), s.numctl c, W.guard w, false, none⟩) := by
  rw [issueExport, ha, arrOf?_val]
  exact if_neg (Nat.not_le.2 hq)

theorem issueAclr_ok (ha : W.fn w 0 3 = a.val) (hq : (s.arr c a).opq.length < 4) (hn : W.fn w 3 4 + W.fn w 7 4 ≤ 15) :
    issueAclr c w s = .ok (s.arrEnqueue c a
      ⟨s.now c, .clear (64 * W.fn w 3 4) (64 * (W.fn w 7 4 + 1)), s.numctl c, W.guard w, false, none⟩) := by
  rw [issueAclr, ha, arrOf?_val]
  dsimp only
  rw [if_neg (Nat.not_lt.2 hn), if_neg (Nat.not_le.2 hq)]

/-- ASAVE or ARESTORE of tiles that the store has, with an operand that decodes and whose scale word is delivered. -/
theorem issueMove_ok (k : Nat → Nat → Desc → Int → ArrKind) (ha : W.fn w 0 3 = a.val) (hq : (s.arr c a).opq.length < 4)
    (hn : W.fn w 3 4 + W.fn w 7 4 ≤ 15) (hop : operandCode ((s.seq c).getT (W.ta w)) false = none)
    (hsc : ScalesOk s c [(s.seq c).getT (W.ta w)]) :
    issueMove c w k s = (let d := (s.seq c).getT (W.ta w)
      let u := (s.scaleReads c [d]).2
      .ok (u.arrEnqueue c a ⟨u.now c, k (W.fn w 3 4) (W.fn w 7 4 + 1) d ((u.tensorExp c d).getD 0), u.numctl c, W.guard w, false, none⟩)) := by
  rw [issueMove, ha, arrOf?_val]
  dsimp only
  rw [if_neg (Nat.not_lt.2 hn), hop]
  dsimp only
  rw [if_neg (Nat.not_le.2 hq)]
  exact State.readScales_ok _ _ _ hsc

end

/-- Settles O18: each row's issue function where its queue has room and its operands decode. -/
theorem arrayStepsComplete : Obligations.ArrayStepsComplete := by
  unfold Obligations.ArrayStepsComplete
  intro s c w a h ha
  have hd := stepReady_decodes h
  refine ⟨fun ho hq hop hsc => ⟨fun ht h4 h5 => ?loadDense, fun ht hstop hs24 => ?loadTiled⟩,
    fun hq => ⟨fun ho h2 => ?pass, fun ho h2 hop hsc => ?passOperand, fun ho => ?exportTile, fun hn => ⟨fun ho => ?aclr,
      fun hop hsc => ⟨fun ho => ?asave, fun ho => ?arestore⟩⟩⟩⟩
  case loadDense =>
    refine stepDone_of_plain h ho ((issueLoad_ok ha (load_layout hd ho) hq hop hsc).trans ?_) (by decide)
    simp [ht, h4, h5]
  case loadTiled =>
    refine stepDone_of_plain h ho ((issueLoad_ok ha (load_layout hd ho) hq hop hsc).trans ?_) (by decide)
    have hno : ¬ ((W.fn w 3 3 = 4 ∨ W.fn w 3 3 = 5) ∧ _) := fun hx => Bool.false_ne_true ((hs24 hx.1).symm.trans hx.2)
    dsimp only
    rw [if_pos ht, if_neg (by rw [hstop]; decide), if_neg hno]
  case pass => exact stepDone_of_plain h ho (issuePass_plain ha (pass_mode hd ho) h2 hq) (by decide)
  case passOperand => exact stepDone_of_plain h ho (issuePass_operand ha h2 hq hop hsc) (by decide)
  case exportTile => exact stepDone_of_plain h ho (issueExport_ok ha hq) (by decide)
  case aclr => exact stepDone_of_plain h ho (issueAclr_ok ha hq hn) (by decide)
  case asave => exact stepDone_of_plain h ho (issueMove_ok (fun t n d _ => .save t n d) ha hq hn hop hsc) (by decide)
  case arestore => exact stepDone_of_plain h ho (issueMove_ok .restore ha hq hn hop hsc) (by decide)

/-! ### FEED and the gathering steps -/

/-- A context number taken from a field. -/
theorem ctx_mod {n : Nat} {g : Ctx} (h : n % 16 = g.val) (hlt : n % 16 < 16) : (⟨n % 16, hlt⟩ : Ctx) = g := Fin.ext h

section
variable {s : State} {c : Core} {w : StepWord} {f : Arr}

/-- FEED from a descriptor. -/
theorem issueFeed_desc (hf : feederOfMask c (W.fn w 0 6) = some f) (hq : ((s.core c).getFeed f).length < 4) (hsrc : W.fn w 6 2 = 0)
    (ht : D.tiled ((s.seq c).getT (W.ta w)) = false) (hop : s.operandBad c 0 ((s.seq c).getT (W.ta w)) false = none)
    (hsc : ScalesOk s c [(s.seq c).getT (W.ta w)]) :
    issueFeed c w s = (let d := (s.seq c).getT (W.ta w)
      let u := (s.scaleReads c [d]).2
      .ok (u.feedEnqueue c f ⟨u.now c, W.fn w 0 6, .desc d ((s.seq c).getX (W.xa w)).toNat 0 ((u.tensorExp c d).getD 0),
        W.fn w 12 10 + 1, W.guard w⟩)) := by
  rw [issueFeed]
  dsimp only
  rw [hf, hsrc]
  dsimp only
  rw [if_neg (by decide), if_neg (Nat.not_le.2 hq), if_neg (by rw [ht]; decide), hop]
  exact State.readScales_ok _ _ _ hsc

/-- FEED from a window record that is delivered and lawful. -/
theorem issueFeed_window (hf : feederOfMask c (W.fn w 0 6) = some f) (hq : ((s.core c).getFeed f).length < 4) (hsrc : W.fn w 6 2 = 1)
    {xa : Nat} {r : BitVec 512} (hxa : ((s.seq c).getX (W.xa w)).toNat = xa) (hrec : BitVec.ofNat 512 (s.unitWord xa) = r)
    (hr : (s.readCheck (feedWho c f) xa).1 = 0) (hok : (Win.ofRec r).ok = true) (hty : (Win.ofRec r).ty.isSome = true)
    (hbase : (Win.ofRec r).base % 64 = 0) :
    issueFeed c w s = (let u := (s.readCheck (feedWho c f) xa).2
      .ok (u.feedEnqueue c f ⟨u.now c, W.fn w 0 6, .window r ((s.seq c).getX (W.xb w)).toNat ((s.seq c).getX (W.xc w)).toNat,
        W.fn w 12 10 + 1, W.guard w⟩)) := by
  obtain ⟨ty, hty⟩ := Option.isSome_iff_exists.1 hty
  rw [issueFeed]
  dsimp only
  rw [hf, hsrc, hxa, hrec]
  dsimp only
  rw [if_neg (by decide), if_neg (Nat.not_le.2 hq), if_neg (not_not_intro hr), if_pos hok, hty]
  exact if_neg (not_not_intro hbase)

/-- FEED from a gathering context. -/
theorem issueFeed_gather (hf : feederOfMask c (W.fn w 0 6) = some f) (hq : ((s.core c).getFeed f).length < 4) (hsrc : W.fn w 6 2 = 2) :
    issueFeed c w s = .ok (s.feedEnqueue c f ⟨s.now c, W.fn w 0 6, .gather (W.fn w 8 4), W.fn w 12 10 + 1, W.guard w⟩) := by
  rw [issueFeed]
  dsimp only
  rw [hf, hsrc]
  dsimp only
  rw [if_neg (by decide), if_neg (Nat.not_le.2 hq)]
  rfl

end

/-- Settles O19: FEED by its source, the gathering steps by what their context answers. -/
theorem feedAndGatherStepsComplete : Obligations.FeedAndGatherStepsComplete := by
  unfold Obligations.FeedAndGatherStepsComplete
  refine ⟨fun s c w f h ho hf hq => ⟨fun hsrc ht hop hsc => ?desc, fun hsrc hr hok hty hbase => ?window, fun hsrc => ?gather⟩,
    fun s c w g h hg => ⟨fun ho f i t hres => ?fres, fun ho t hres => ?fresNone, fun ho f i hp => ?fpres, fun ho => ?fflush,
      fun ho => ?frel⟩⟩
  case desc => exact stepDone_of_plain h ho (issueFeed_desc hf hq hsrc ht hop hsc) (by decide)
  case window => exact stepDone_of_plain h ho (issueFeed_window hf hq hsrc rfl rfl hr hok hty hbase) (by decide)
  case gather => exact stepDone_of_plain h ho (issueFeed_gather hf hq hsrc) (by decide)
  case fres => exact stepDone_of_plain h ho (show issueFres c w s = _ by rw [issueFres, ctx_mod hg, hres]) (by decide)
  case fresNone => exact stepDone_of_plain h ho (show issueFres c w s = _ by rw [issueFres, ctx_mod hg, hres]) (by decide)
  case fpres => exact stepDone_of_plain h ho (show issueFpres c w s = _ by rw [issueFpres, ctx_mod hg, hp]) (by decide)
  case fflush => exact stepDone_of_plain h ho (show issueFflush c w s = _ by rw [issueFflush, ctx_mod hg]) (by decide)
  case frel => exact stepDone_of_plain h ho (show issueFrel c w s = _ by rw [issueFrel, ctx_mod hg]) (by decide)

/-! ### Sieve and vector steps -/

section
variable {s : State} {c : Core} {w : StepWord}

/-- A sieve step that finds room and whose scale words are delivered joins the job queue. -/
theorem State.sieveEnqueue_ok {ds : List Desc} (k : SieveKind) (hq : (s.sieve c).jobs.length + b2n (s.sieve c).disp.isSome < 16)
    (hsc : ScalesOk s c ds) : s.sieveEnqueue c w ds k = .ok ((s.scaleReads c ds).2.sieveAdd c w k) := by
  rw [State.sieveEnqueue, if_neg (Nat.not_le.2 hq)]
  exact State.readScales_ok _ _ _ hsc

/-- A step of no operands has no scale word to wait for. -/
theorem scalesOk_nil (s : State) (c : Core) : ScalesOk s c [] := ⟨rfl, rfl⟩

theorem issueSdrain_ok (hq : (s.sieve c).jobs.length + b2n (s.sieve c).disp.isSome < 16)
    (hty : (D.ety ((s.seq c).getT (W.ta w))).isSome = true) (hb : drainBad ((s.seq c).getT (W.ta w)) = none)
    (hsc : ScalesOk s c [(s.seq c).getT (W.ta w)]) :
    issueSdrain c w s = (let d := (s.seq c).getT (W.ta w)
      .ok ((s.scaleReads c [d]).2.sieveAdd c w (.drain (W.fn w 0 4) d ((s.seq c).getX (W.xa w)).toNat))) := by
  rw [issueSdrain, if_neg (by rw [Option.isNone_eq_false_iff.2 hty]; decide), hb]
  exact State.sieveEnqueue_ok _ hq hsc

/-- A FUNC that Table 11-9 lists, of a vector step that decodes. -/
theorem vector_func (h : decodeBad w = none) (ho : 0x40 ≤ W.opcode w ∧ W.opcode w ≤ 0x44) :
    ¬ funcCount (W.opcode w) ≤ W.fn w 0 6 := by
  have hr := reservedField_of_decodes h
  have hop : W.opcode w = 0x40 ∨ W.opcode w = 0x41 ∨ W.opcode w = 0x42 ∨ W.opcode w = 0x43 ∨ W.opcode w = 0x44 := by omega
  rcases hop with hop | hop | hop | hop | hop <;> simpa [reservedField, hop] using hr

/-- A vector step that finds room, whose operands decode and whose scale words are delivered joins the queue. -/
theorem issueVector_ok (hd : decodeBad w = none) (ho : 0x40 ≤ W.opcode w ∧ W.opcode w ≤ 0x44) (hq : (s.vec c).jobs.length < 8)
    (hr : s.vecRefusal c (s.vecJob c w) = none)
    (hsc : ScalesOk s c ((s.vecJob c w).operands.map (·.1) ++ (s.vecJob c w).dests)) :
    issueVector c w s = .ok
      ((s.scaleReads c ((s.vecJob c w).operands.map (·.1) ++ (s.vecJob c w).dests)).2.vecEnqueue c (s.vecJob c w)) := by
  rw [issueVector, if_neg (vector_func hd ho)]
  dsimp only
  rw [hr]
  dsimp only
  rw [if_neg (Nat.not_le.2 hq)]
  exact State.readScales_ok _ _ _ hsc

end

/-- Settles O20: a sieve row through the job queue, a vector row through the vector queue. -/
theorem sieveAndVectorStepsComplete : Obligations.SieveAndVectorStepsComplete := by
  unfold Obligations.SieveAndVectorStepsComplete
  refine ⟨fun s c w h hq => ⟨fun ho hd ht hop hsc => ?disp, fun ho hr hsc => ?sop, fun ho hty hb hsc => ?sdrain, fun ho hn => ?sclr⟩,
    fun s c w h hq hr hsc => ?vector⟩
  case disp =>
    refine stepDone_of_plain h ho (show issueDisp c w s = _ from ?_) (by decide)
    rw [issueDisp, hd, ht, hop]
    exact State.sieveEnqueue_ok _ hq hsc
  case sop =>
    refine stepDone_of_plain h ho (show issueSop c w s = _ from ?_) (by decide)
    rw [issueSop, if_neg (sop_op (stepReady_decodes h) ho), hr]
    exact State.sieveEnqueue_ok _ hq hsc
  case sdrain => exact stepDone_of_plain h ho (issueSdrain_ok hq hty hb hsc) (by decide)
  case sclr =>
    refine stepDone_of_plain h ho (show issueSclr c w s = _ from ?_) (by decide)
    rw [issueSclr, if_neg (Nat.not_lt.2 hn)]
    exact State.sieveEnqueue_ok _ hq (scalesOk_nil s c)
  case vector =>
    have issued (ho : 0x40 ≤ W.opcode w ∧ W.opcode w ≤ 0x44) := issueVector_ok (stepReady_decodes h) ho hq hr hsc
    have osm {func : Nat} (ho : W.opcode w = 0x43) (hf : W.fn w 0 6 = func) : isOsm w func = true := by simp [isOsm, ho, hf]
    have osmDone {func : Nat} (ho : W.opcode w = 0x43) (hf : W.fn w 0 6 = func) :
        s.live (s.stepCmd c w (isOsm w func)) = .next (stepDone ((s.scaleReads c ((s.vecJob c w).operands.map (·.1) ++
          (s.vecJob c w).dests)).2.vecEnqueue c (s.vecJob c w)) c ((s.seq c).pc + 1)) := by
      rw [osm ho hf]
      exact stepCmd_ok h ((issueAny_osm ho).trans (issued (by omega))) (nextPc_plain (by omega) (by omega) (by omega))
    refine ⟨fun ho => ?vop, fun ho => ?vred, fun ho => ?vrow, fun ho hf => osmDone ho hf, fun ho hf => osmDone ho hf,
      fun ho hf => osmDone ho hf, fun ho => ?quant⟩
    all_goals exact stepDone_of_plain h ho (issued (by omega)) (by decide)

/-! ### Starts of the stream engines -/

/-- Settles O21: both rows put their start into a queue that has room. -/
theorem startStepsComplete : Obligations.StartStepsComplete := by
  unfold Obligations.StartStepsComplete
  intro s c w h hq
  refine ⟨fun ho => ?strm, fun ho hr hsc => ?copy⟩
  case strm => exact stepDone_of_plain h ho (if_neg (Nat.not_le.2 hq)) (by decide)
  case copy =>
    refine stepDone_of_plain h ho (show issueCopy c w s = _ from ?_) (by decide)
    rw [issueCopy, hr]
    dsimp only
    rw [if_neg (Nat.not_le.2 hq)]
    exact State.readScales_ok _ _ _ hsc

/-! ### BSET, BELAY and FSIGR -/

/-- Settles O17: the context that FN names is not busy. -/
theorem belayStepsComplete : Obligations.BelayStepsComplete := by
  unfold Obligations.BelayStepsComplete
  intro s c w n h hn hbusy
  have hctx (hlt : W.fCTX w % 8 < 8) : (⟨W.fCTX w % 8, hlt⟩ : Fin 8) = n := by
    refine Fin.ext ?_
    have := n.isLt
    dsimp only
    omega
  refine ⟨fun ho => ?bset, fun ho hbad => ?belay⟩
  case bset =>
    refine stepDone_of_plain h ho (show issueBset c w s = _ from ?_) (by decide)
    rw [issueBset, hctx]
    exact if_neg (by rw [hbusy]; decide)
  case belay =>
    refine stepDone_of_plain h ho (show issueBelay c w s = _ from ?_) (by decide)
    rw [issueBelay, hctx]
    exact if_neg (by rw [hbusy, hbad]; decide)

theorem coreOf?_val (k : Core) : coreOf? k.val = some k := dif_pos k.isLt

/-- FSIGR, once the fence it may ask for is met: the core it names, on the device it names. -/
theorem issueFsigr_core {s : State} {c k : Core} {w : StepWord} (hk : W.imm w % 64 = k.val)
    (hfence : (W.imm w).testBit 7 = true → s.fenceMet c 0x3FFF = true) :
    issueFsigr c w s =
      (let dev : BitVec 16 := if (W.imm w).testBit 6 then BitVec.ofNat 16 (fld ((s.seq c).getX (W.dXA w)) 0 16) else s.devId
       let step := fld ((s.seq c).getX (W.dXB w)) 0 20
       let u := s.setFlag k (W.dFLAG w) (W.dSTATE w)
       if dev = s.devId then
         if s.coreOn k then .ok (if (W.imm w).testBit 8 then u.requestStart k 2 ⟨step, 0, none⟩ else u) else .ok s
       else
         .ok (s.sendPkt (s.mkPkt dev 7 0 1 (bytesOf 8 (rSeqCtl k + (if W.dSTATE w then 0x30 else 0x38) + dev.toNat * 2 ^ 48)
           ++ bytesOf 8 (2 ^ W.dFLAG w) ++ (if (W.imm w).testBit 8 then bytesOf 4 step else []))))) := by
  have hmet : ¬ (tb (W.imm w) 7 = true ∧ (!s.fenceMet c 0x3FFF) = true) := by
    intro ⟨h7, hn⟩
    rw [hfence h7] at hn
    exact Bool.false_ne_true hn
  rw [issueFsigr]
  dsimp only
  rw [if_neg hmet, hk, coreOf?_val]
  rfl

/-- Settles O16: by the device that the step names. -/
theorem signalStepCompletes : Obligations.SignalStepCompletes := by
  unfold Obligations.SignalStepCompletes
  intro s c k w h ho hk hfence
  have issued := issueFsigr_core hk hfence
  refine ⟨fun hdev hon => stepDone_of_plain h ho (issued.trans ?here) (by decide),
    fun hdev => ⟨_, ?dest, stepDone_of_plain h ho (issued.trans (if_neg hdev)) (by decide)⟩⟩
  case here => exact (if_pos hdev).trans (if_pos hon)
  case dest => rfl

/-! ### Queue steps -/

section
variable {s t u : State} {c : Core} {w : StepWord} {bs : List Byte}

/-- A push of a lawful length whose bytes have come. -/
theorem issueQpush_ok (hn : 1 ≤ W.imm w % 2 ^ 13) (hmax : W.imm w % 2 ^ 13 ≤ 4096)
    (hb : s.stepBytes c ((s.seq c).getX (W.dXA w)).toNat (W.imm w % 2 ^ 13) = (.ok bs, u)) :
    issueQpush c w s = (let on := u.domOn (76 + dieOf (W.dQUEUE w))
      let t := if on then u.pushPkt (W.dQUEUE w) (coreProd c) bs (cellsOf (W.imm w % 2 ^ 13)) else u
      .ok (if W.dPDE w then t.onSeq c (fun q =>
        q.setP (W.dPD w) (on && (u.lookFreed (W.dQUEUE w)).admits (W.dQUEUE w) (W.imm w % 2 ^ 13))) else t)) := by
  rw [issueQpush]
  dsimp only
  rw [if_neg (by omega), hb]

/-- How the bytes of a popped packet reach XA: there are none, they go to this device, or to another one and the companion. -/
def PopLands (s : State) (c : Core) (w : StepWord) (bs : List Byte) (t u : State) : Prop :=
  let a := ((s.seq c).getX (W.dXA w)).toNat
  (bs = [] ∧ u = t) ∨
  (bs ≠ [] ∧ s.farAddr a = false ∧ t.busWrite (.unit c 12) (.program c) 12 (coreProd c) (localOf a) bs = (.done, u)) ∨
  (bs ≠ [] ∧ s.farAddr a = true ∧ s.farRoom a (farPieces a bs.length).length = true ∧
    u = (farPieces a bs.length).foldl (fun t p => t.farAsk (.seq c (2 ^ 66 * ((s.seq c).issued + 1) + p.1) true)
      (BitVec.ofNat 64 p.1) (some ((bs.drop (p.1 - a)).take p.2))) t)

/-- A pop that finds a packet whose bytes land. -/
theorem State.stepPop_got {limit m : Nat} {broken : Bool} {got : State → State} {empty : Issue}
    (hon : s.domOn (76 + dieOf (W.dQUEUE w)) = true) (hp : s.popPkt (W.dQUEUE w) limit = (.got bs m broken, t))
    (hl : PopLands s c w bs t u) : s.stepPop c w limit got empty =
      .ok (got (u.onSeq c (fun q => q.setX (W.dXD w) (BitVec.ofNat 64 (m + 2 ^ 63 * b2n broken))))) := by
  rw [State.stepPop]
  dsimp only
  rw [if_neg (by rw [hon]; decide), hp]
  dsimp only
  obtain ⟨hbs, hu⟩ | ⟨hbs, hnear, hput⟩ | ⟨hbs, hfar, hroom, hu⟩ := hl
  · rw [hbs, hu]
    rfl
  · rw [if_neg (by simpa using hbs), if_neg (by rw [hnear]; decide), hput]
  · rw [if_neg (by simpa using hbs), if_pos hfar, if_pos hroom, hu]

/-- A pop of a queue that is off, or that has no visible packet. -/
theorem State.stepPop_empty {limit : Nat} {got : State → State} {empty : Issue}
    (h : s.domOn (76 + dieOf (W.dQUEUE w)) = false ∨ (s.popPkt (W.dQUEUE w) limit).1 = .none) :
    s.stepPop c w limit got empty = empty := by
  rw [State.stepPop]
  dsimp only
  split
  · rfl
  · next hon =>
    have hnone : (s.popPkt (W.dQUEUE w) limit).1 = .none := h.resolve_left (by simpa using hon)
    split
    · rfl
    · next hp => rw [hp] at hnone; cases hnone
    · next hp => rw [hp] at hnone; cases hnone

end

/-- Settles O15: a push by its bytes, a pop by what it finds. -/
theorem queueStepsComplete : Obligations.QueueStepsComplete := by
  unfold Obligations.QueueStepsComplete
  intro s c w h
  refine ⟨fun ho hn hmax bs u hb => ?qpush, fun bs m broken t u hn hon hp hl => ⟨fun ho => ?qpop, fun ho => ?qtry⟩,
    fun ho hn hnone => ?qtryEmpty⟩
  case qpush => exact stepDone_of_plain h ho (issueQpush_ok hn hmax hb) (by decide)
  case qpop =>
    refine stepDone_of_plain h ho (show issueQpop c w s = _ from ?_) (by decide)
    rw [issueQpop]
    exact (if_neg hn).trans (State.stepPop_got hon hp hl)
  case qtry =>
    refine stepDone_of_plain h ho (show issueQtry c w s = _ from ?_) (by decide)
    rw [issueQtry]
    exact (if_neg hn).trans (State.stepPop_got hon hp hl)
  case qtryEmpty =>
    refine stepDone_of_plain h ho (show issueQtry c w s = _ from ?_) (by decide)
    rw [issueQtry]
    exact (if_neg hn).trans (State.stepPop_empty hnone)

end Sys2Proof.Machine
end

section
/-! The state after reset, what scalar steps leave alone, control of a core, stalled steps and pantry writes: the settlement of O6,
O10, O27, O28, O29 and O30. -/
namespace Sys2Proof.Machine

/-! ### Reset -/

@[simp] theorem State.reset_core (c : Core) : State.reset.core c = .reset := by
  show (Vector.replicate 48 CoreSt.reset)[c.val] = _
  exact Vector.getElem_replicate _

@[simp] theorem State.reset_reg (a : Nat) : State.reset.reg a = regReset a := rfl

/-- Settles O6: each clause by evaluation, the cores all alike. -/
theorem resetState : Obligations.ResetState := by
  unfold Obligations.ResetState
  dsimp only
  refine ⟨rfl, rfl, rfl, fun _ => rfl, rfl, fun c => ?core, fun _ => rfl, fun l => ?link, fun h => ?half, rfl, rfl, rfl, by decide, rfl, rfl,
    fun c => ?regs, by decide, by decide, by decide, by decide, by decide, by decide, by decide, by decide⟩
  case core =>
    simp only [State.seq, State.flag, State.reset_core]
    exact ⟨rfl, rfl, rfl, fun k => by simp [CoreSt.reset, SeqSt.reset], by decide, by decide⟩
  case link => revert l; decide
  case half => revert h; decide
  case regs =>
    simp only [State.reset_reg]
    revert c
    decide

/-! ### What a scalar step leaves alone -/

theorem State.setCore_self (s : State) (c : Core) : s.setCore c (s.core c) = s := by
  have h : s.cores.set c.val (s.cores.get c) c.isLt = s.cores := Vector.set_getElem_self c.isLt
  rw [State.setCore, State.core, h]

@[simp] theorem State.onSeq_id (s : State) (c : Core) : s.onSeq c id = s := s.setCore_self c

@[simp] theorem SeqSt.getX_setX_other (q : SeqSt) {i k : Nat} (v : W64) (h : k ≠ i) : (q.setX i v).getX k = q.getX k := by
  rw [SeqSt.getX_eq, SeqSt.setX, Vector.getElem?_setIfInBounds_ne (Ne.symm h), SeqSt.getX_eq]

theorem SeqSt.getL_eq (q : SeqSt) (i : Nat) : q.getL i = q.l[i]?.getD 0 := by simp [SeqSt.getL, nth]

@[simp] theorem SeqSt.getL_setL_other (q : SeqSt) {i k : Nat} (v : W32) (h : k ≠ i) : (q.setL i v).getL k = q.getL k := by
  rw [SeqSt.getL_eq, SeqSt.setL, Vector.getElem?_setIfInBounds_ne (Ne.symm h), SeqSt.getL_eq]

/-- A store of one bit leaves every other bit. -/
theorem getLsbD_setFld_bit {n : Nat} (w : BitVec n) {i k : Nat} (v : Nat) (h : k ≠ i) : (setFld w i 1 v).getLsbD k = w.getLsbD k := by
  by_cases hk : k < n
  · rw [getLsbD_setFld w i 1 v k hk, if_neg (by omega)]
  · rw [BitVec.getLsbD_of_ge _ _ (by omega), BitVec.getLsbD_of_ge _ _ (by omega)]

@[simp] theorem SeqSt.getP_setP_other (q : SeqSt) {i k : Nat} (b : Bool) (h : k ≠ i) : (q.setP i b).getP k = q.getP k :=
  getLsbD_setFld_bit _ _ h

/-- The sequencer keeps its descriptors, its starts and its pending END, and of its other registers all but those that the step i of
word w writes. -/
structure ScalarKept (c : Core) (w : StepWord) (i : Instr) (q r : SeqSt) : Prop where
  ending : r.ending = q.ending
  t : r.t = q.t
  starts : r.starts = q.starts
  x : ∀ k, ¬ ((i = .alu c w ∨ i = .movi c w) ∧ k = W.aXD w) → ¬ (i = .ttime c w ∧ k = W.dXD w) → r.getX k = q.getX k
  p : ∀ k, ¬ ((i = .cmp c w ∨ i = .plog c w) ∧ k = W.aPD w) → r.getP k = q.getP k
  l : ∀ k, ¬ ((i = .loop c w ∨ i = .endl c w) ∧ k = W.eLC w) → r.getL k = q.getL k
  f : ∀ k, ¬ (i = .fset c w ∧ k = W.dFLAG w) → r.f.getLsbD k = q.f.getLsbD k

/-- The scalar rows of O10. -/
def scalarRows (c : Core) (w : StepWord) : List Instr :=
  [.alu c w, .movi c w, .cmp c w, .plog c w, .ttime c w, .fset c w, .nop c w, .br c w, .loop c w, .endl c w]

theorem wf_of_scalarRow {c : Core} {w : StepWord} {i : Instr} (hi : i ∈ scalarRows c w) (ho : i.opcodeOk = true) : i.wf = true := by
  have hsize : i.sizeOk = true := by
    simp only [scalarRows, List.mem_cons, List.not_mem_nil, or_false] at hi
    rcases hi with rfl | rfl | rfl | rfl | rfl | rfl | rfl | rfl | rfl | rfl <;> rfl
  simp [Instr.wf, ho, hsize]

namespace ScalarKept
variable {c : Core} {w : StepWord} {i : Instr} {q : SeqSt}

theorem refl : ScalarKept c w i q q :=
  ⟨rfl, rfl, rfl, fun _ _ _ => rfl, fun _ _ => rfl, fun _ _ => rfl, fun _ _ => rfl⟩

theorem setX {n : Nat} (v : W64)
    (h : ((i = .alu c w ∨ i = .movi c w) ∧ n = W.aXD w) ∨ (i = .ttime c w ∧ n = W.dXD w)) : ScalarKept c w i q (q.setX n v) :=
  { refl (q := q) with
    x := fun _ h1 h2 => SeqSt.getX_setX_other q v fun e => h.elim (fun hx => h1 ⟨hx.1, e.trans hx.2⟩) fun hx => h2 ⟨hx.1, e.trans hx.2⟩ }

theorem setP (b : Bool) (h : i = .cmp c w ∨ i = .plog c w) : ScalarKept c w i q (q.setP (W.aPD w) b) :=
  { refl (q := q) with p := fun _ h1 => SeqSt.getP_setP_other q b fun e => h1 ⟨h, e⟩ }

theorem setL (v : W32) (h : i = .loop c w ∨ i = .endl c w) : ScalarKept c w i q (q.setL (W.eLC w) v) :=
  { refl (q := q) with l := fun _ h1 => SeqSt.getL_setL_other q v fun e => h1 ⟨h, e⟩ }

theorem setF (v : Nat) : ScalarKept c w (.fset c w) q { q with f := setFld q.f (W.dFLAG w) 1 v } :=
  { refl (q := q) with f := fun _ h1 => getLsbD_setFld_bit q.f v fun e => h1 ⟨rfl, e⟩ }

end ScalarKept

/-- Each scalar row changes its own sequencer, by a function that keeps what the row does not write. -/
theorem issueAny_scalarRow {s : State} {c : Core} {w : StepWord} {i : Instr} (hi : i ∈ scalarRows c w) (hwf : i.wf = true) :
    ∃ g, issueAny c w s = .ok (s.onSeq c g) ∧ ScalarKept c w i (s.seq c) (g (s.seq c)) := by
  have idle (h : issueAny c w s = .ok s) : ∃ g, issueAny c w s = .ok (s.onSeq c g) ∧ ScalarKept c w i (s.seq c) (g (s.seq c)) :=
    ⟨id, by rw [h, State.onSeq_id], .refl⟩
  simp only [scalarRows, List.mem_cons, List.not_mem_nil, or_false] at hi
  obtain rfl | rfl | rfl | rfl | rfl | rfl | rfl | rfl | rfl | rfl := hi
  · exact ⟨_, issueAny_alu (opcode_of_wf rfl hwf), .setX _ (.inl ⟨.inl rfl, rfl⟩)⟩
  · exact ⟨_, issueAny_movi (opcode_of_wf rfl hwf), .setX _ (.inl ⟨.inr rfl, rfl⟩)⟩
  · exact ⟨_, issueAny_cmp (opcode_of_wf rfl hwf), .setP _ (.inl rfl)⟩
  · exact ⟨_, issueAny_plog (opcode_of_wf rfl hwf), .setP _ (.inr rfl)⟩
  · exact ⟨_, issueAny_ttime (opcode_of_wf rfl hwf), .setX _ (.inr ⟨rfl, rfl⟩)⟩
  · exact ⟨_, issueAny_fset (opcode_of_wf rfl hwf), .setF _⟩
  · exact idle (issueAny_nop (opcode_of_wf rfl hwf))
  · exact idle (issueAny_br (opcode_of_wf rfl hwf))
  · exact ⟨_, issueAny_loop (opcode_of_wf rfl hwf), .setL _ (.inl rfl)⟩
  · exact ⟨_, issueAny_endl (opcode_of_wf rfl hwf), .setL _ (.inr rfl)⟩

theorem scalarRow_stepRow {c : Core} {w : StepWord} {i : Instr} (hi : i ∈ scalarRows c w) : i ∈ stepRows c w := by
  simp only [scalarRows, List.mem_cons, List.not_mem_nil, or_false] at hi
  rcases hi with rfl | rfl | rfl | rfl | rfl | rfl | rfl | rfl | rfl | rfl <;> simp [stepRows]

/-- Settles O10: a ready scalar step changes its own sequencer alone, and of its registers only its destination. -/
theorem scalarStepsFrame : Obligations.ScalarStepsFrame := by
  unfold Obligations.ScalarStepsFrame
  intro s t c w i h hq hi ho he
  have hwf := wf_of_scalarRow hi ho
  obtain ⟨g, hissue, hkept⟩ := issueAny_scalarRow (s := s) hi hwf
  have hend : (g (s.seq c)).ending = none := hkept.ending.trans (stepReady_ending h)
  rw [stepRows_issuesStep c w i (scalarRow_stepRow hi) hwf, stepCmd_ok h hissue rfl, stepDone_onSeq hq hend] at he
  cases he
  obtain ⟨-, hx, hp, hl, ht, hf, hs⟩ := (s.onSeq c g).advancePc_seq c ((s.seq c).nextPc w) true
  rw [State.onSeq_seq] at hx hp hl ht hf hs
  refine ⟨rfl, rfl, rfl, fun d hd => ?others, ?units, ht.trans hkept.t, hs.trans hkept.starts, fun k h1 h2 => ?x, fun k h1 => ?p,
    fun k h1 => ?l, fun k h1 => ?flags⟩
  case others => rw [State.advancePc, State.onSeq_core_other _ _ hd, State.onSeq_core_other _ _ hd]
  case units => simp [State.advancePc, State.seq]
  case x => rw [← hkept.x k h1 h2, SeqSt.getX, hx, SeqSt.getX]
  case p => rw [← hkept.p k h1, SeqSt.getP, hp, SeqSt.getP]
  case l => rw [← hkept.l k h1, SeqSt.getL, hl, SeqSt.getL]
  case flags => rw [State.flag, hf, hkept.f k h1, State.flag]

/-! ### Control of a core -/

/-- Writing 1 to CLEAR_FAULT stores the rest of SEQ_CTL as it is written. -/
theorem seqCtl_clearFault (v : W64) : fld (setFld v 16 1 1) 0 16 = fld v 0 16 ∧ bitOf (setFld v 16 1 1) 16 = true :=
  ⟨fld_setFld_other v 1 (by decide) (by decide), by rw [bitOf, getLsbD_setFld _ _ _ _ _ (by decide)]; rfl⟩

/-- Settles O27: the writes of a powered core take place, and a drained unit reads DISABLED. -/
theorem coreControlCompletes : Obligations.CoreControlCompletes := by
  unfold Obligations.CoreControlCompletes
  intro s c v hl hon
  have write (f : State → State) : s.live (.next (s.ifOn c.val f)) = .next (f s) := by
    rw [State.live_of_running hl, State.ifOn_powered hon]
  refine ⟨write _, write _, write _, write _, write _, fun hf => ?clear, fun u hdr hdone => ⟨fun hu => ?unit, fun hu => ?core⟩⟩
  case clear =>
    obtain ⟨hlow, hbit⟩ := seqCtl_clearFault v
    refine (write _).trans ?_
    simp [State.seqCtlWrite, hlow, hbit, hf]
  case unit =>
    refine (State.live_of_running hl).trans ?_
    simp [hdr, hdone, Nat.ne_of_lt hu]
  case core =>
    refine (State.live_of_running hl).trans ?_
    simp [hdr, hdone, hu]

/-! ### Valid words of a pantry -/

/-- Settles O28: the granules named are 64 words each, and invalidating them leaves memory. -/
theorem pantryInvalidates : Obligations.PantryInvalidates := by
  unfold Obligations.PantryInvalidates
  intro s c v hl hon hgo
  have hexec : exec (.panInvalGo c v) s = .next (s.panInval c v) := by
    rw [exec_panInvalGo, execPanInvalGo, State.live_of_running hl, State.ifOn_powered hon]
  refine ⟨_, hexec, ?mem, fun w => ?valid, fun d hd => ?others⟩ <;> rw [State.panInval] <;> dsimp only <;> rw [if_pos hgo]
  case mem => rfl
  case valid =>
    rw [State.onCore_core, State.setReg_core]
    simp only [NSet.delRange, List.mem_filter, Bool.not_eq_true', Bool.and_eq_false_imp, decide_eq_true_eq, decide_eq_false_iff_not,
      not_and]
  case others => rw [State.onCore_core_other _ _ hd, State.setReg_core]

/-! ### Stalled steps -/

/-- A stalled step that goes on, and what its wait counts (R322, R312, Table 23-6). -/
theorem State.retry_moves {s : State} {c : Core} {t : Stall} {ok : Nat → Bool} (waited : Nat) (hst : (s.seq c).st = .stalled)
    (ht : (s.seq c).stall = some t) (hok : ok t.why = true) (hm : s.mayIssue c t.w = true)
    (hmoved : ((s.attempt c t.w).seq c).stall ≠ some t) :
    s.retry c ok waited = (let n := (s.attempt c t.w).bumpLo (rSeqCnt c 2) waited
      let n := if t.why = 1 ∨ t.why = 2 then n.monCore c 6 waited else n
      if t.why = 4 ∧ t.flag = 1 then n.bumpLo (rStrCnt c 3) waited else n) := by
  simp only [State.retry, hst, ht, hok, hm, Bool.and_self, if_true, if_neg hmoved]

/-- Settles O29: the event of the stall's reason attempts it again, and SLOT_TIMEOUT ends a wait past the watchdog. -/
theorem stallEventsComplete : Obligations.StallEventsComplete := by
  unfold Obligations.StallEventsComplete
  intro s c t waited hl hst ht
  refine ⟨fun hm hmoved => ⟨fun h7 h8 => ?guard, fun h7 => ?pop, fun h8 => ?twait⟩, fun hlo hhi hwd => ?timeout⟩
  case guard =>
    refine (State.live_of_running hl).trans (congrArg _ ((State.retry_moves waited hst ht (by simp [h7, h8]) hm hmoved).trans ?_))
    dsimp only
    by_cases h4 : t.why = 4
    · simp [h4]
    · simp [h4]
  case pop =>
    refine (State.live_of_running hl).trans (congrArg _ ((State.retry_moves waited hst ht (by simp [h7]) hm hmoved).trans ?_))
    simp [h7]
  case twait =>
    refine (State.live_of_running hl).trans (congrArg _ ((State.retry_moves waited hst ht (by simp [h8]) hm hmoved).trans ?_))
    simp [h8]
  case timeout =>
    rw [exec_slotTimeout, execSlotTimeout, State.live_of_running hl, hst, ht]
    exact congrArg _ (if_pos ⟨hlo, hhi, hwd⟩)

/-! ### Writes to a pantry -/

/-- A number just added is in the set. -/
theorem NSet.has_add_same (k : Nat) (m : NSet) : NSet.has k (NSet.add k m) = true := by
  induction m with
  | nil => simp [NSet.add, NSet.has]
  | cons j m ih =>
    rw [NSet.add]
    split
    · simp [NSet.has]
    · split
      · next h => simp [NSet.has, h]
      · next h1 h2 => simp [NSet.has, h1, h2, ih]

/-- Adding a number takes none away. -/
theorem NSet.has_add_of_has {i : Nat} (k : Nat) {m : NSet} (h : NSet.has i m = true) : NSet.has i (NSet.add k m) = true := by
  induction m with
  | nil => cases h
  | cons j m ih =>
    rw [NSet.has] at h
    rw [NSet.add]
    split
    · next hk =>
      have hik : ¬ i < k := by
        intro hik
        rw [if_neg (by omega), if_pos (by omega)] at h
        cases h
      simp only [NSet.has]
      split
      · rfl
      · exact h
    · split
      · rwa [NSet.has]
      · rw [NSet.has]
        split
        · rfl
        · next hij =>
          rw [if_neg hij] at h
          split at h
          · cases h
          · next hlt => rw [if_neg hlt]; exact ih h

theorem mem_rangeFrom {i : Nat} : ∀ {lo n : Nat}, i ∈ rangeFrom lo n ↔ lo ≤ i ∧ i < lo + n
  | lo, 0 => by simp [rangeFrom]
  | lo, n + 1 => by
    rw [rangeFrom, List.mem_cons, mem_rangeFrom]
    omega

/-- Adding numbers one after another: those of the list are in the set, and none is taken away. -/
theorem NSet.has_foldl_add {i : Nat} (f : Nat → Nat) (l : List Nat) {m : NSet}
    (h : NSet.has i m = true ∨ ∃ j ∈ l, f j = i) : NSet.has i (l.foldl (fun v j => NSet.add (f j) v) m) = true := by
  induction l generalizing m with
  | nil => simpa using h
  | cons j l ih =>
    refine ih ?_
    obtain h | ⟨k, hk, hi⟩ := h
    · exact .inl (NSet.has_add_of_has _ h)
    · obtain rfl | hk := List.mem_cons.1 hk
      · exact .inl (hi ▸ NSet.has_add_same _ _)
      · exact .inr ⟨k, hk, hi⟩

theorem pantryOf_base (c : Core) {o : Nat} (h : o < 0x1000000) : pantryOf (pantryBase c + o) = some (c, o / 64) := by
  have hc := c.isLt
  have hdiv : (pantryBase c + o) / 0x1000000 = c.val := by rw [pantryBase]; omega
  have hmod : (pantryBase c + o) % 0x1000000 = o := by rw [pantryBase]; omega
  rw [pantryOf, dif_pos (by omega)]
  simp only [hmod, hdiv]

theorem padTo_nil : ∀ n : Nat, padTo n [] = List.replicate n 0
  | 0 => rfl
  | n + 1 => by rw [padTo, padTo_nil n, List.replicate_succ]

theorem State.wrBytes_mem (s : State) (a : Nat) (bs : List Byte) : (s.wrBytes a bs).mem = Memory.write s.mem a bs := rfl

/-- A store of bytes keeps the canonical form. -/
theorem State.wrBytes_memOk {s : State} (a : Nat) (bs : List Byte) (h : MemOk s) : MemOk (s.wrBytes a bs) := Memory.wf_write a bs h

@[simp] theorem State.freshEcc_mem (s : State) (a n : Nat) : (s.freshEcc a n).mem = s.mem := rfl
@[simp] theorem State.freshEcc_regs (s : State) (a n : Nat) : (s.freshEcc a n).regs = s.regs := rfl
@[simp] theorem State.freshEcc_core (s : State) (a n : Nat) (c : Core) : (s.freshEcc a n).core c = s.core c := rfl

/-- Make word i of core c's pantry zero where it is invalid. -/
def State.zeroInvalid (s : State) (c : Core) (i : Nat) : State :=
  if s.wordValid c i then s else s.wrBytes (pantryBase c + 64 * i) (padTo 64 [])

/-- The words that n bytes from offset o of a pantry touch. -/
def touched (o n : Nat) : List Nat := rangeFrom (o / 64) ((o % 64 + n - 1) / 64 + 1)

theorem mem_touched {o n i : Nat} (hn : n ≠ 0) : i ∈ touched o n ↔ o / 64 ≤ i ∧ 64 * i < o + n := by
  rw [touched, mem_rangeFrom]
  omega

theorem State.mergeBase_pantry (s : State) (c : Core) {o n : Nat} (ho : o < 0x1000000) (hn : n ≠ 0) :
    s.mergeBase (pantryBase c + o) n = (touched o n).foldl (fun s i => s.zeroInvalid c i) s := by
  have ha : (pantryBase c + o) % 64 = o % 64 := by rw [pantryBase]; omega
  rw [State.mergeBase, pantryOf_base c ho]
  dsimp only
  rw [if_neg hn, ha]
  rfl

theorem State.markValid_pantry (s : State) (c : Core) {o n : Nat} (ho : o < 0x1000000) (hn : n ≠ 0) :
    s.markValid (pantryBase c + o) n =
      s.onCore c (fun x => { x with valid := (touched o n).foldl (fun v i => NSet.add (i % 262144) v) x.valid }) := by
  have ha : (pantryBase c + o) % 64 = o % 64 := by rw [pantryBase]; omega
  rw [State.markValid, pantryOf_base c ho]
  dsimp only
  rw [if_neg hn, ha]
  rfl

/-- What zeroing invalid words of a list leaves: each byte as it was, or zero in a word that was invalid; and nothing but memory
changes. -/
structure ZeroedIn (c : Core) (l : List Nat) (s t : State) : Prop where
  mem : MemOk t
  cores : t.cores = s.cores
  regs : t.regs = s.regs
  byte : ∀ b, Memory.get t.mem b = Memory.get s.mem b ∨ (Memory.get t.mem b = 0 ∧
    ∃ i ∈ l, s.wordValid c i = false ∧ pantryBase c + 64 * i ≤ b ∧ b < pantryBase c + 64 * i + 64)

theorem State.zeroInvalid_zeroed (s : State) (c : Core) (i : Nat) (h : MemOk s) : ZeroedIn c [i] s (s.zeroInvalid c i) := by
  rw [State.zeroInvalid]
  split
  · exact ⟨h, rfl, rfl, fun _ => .inl rfl⟩
  · next hv =>
    rw [padTo_nil]
    refine ⟨State.wrBytes_memOk _ _ h, State.wrBytes_cores .., State.wrBytes_regs .., fun b => ?_⟩
    rw [State.wrBytes_mem]
    by_cases hb : pantryBase c + 64 * i ≤ b ∧ b < pantryBase c + 64 * i + 64
    · refine .inr ⟨?_, i, List.mem_singleton.2 rfl, by simpa using hv, hb⟩
      obtain ⟨k, rfl⟩ := Nat.exists_eq_add_of_le hb.1
      have hk : k < (List.replicate 64 (0 : Byte)).length := by rw [List.length_replicate]; omega
      rw [Memory.get_write_same h hk, List.getElem_replicate]
    · exact .inl (Memory.get_write_other h (by simp; omega))

theorem State.zeroInvalid_foldl (c : Core) (l : List Nat) : ∀ s : State, MemOk s →
    ZeroedIn c l s (l.foldl (fun s i => s.zeroInvalid c i) s) := by
  induction l with
  | nil => exact fun s h => ⟨h, rfl, rfl, fun _ => .inl rfl⟩
  | cons i l ih =>
    intro s h
    have head := s.zeroInvalid_zeroed c i h
    have rest := ih _ head.mem
    refine ⟨rest.mem, rest.cores.trans head.cores, rest.regs.trans head.regs, fun b => ?_⟩
    have hvalid (j : Nat) : (s.zeroInvalid c i).wordValid c j = s.wordValid c j := by
      rw [State.wordValid, State.core, head.cores]
      rfl
    obtain hb | ⟨hb, j, hj, hv, hin⟩ := rest.byte b
    · obtain hb' | ⟨hb', j, hj, hv, hin⟩ := head.byte b
      · exact .inl (hb.trans hb')
      · exact .inr ⟨hb.trans hb', j, List.mem_cons.2 (.inl (List.mem_singleton.1 hj)), hv, hin⟩
    · exact .inr ⟨hb, j, List.mem_cons_of_mem _ hj, (hvalid j).symm.trans hv, hin⟩

/-- Settles O30: invalid words that the write touches are zeroed first, and the words it touches are valid after it. -/
theorem pantryWriteReadsBack : Obligations.PantryWriteReadsBack := by
  unfold Obligations.PantryWriteReadsBack
  intro s c o bs h hfit hne
  have hlen : bs.length ≠ 0 := by simpa using hne
  have ho : o < 0x1000000 := by omega
  have zeroed := State.zeroInvalid_foldl c (touched o bs.length) s h
  dsimp only
  rw [State.wrLocal, State.mergeBase_pantry s c ho hlen, State.markValid_pantry _ c ho hlen]
  refine ⟨Memory.read_write _ bs zeroed.mem, fun i hi => ?valid, fun b hb => ?byte, zeroed.regs, fun d => ?seq⟩
  case valid =>
    rw [State.wordValid, State.freshEcc_core, State.onCore_core]
    exact NSet.has_foldl_add (fun j => j % 262144) _ (.inr ⟨(o + i) / 64, (mem_touched hlen).2 (by omega), by omega⟩)
  case byte =>
    obtain hb' | ⟨hb', j, hj, hv, hin⟩ := zeroed.byte b
    · exact .inl ((Memory.get_write_other zeroed.mem hb).trans hb')
    · rw [mem_touched hlen] at hj
      refine .inr ⟨(Memory.get_write_other zeroed.mem hb).trans hb', 64 * j - o, by omega, ?_, ?_⟩
      · rw [pantryBase] at hin ⊢; omega
      · rwa [show (o + (64 * j - o)) / 64 = j by omega]
  case seq =>
    have hcore : ∀ u : State, u.cores = s.cores → ((u.onCore c (fun x => { x with
        valid := (touched o bs.length).foldl (fun v i => NSet.add (i % 262144) v) x.valid })).core d).seq = (s.core d).seq := by
      intro u hu
      have hd : u.core d = s.core d := by rw [State.core, hu]; rfl
      by_cases hdc : d = c
      · subst hdc; rw [State.onCore_core, ← hd]
      · rw [State.onCore_core_other _ _ hdc, hd]
    exact hcore _ zeroed.cores

end Sys2Proof.Machine
end

section
/-! The events of a core's units (spec/04_mac_array.md to spec/08_vector_unit.md): the settlement of O22, O23, O24 and O32. -/
namespace Sys2Proof.Machine

/-- A register access of a powered domain while the device runs. -/
theorem State.live_ifOn {s : State} {d : Nat} (f : State → State) (hl : Live s) (hon : s.powered d = true) :
    s.live (.next (s.ifOn d f)) = .next (f s) := by
  rw [State.live_of_running hl, State.ifOn_powered hon]

/-! ### Loads and planes -/

/-- LOAD_BEGIN of a load that may begin and whose sources are delivered. -/
theorem exec_loadBegin_ok {s : State} {c : Core} {a : Arr} {j : LoadJob} {rest : List LoadJob} (waited : Nat) (hl : Live s)
    (hq : (s.arr c a).loadq = j :: rest) (hb : (s.arr c a).loadMayBegin = true)
    (hr : ((s.bumpHi (rArrCnt0 c a) waited).readSrcs c j.layout j.srcs).2.1 = false) :
    exec (.loadBegin c a waited) s = (let r := (s.bumpHi (rArrCnt0 c a) waited).readSrcs c j.layout j.srcs
      .next (r.2.2.setArr c a { r.2.2.arr c a with
        loadq := { j with busy := true, built := some (buildPlanes j.layout r.1) } :: rest })) := by
  rw [exec_loadBegin, execLoadBegin, State.live_of_running hl]
  dsimp only
  rw [hq]
  dsimp only
  rw [if_pos hb, if_neg (by rw [hr]; decide)]

/-- LOAD_DONE of the load that the array is making. -/
theorem exec_loadDone_busy {s : State} {c : Core} {a : Arr} {j : LoadJob} {rest : List LoadJob} {ps : Plane × Plane} (hl : Live s)
    (hq : (s.arr c a).loadq = j :: rest) (hb : j.busy = true) (hps : j.built = some ps) :
    exec (.loadDone c a) s = (let u := (s.setArr c a ((s.arr c a).finishLoad j ps)).guardDone c j.guard
      .next ((if j.layout = 6 then u.arrAdvance c a ((s.arr c a).opq.length + 1) else u).settle c)) := by
  rw [exec_loadDone, execLoadDone, State.live_of_running hl]
  dsimp only
  rw [hq]
  dsimp only
  rw [hb, hps]

/-- A load that is neither FP32 nor over an FP32 pair of planes fills the shadow plane and leaves the active one (R86, R101). -/
theorem ArrSt.finishLoad_shadow (x : ArrSt) (j : LoadJob) (ps : Plane × Plane) (h6 : j.layout ≠ 6) (h32 : x.fp32 = false) :
    (x.finishLoad j ps).plane (!x.active) = ps.1 ∧ (x.finishLoad j ps).plane x.active = x.plane x.active ∧
    (x.finishLoad j ps).active = x.active ∧ (x.finishLoad j ps).loaded = some j.seq ∧
    (x.finishLoad j ps).loadq = x.loadq.tail ∧ (x.finishLoad j ps).opq = x.opq ∧ (x.finishLoad j ps).acc = x.acc := by
  rw [ArrSt.finishLoad]
  dsimp only
  rw [if_neg h6, if_neg (by rw [h32]; decide)]
  cases hactive : x.active <;> simp [ArrSt.setPlane, ArrSt.plane]

/-- Settles O22: the load at the head of its queue, and the planes that it fills. -/
theorem loadEventsComplete : Obligations.LoadEventsComplete := by
  unfold Obligations.LoadEventsComplete
  refine ⟨fun s c a hl => ⟨fun j rest waited hq hb hr => exec_loadBegin_ok waited hl hq hb hr,
    fun j rest ps hq hb hps => ⟨fun h6 => ?other, fun h6 => ?fp32⟩, fun hs => ?swap⟩,
    fun x j ps h6 h32 => x.finishLoad_shadow j ps h6 h32⟩
  case other => exact (exec_loadDone_busy hl hq hb hps).trans (by dsimp only; rw [if_neg h6])
  case fp32 => exact (exec_loadDone_busy hl hq hb hps).trans (by dsimp only; rw [if_pos h6])
  case swap =>
    rw [exec_planeSwap, execPlaneSwap, State.live_of_running hl, ArrSt.doSwap, if_pos hs]

/-! ### Feeds and fills -/

/-- CORE_FGCTXg takes a legal value while both fills are FREE (R145). -/
theorem State.fgctxWrite_legal {s : State} {c : Core} {g : Ctx} {v : W64} (h0 : (s.fg c g).f0.st = .free) (h1 : (s.fg c g).f1.st = .free)
    (hf : fld v 38 3 < (if isSolo c then 6 else 2)) (hp : bitOf v 41 = true → fld v 18 12 ≠ 0)
    (ht : (EType.ofField (fld v 42 5)).isSome = true) :
    s.fgctxWrite c g v = s.setReg (rFgctx c g.val) (v &&& 0x00007FFFFFFFFFFF#64) := by
  have hpitch : (bitOf v 41 && fld v 18 12 == 0) = false := by
    cases hb : bitOf v 41
    · rfl
    · simpa using hp hb
  rw [State.fgctxWrite]
  refine if_neg ?_
  rw [h0, h1, hpitch, decide_eq_false (Nat.not_le.2 hf), Option.isNone_eq_false_iff.2 ht]
  decide

/-- Settles O23: each event where what it waits for has come. -/
theorem feederEventsComplete : Obligations.FeederEventsComplete := by
  unfold Obligations.FeederEventsComplete
  intro s c hl
  refine ⟨fun f j rest starve hq hr => ?start, fun g f ho hd hdue => ?deadline, fun g f hst hwd => ?watchdog,
    fun g v hon h0 h1 hf hp ht => ?write⟩
  case start =>
    rw [exec_feedStart, execFeedStart, State.live_of_running hl, hq]
    exact if_pos hr
  case deadline =>
    rw [exec_fillDeadline, execFillDeadline, State.live_of_running hl, State.closeDue, ho]
    exact congrArg _ (if_pos ⟨hd, hdue⟩)
  case watchdog =>
    rw [exec_fillWatchdog, execFillWatchdog, State.live_of_running hl]
    exact if_pos ⟨hst, hwd⟩
  case write => exact (State.live_ifOn _ hl hon).trans (congrArg _ (State.fgctxWrite_legal h0 h1 hf hp ht))

/-! ### Dispatch, sieve jobs, merge tiles and tile outputs -/

/-- The merge buffers once the oldest tile has been written and a waiting one has taken its place. -/
def State.mergeNext (s : State) (c : Core) (m : MergeTile) (rest : List MergeTile) (waited : Nat) : State :=
  (((s.bumpLo (rSieveCnt c 5) waited).setSieve c { s.sieve c with merge := rest }).closeMerge c m).mergeFill c

/-- MERGE_TILE_CLOSE of an open tile, while others are open and where it was the last. -/
theorem exec_mergeTileClose_open {s : State} {c : Core} {m : MergeTile} {rest : List MergeTile} (waited : Nat) (hl : Live s)
    (hm : (s.sieve c).merge = m :: rest) :
    let u := s.mergeNext c m rest waited
    ((u.sieve c).merge ≠ [] → exec (.mergeTileClose c waited) s = .next u) ∧
    ((u.sieve c).merge = [] →
      (∀ g, (u.sieve c).merging = some g → exec (.mergeTileClose c waited) s = .next
        ((((u.setSieve c { u.sieve c with merging := none }).guardDone c g).sieveAdvance c 40).settle c)) ∧
      ((u.sieve c).merging = none → exec (.mergeTileClose c waited) s = .next ((u.sieveAdvance c 40).settle c))) := by
  rw [exec_mergeTileClose, execMergeTileClose, State.live_of_running hl]
  dsimp only
  rw [hm]
  dsimp only
  refine ⟨fun hne => if_neg (by simpa [State.mergeNext] using hne), fun he => ⟨fun g hg => ?_, fun hn => ?_⟩⟩
  · refine (if_pos (by simpa [State.mergeNext] using he)).trans ?_
    rw [show (((((s.bumpLo (rSieveCnt c 5) waited).setSieve c { s.sieve c with merge := rest }).closeMerge c m).mergeFill c).sieve
      c).merging = some g from hg]
    rfl
  · refine (if_pos (by simpa [State.mergeNext] using he)).trans ?_
    rw [show (((((s.bumpLo (rSieveCnt c 5) waited).setSieve c { s.sieve c with merge := rest }).closeMerge c m).mergeFill c).sieve
      c).merging = none from hn]
    rfl

/-- Settles O24: each event where its queue or its buffer has what it acts on. -/
theorem sieveAndVectorEventsComplete : Obligations.SieveAndVectorEventsComplete := by
  unfold Obligations.SieveAndVectorEventsComplete
  refine ⟨fun s c hl => ⟨fun d waited hd => ?resume, fun j rest deal bank res hh hj => ?job,
    fun m rest waited hm => exec_mergeTileClose_open waited hl hm⟩,
    fun s c hl => ⟨fun b rest hb => ?out, fun n v hon => State.live_ifOn _ hl hon⟩⟩
  case resume => rw [exec_dispResume, execDispResume, State.live_of_running hl, hd]
  case job =>
    rw [exec_sieveJobStart, execSieveJobStart, State.live_of_running hl]
    dsimp only
    rw [if_pos hh, hj]
  case out =>
    rw [exec_tileOutputWrite, execTileOutputWrite, State.live_of_running hl]
    cases hf : b.flag <;> simp only [hb, hf]

/-! ### The belay chain -/

/-- Settles O32: each event of a stage where its chain allows it. -/
theorem belayEventsComplete : Obligations.BelayEventsComplete := by
  unfold Obligations.BelayEventsComplete
  intro s c n hl
  refine ⟨fun hr => ?ready, fun hb hrole hg => ?credit, fun row hb hrole htag hst hbufs hlen hrecvd hsrc => ?row, fun hb hwd => ?timeout⟩
  case ready =>
    rw [exec_belayStageReady, execBelayStageReady, State.live_of_running hl]
    exact if_pos hr
  case credit =>
    rw [exec_belayCreditGrant, execBelayCreditGrant, State.live_of_running hl]
    dsimp only
    rw [if_neg (by rw [hb]; decide), if_pos (by simpa using hrole), if_pos hg]
  case row =>
    rw [exec_belayRowReceive, execBelayRowReceive, State.live_of_running hl]
    dsimp only
    rw [if_neg (by simp [hb, htag]), if_neg (by simp [hrole]), if_neg (by omega), if_pos hsrc]
  case timeout =>
    rw [exec_belayTimeout, execBelayTimeout, State.live_of_running hl]
    exact if_pos (by rw [hb, hwd]; decide)

end Sys2Proof.Machine
end

section
/-! Streams and the trickle path (spec/10_stream_engines.md): the settlement of O33 and O34. -/
namespace Sys2Proof.Machine

/-! ### Errors that strike memory -/

/-- An error that strikes changes the errors that stand, and nothing else (R612). -/
theorem State.strike_eq (s : State) (a : Nat) (x : Ecc) : ∃ m, s.strike a x = { s with ecc := m } := by
  rw [State.strike]
  split
  · exact ⟨s.ecc, rfl⟩
  · exact ⟨_, rfl⟩

theorem State.strikes_eq (s : State) (l : List (Nat × Ecc)) : ∃ m, s.strikes l = { s with ecc := m } := by
  rw [State.strikes]
  induction l generalizing s with
  | nil => exact ⟨s.ecc, rfl⟩
  | cons p l ih =>
    obtain ⟨m, hm⟩ := s.strike_eq p.1 p.2
    obtain ⟨m', hm'⟩ := ih (s.strike p.1 p.2)
    exact ⟨m', by rw [List.foldl_cons, hm', hm]⟩

@[simp] theorem State.strikes_core (s : State) (l : List (Nat × Ecc)) (c : Core) : (s.strikes l).core c = s.core c := by
  obtain ⟨m, h⟩ := s.strikes_eq l; rw [h]; rfl
@[simp] theorem State.strikes_eng (s : State) (l : List (Nat × Ecc)) (c : Core) (e : Eng) : (s.strikes l).eng c e = s.eng c e := by
  rw [State.eng, State.strikes_core, State.eng]
@[simp] theorem State.strikes_coreOn (s : State) (l : List (Nat × Ecc)) (c : Core) : (s.strikes l).coreOn c = s.coreOn c := by
  obtain ⟨m, h⟩ := s.strikes_eq l; rw [h]; rfl
@[simp] theorem State.strike_coreOn (s : State) (a : Nat) (x : Ecc) (c : Core) : (s.strike a x).coreOn c = s.coreOn c := by
  obtain ⟨m, h⟩ := s.strike_eq a x; rw [h]; rfl

/-! ### The word of a stream program that is due -/

section
variable {s : State} {c : Core} {e : Eng} {r : StrRun} {w : W64}

/-- The word at the place of a stream that runs. -/
theorem State.strWord_run {op : Nat} (f : StrRun → W64 → State) (hr : (s.eng c e).cur = some r) (hw : r.words[r.pc]? = some w)
    (ho : Sw.op w = op) (hp : r.phase = .run) (hon : s.coreOn c = true) : s.strWord c e op f = f r w := by
  simp only [State.strWord, hr, hw]
  exact if_pos ⟨ho, hp, hon⟩

/-- The word at the place of a stream that has left the queue. -/
theorem State.strAt_run {op : Nat} (hr : (s.eng c e).cur = some r) (hw : r.words[r.pc]? = some w) (ho : Sw.op w = op)
    (hp : r.phase ≠ .queued) (hon : s.coreOn c = true) : s.strAt c e op = some (r, w) := by
  simp only [State.strAt, hr, hw]
  exact if_pos ⟨ho, hp, hon⟩

/-- A stream with no write left to send sends none. -/
theorem State.strPump_idle (hr : (s.eng c e).cur = some r) (hs : r.sends = []) : s.strPump c e = s := by
  simp only [State.strPump, hr, hs, List.foldl_nil]

/-- A field word of a stream that runs. -/
theorem exec_streamField {i : Instr} {op : Nat} (hl : Live s) (hi : exec i s = s.live (.next (s.strField c e op)))
    (hr : (s.eng c e).cur = some r) (hw : r.words[r.pc]? = some w) (hp : r.phase = .run) (hon : s.coreOn c = true) (ho : Sw.op w = op) :
    exec i s = .next (s.setRun c e { r with f := r.f.apply r.job w }.step) := by
  rw [hi, State.live_of_running hl, State.strField, State.strWord_run _ hr hw ho hp hon]

end

/-- Settles O33: nine rows set fields, and CRED sets the credits of the head. -/
theorem streamFieldWordsComplete : Obligations.StreamFieldWordsComplete := by
  unfold Obligations.StreamFieldWordsComplete
  intro s c e r w hl hr hw hon
  refine ⟨fun hp => ⟨?addr, ?desc, ?loop, ?stride, ?idx, ?fill, ?cvt, ?wina, ?winb⟩, fun hp ho => ?cred⟩
  case cred =>
    rw [exec_streamCred, execStreamCred, State.live_of_running hl, State.strAt_run hr hw ho (by rw [hp]; decide) hon]
    dsimp only
    rw [if_pos hp]
    exact congrArg _ (if_pos hp)
  all_goals exact exec_streamField hl rfl hr hw hp hon

/-! ### The course of a stream -/

/-- Is the word of a stream's place its END? -/
theorem atEnd_of_place {r : StrRun} (h : r.job.copy.isSome = true ∧ r.pc = 1 ∨
    r.job.copy = none ∧ ∃ w, r.words[r.pc]? = some w ∧ Sw.op w = swEnd) :
    (if r.job.copy.isSome then r.pc == 1 else (match r.words[r.pc]? with
      | some w => Sw.op w == swEnd
      | none => false)) = true := by
  obtain ⟨hcopy, hpc⟩ | ⟨hcopy, w, hw, ho⟩ := h
  · rw [if_pos hcopy, hpc]; rfl
  · rw [hcopy, if_neg (by decide), hw]
    exact beq_iff_eq.2 ho

/-- Settles O34: each event of a stream where the stream's phase and place are the event's, and a trickle store. -/
theorem streamEventsComplete : Obligations.StreamEventsComplete := by
  unfold Obligations.StreamEventsComplete
  refine ⟨fun s c e hl => ⟨fun j rest hcur hq hu hon => ?begin, fun r waited hr hp hhead hon => ?admission,
    fun r w ecc hr hp hon hcopy hw ho => ?go, fun r ecc hr hp hon hcopy hpc => ?copy, fun r w hr hp hon hw ho hf => ?wait,
    fun r w hr hp hon hw ho hs hquiet => ?sig, fun r hr hp hon hs hquiet hend => ?ended,
    fun r w n hr hp hon hw ho hn hf hwd => ?timeout, fun v hon hv => ?ctl⟩,
    fun s u c j rest bs ecc hl hj hk hon hput => ?trickle⟩
  case begin =>
    rw [exec_streamBegin, execStreamBegin, State.live_of_running hl]
    exact congrArg _ (if_pos (by simp [hu, hon]))
  case admission =>
    rw [exec_streamAdmit, execStreamAdmit, State.live_of_running hl, hr]
    exact if_pos ⟨hp, hhead, hon⟩
  case go =>
    rw [exec_streamGo, execStreamGo, State.live_of_running hl]
    dsimp only
    rw [State.strikes_eng, hr]
    dsimp only
    rw [if_neg (by simp [hp, hon]), if_neg (by simp [hcopy]), hw]
    exact congrArg _ (if_pos ho)
  case copy =>
    rw [exec_streamGo, execStreamGo, State.live_of_running hl]
    dsimp only
    rw [State.strikes_eng, hr]
    dsimp only
    rw [if_neg (by simp [hp, hon]), if_pos hcopy, if_pos hpc]
  case wait =>
    rw [exec_streamWait, execStreamWait, State.live_of_running hl, State.strAt_run hr hw ho (by rw [hp]; decide) hon]
    dsimp only
    rw [if_pos hf, State.strNext, if_neg (by rw [hp]; decide)]
  case sig =>
    rw [exec_streamSig, execStreamSig, State.live_of_running hl, State.strPump_idle hr hs,
      State.strWord_run _ hr hw ho hp hon]
    exact congrArg _ (if_pos hquiet)
  case ended =>
    rw [exec_streamEnd, execStreamEnd, State.live_of_running hl, State.strPump_idle hr hs]
    dsimp only
    rw [hr]
    exact congrArg _ (if_pos ⟨hp, atEnd_of_place hend, hquiet, hon⟩)
  case timeout =>
    rw [exec_streamWaitTimeout, execStreamWaitTimeout, State.live_of_running hl, State.strAt_run hr hw ho hp hon]
    dsimp only
    rw [hn]
    exact congrArg _ (if_pos ⟨hf, hwd⟩)
  case ctl =>
    refine (State.live_ifOn _ hl hon).trans (congrArg _ ?_)
    rw [State.strCtlWrite, if_neg hv]
  case trickle =>
    rw [exec_trickleDone, execTrickleDone, State.live_of_running hl, hj]
    dsimp only
    rw [if_neg (by simp [hon]), hk]
    dsimp only
    rw [State.trkStore, hput]

end Sys2Proof.Machine
end

section
/-! Memory tiers, their arbiters and gather engines (spec/14_memory_tiers.md): the settlement of O36 to O39. -/
namespace Sys2Proof.Machine

/-! ### What the directory can change -/

/-- A fold of steps that only record only records. -/
theorem Recorded.foldl {α : Type} {f : State → α → State} (hf : ∀ s x, Recorded s (f s x)) (l : List α) :
    ∀ s, Recorded s (l.foldl f s) := by
  induction l with
  | nil => exact Recorded.refl
  | cons x l ih => exact fun s => (hf s x).trans (ih _)

/-- A change of the companion's state alone. -/
theorem Recorded.of_nz (s : State) (z : NzSt) : Recorded s { s with nz := z } := .of_eq rfl

namespace State
variable (s : State)

theorem nzSend_recorded (h : Half) (m : NzMsg) : Recorded s (s.nzSend h m) := .of_nz s _
theorem nzNack_recorded (h : Half) (t reason : Nat) : Recorded s (s.nzNack h t reason) := s.nzSend_recorded h _
theorem nzData_recorded (h : Half) (t kind : Nat) (bs : List Byte) : Recorded s (s.nzData h t kind bs) := s.nzSend_recorded h _
theorem dirSet_recorded (line v : Nat) : Recorded s (s.dirSet line v) := .of_nz s _

theorem sendSnoop_recorded (h : Half) : Recorded s (s.sendSnoop h) := by
  unfold sendSnoop
  split
  · exact .refl s
  · split
    · exact .refl s
    · exact .of_nz s _

theorem startSnoops_recorded (line : Nat) (hs : List Half) : Recorded s (s.startSnoops line hs) := by
  refine Recorded.foldl (fun s h => ?_) hs s
  split
  · exact .refl s
  · exact (Recorded.of_nz s _).trans (sendSnoop_recorded _ h)

/-- A coherent read is answered, refused, or waits for its snoops. -/
theorem dirServe_recorded (h : Half) (t : BitVec 10) (own : Bool) (line : Nat) : Recorded s (s.dirServe h t own line) := by
  unfold dirServe
  extract_lets v a need
  split
  · exact (Recorded.of_nz s _).trans (startSnoops_recorded _ _ _)
  · split
    · exact (s.noPop_recorded _).trans (nzNack_recorded _ _ _ _)
    · refine (s.memEcc_recorded a).trans ?_
      split
      · exact nzNack_recorded _ _ _ _
      · split
        · exact (bumpHi_recorded _ _ _).trans (nzData_recorded _ _ _ _ _)
        · split <;> exact (dirSet_recorded _ _ _).trans (nzData_recorded _ _ _ _ _)

theorem dirGo_recorded (line n : Nat) : Recorded s (s.dirGo line n) := by
  induction n generalizing s with
  | zero => exact .refl s
  | succ n ih =>
    unfold dirGo
    split
    · exact .refl s
    · split
      · exact (Recorded.of_nz s _).trans ((dirServe_recorded _ _ _ _ _).trans (ih _))
      · exact .refl s

theorem dirResume_recorded (line : Nat) : Recorded s (s.dirResume line) := s.dirGo_recorded line _
theorem tierGo_recorded (inTier : Nat → Bool) : Recorded s (s.tierGo inTier) := Recorded.foldl dirResume_recorded _ s

end State

/-! ### What waits for a snoop or a fill -/

/-- A word that need not wait changes nothing. -/
theorem State.wordWaits_none {s : State} {who : NzWho} {a : Nat} {write : Bool} (h : (s.wordWaits who a write).1 = false) :
    (s.wordWaits who a write).2 = s := by
  unfold State.wordWaits at h ⊢
  split
  case isFalse => rfl
  case isTrue ht =>
    rw [if_pos ht] at h
    split
    case isFalse hf => rw [if_neg hf] at h; cases h
    case isTrue hf =>
      rw [if_pos hf] at h
      unfold State.cohWait at h ⊢
      dsimp only at h ⊢
      split at h
      · cases h
      · split at h
        · rename_i hb hv; rw [if_neg hb, if_pos hv]
        · cases h

/-- Words none of which waits change nothing. -/
theorem State.anyWaits_none {s : State} {who : NzWho} {l : List (Nat × Nat)} {write : Bool} (h : (s.anyWaits who l write).1 = false) :
    (s.anyWaits who l write).2 = s := by
  have go (l : List (Nat × Nat)) : ∀ r : Bool × State,
      let out := l.foldl (fun (r : Bool × State) p => (r.1 || (r.2.wordWaits who p.1 write).1, (r.2.wordWaits who p.1 write).2)) r
      out.1 = false → r.1 = false ∧ out.2 = r.2 := by
    induction l with
    | nil => exact fun r hr => ⟨hr, rfl⟩
    | cons p l ih =>
      intro r out hr
      obtain ⟨h1, h2⟩ := ih _ hr
      obtain ⟨hr1, hw⟩ := Bool.or_eq_false_iff.1 h1
      exact ⟨hr1, h2.trans (State.wordWaits_none hw)⟩
  exact (go l (false, s) h).2

/-! ### A completed fill -/

/-- A read of memory that keeps only the cells of some addresses. -/
theorem Memory.get_filter (keep : Nat → Bool) {m : List Host.Cell} (h : Memory.wf m = true) (a : Nat) :
    Memory.get (m.filter (fun e => keep e.1)) a = if keep a then Memory.get m a else 0 := by
  induction m with
  | nil => exact (ite_self _).symm
  | cons e m ih =>
    obtain ⟨j, v⟩ := e
    simp only [Memory.wf, SMap.wf, Bool.and_eq_true] at h
    obtain ⟨⟨-, habove⟩, hwf⟩ := h
    have ih := ih hwf
    simp only [Memory.get] at ih ⊢
    have hlow (hk : a ≤ j) : SMap.get memDefault a m = 0 := SMap.get_of_above habove hk
    by_cases hj : keep j = true
    · rw [List.filter_cons_of_pos (by exact hj)]
      simp only [SMap.get]
      rcases Nat.lt_trichotomy a j with hlt | rfl | hgt
      · simp [Nat.ne_of_lt hlt, hlt, memDefault]
      · simp [hj]
      · simp [Nat.ne_of_gt hgt, Nat.not_lt_of_gt hgt, ih]
    · rw [List.filter_cons_of_neg (by exact hj), ih]
      simp only [SMap.get]
      rcases Nat.lt_trichotomy a j with hlt | rfl | hgt
      · simp [Nat.ne_of_lt hlt, hlt, hlow hlt.le, memDefault]
      · simp [hj]
      · simp [Nat.ne_of_gt hgt, Nat.not_lt_of_gt hgt]

/-- A tier that is cleared reads zero, and the rest as before (R401). -/
theorem get_clearTier (inTier : Nat → Bool) {m : List Host.Cell} (h : Memory.wf m = true) (a : Nat) :
    Memory.get (clearTier inTier m) a = if inTier a then 0 else Memory.get m a := by
  rw [clearTier, Memory.get_filter (fun j => !inTier j) h]
  cases inTier a <;> rfl

/-- Where no collective and no resync is under way nothing follows. -/
theorem State.collAll_pairPump_idle {s : State} (hc : ∀ c, (s.core c).coll = []) (hp : s.pair.todo = []) : s.collAll.pairPump = s := by
  have hall : s.collAll = s := by
    have go (l : List Core) : l.foldl (fun s c => (s.core c).coll.foldl (fun s x => s.collGo c x.tag) s) s = s := by
      induction l with
      | nil => rfl
      | cons c l ih => rw [List.foldl_cons, hc c]; exact ih
    exact go _
  rw [hall, State.pairPump, hp]
  rfl

/-- What a step of the directory leaves of the guard of `collAll_pairPump_idle`. -/
theorem Recorded.collAll_pairPump_idle {s t : State} (h : Recorded s t) (hc : ∀ c, (s.core c).coll = []) (hp : s.pair.todo = []) :
    t.collAll.pairPump = t :=
  State.collAll_pairPump_idle (fun c => by obtain ⟨f, hf⟩ := h.core c; rw [hf]; exact hc c) (h.pair ▸ hp)

/-- The addresses of a tier. -/
def inTier : Tier → Nat → Bool
  | .hbm => inHbm
  | .lpddr => inLp

/-- Has a tier been filled? -/
def State.tierFilled (s : State) : Tier → Bool
  | .hbm => s.memc.hbmFilled
  | .lpddr => s.memc.lpFilled

/-- What a completed fill changes before the requests that waited for it go on. -/
structure Cleared (r : Tier) (s t : State) : Prop where
  mem : t.mem = clearTier (inTier r) s.mem
  filled : t.tierFilled r = true
  cores : t.cores = s.cores
  pair : t.pair = s.pair

/-- From boot step 2 on a fill that ends clears its tier, and the directory goes on (R401, R527). -/
theorem State.fillDone_cleared {s : State} {r : Tier} (hb : s.boot.phase ≠ 0) (hf : s.tierFilled r = false) :
    ∃ t, s.fillDone r = t.tierGo (inTier r) ∧ Cleared r s t := by
  unfold State.fillDone
  rw [if_neg hb]
  cases r with
  | hbm =>
    have hf : s.memc.hbmFilled = false := hf
    dsimp only
    rw [hf, if_neg (by decide)]
    exact ⟨_, rfl, rfl, rfl, rfl, rfl⟩
  | lpddr =>
    have hf : s.memc.lpFilled = false := hf
    dsimp only
    rw [hf, if_neg (by decide)]
    exact ⟨_, rfl, rfl, rfl, rfl, rfl⟩

/-- The end of a fill while no image, collective or resync waits. -/
theorem exec_zeroFillDone_idle {s : State} {r : Tier} (hl : Live s) (hm : MemOk s) (hb : s.boot.phase ≠ 0)
    (hc : ∀ c, (s.core c).coll = []) (hp : s.pair.todo = []) (hf : s.tierFilled r = false) (hw : s.boot.weights = []) :
    ∃ t, exec (.zeroFillDone r) s = .next t ∧ t.tierFilled r = true ∧
      ∀ a, Memory.get t.mem a = if inTier r a then 0 else Memory.get s.mem a := by
  obtain ⟨t, ht, hmem, hfilled, hcores, hpair⟩ := State.fillDone_cleared hb hf
  have hrec := t.tierGo_recorded (inTier r)
  rw [← ht] at hrec
  refine ⟨s.fillDone r, ?_, ?_, fun a => ?_⟩
  · rw [exec_zeroFillDone, execZeroFillDone, State.live_of_running hl]
    dsimp only
    rw [hw]
    exact congrArg _ (hrec.collAll_pairPump_idle (fun c => (congrArg (·.coll) (congrArg (·.get c) hcores)).trans (hc c)) (hpair ▸ hp))
  · rw [← hfilled]
    cases r with
    | hbm => exact congrArg (·.hbmFilled) hrec.memc
    | lpddr => exact congrArg (·.lpFilled) hrec.memc
  · rw [hrec.mem, hmem, get_clearTier _ hm]

/-- Settles O37: the end of the fill clears the tier, and the requests that go on write no memory. -/
theorem fillZeroesItsTier : Obligations.FillZeroesItsTier := by
  unfold Obligations.FillZeroesItsTier
  exact fun s hl hm hb hc hp => ⟨exec_zeroFillDone_idle (r := .hbm) hl hm hb hc hp, exec_zeroFillDone_idle (r := .lpddr) hl hm hb hc hp⟩

/-! ### Arbiters -/

/-- An arbiter with a request waiting picks one (R402). -/
theorem State.pick_eq_none {s : State} {m : MemCtl} : ∀ {l : List MemReq}, s.pick m l = none ↔ l = []
  | [] => ⟨fun _ => rfl, fun _ => rfl⟩
  | r :: l => by
    rw [State.pick]
    split
    · simp
    · split <;> simp

/-- An arbiter picks one of those that wait (R402). -/
theorem State.mem_of_pick {s : State} {m : MemCtl} {r : MemReq} : ∀ {l : List MemReq}, s.pick m l = some r → r ∈ l
  | [], h => by cases h
  | x :: l, h => by
    rw [State.pick] at h
    split at h
    · cases h; exact List.mem_cons_self
    · rename_i b hb
      split at h
      · cases h; exact List.mem_cons_self
      · cases h; exact List.mem_cons_of_mem _ (State.mem_of_pick hb)

/-- Taking a request out of a list adds none. -/
theorem mem_of_mem_replaceReq {r x : MemReq} {l : List MemReq} (h : x ∈ replaceReq r none l) : x ∈ l := by
  induction l with
  | nil => exact h
  | cons y l ih =>
    rw [replaceReq] at h
    split at h
    · exact List.mem_cons_of_mem _ (by simpa using h)
    · obtain rfl | h := List.mem_cons.1 h
      · exact List.mem_cons_self
      · exact List.mem_cons_of_mem _ (ih h)

/-- A request that may go on is one of those that wait. -/
theorem State.mem_of_ready {m : MemCtl} {r : MemReq} {u : State} (n : Nat) :
    ∀ {s : State} {l : List MemReq}, s.ready m n l = (some r, u) → r ∈ l := by
  induction n with
  | zero => intro s l h; cases h
  | succ n ih =>
    intro s l h
    rw [State.ready] at h
    split at h
    · cases h
    · rename_i x hx
      dsimp only at h
      split at h
      · exact mem_of_mem_replaceReq (ih h)
      · cases h; exact State.mem_of_pick hx

/-- Settles O36: each arbiter event where a request is ready, and the pick. -/
theorem memoryArbitersComplete : Obligations.MemoryArbitersComplete := by
  unfold Obligations.MemoryArbitersComplete
  refine ⟨fun s m r hl => ⟨fun hw hat => ?request, fun u hs hr => ⟨fun ecc hlane => ?grant, fun ecc q hlane => ?rest,
    fun words hlane hlt => ?preempt⟩⟩, fun s m l => ⟨State.pick_eq_none.symm, fun r => State.mem_of_pick, fun r u => State.mem_of_ready _⟩⟩
  case request =>
    rw [exec_memRequest, execMemRequest, State.live_of_running hl]
    refine congrArg _ (if_neg ?_)
    simpa [hw] using hat
  case grant =>
    rw [exec_memGrant, execMemGrant, State.live_of_running hl, if_pos hs, hr]
    dsimp only
    rw [hlane]
    rfl
  case rest =>
    rw [exec_memGrant, execMemGrant, State.live_of_running hl, if_pos hs, hr]
    dsimp only
    rw [hlane]
    rfl
  case preempt =>
    rw [exec_memPreempt, execMemPreempt, State.live_of_running hl, if_pos hs, hr]
    exact if_pos ⟨hlt, by rw [hlane]; rfl⟩

/-! ### Commits, the governor and gather engines -/

/-- A commit puts the shadowed registers in force one after another. -/
theorem State.commitRegs_eq (s : State) {v : W64} (rs : List Nat) (hv : bitOf v 0 = true) :
    s.commitRegs v rs = { s with inForce := rs.foldl (fun m a => m.put (fun _ => 0) a (s.reg a)) s.inForce } := by
  rw [State.commitRegs, if_pos hv]
  have go (rs : List Nat) : ∀ m : SMap W64,
      rs.foldl (fun s a => { s with inForce := s.inForce.put (fun _ => 0) a (s.reg a) }) { s with inForce := m } =
        { s with inForce := rs.foldl (fun m a => m.put (fun _ => 0) a (s.reg a)) m } := by
    induction rs with
    | nil => exact fun m => rfl
    | cons a rs ih => exact fun m => ih _
  exact go rs s.inForce

/-- Settles O38: the commits by `State.commitRegs_eq`, the governor's queue by its length. -/
theorem commitsAndGovernorComplete : Obligations.CommitsAndGovernorComplete := by
  unfold Obligations.CommitsAndGovernorComplete
  refine ⟨fun s v hl hv => ⟨?hbm, ?lp, ?mesh, fun pc => ?cal⟩,
    fun s d hl => ⟨fun v hon hlen => ?queued, fun v hon hlen => ?lost, fun v rest hq => ?run⟩⟩
  case hbm => exact (State.live_of_running hl).trans (congrArg _ (s.commitRegs_eq _ hv))
  case lp => exact (State.live_of_running hl).trans (congrArg _ (s.commitRegs_eq _ hv))
  case mesh => exact (State.live_of_running hl).trans (congrArg _ (s.commitRegs_eq _ hv))
  case cal => exact State.live_of_running hl
  case queued => exact (State.live_ifOn _ hl hon).trans (congrArg _ (if_neg (by omega)))
  case lost => exact (State.live_ifOn _ hl hon).trans (congrArg _ (if_pos hlen))
  case run =>
    rw [exec_governorRun, execGovernorRun, State.live_of_running hl, hq]

/-- Settles O39: each event of a gather engine where its condition holds. -/
theorem gatherEnginesComplete : Obligations.GatherEnginesComplete := by
  unfold Obligations.GatherEnginesComplete
  refine fun s h r hl => ⟨fun hon hlen => ?queued, fun hon hlen => ?dropped, fun rest ecc hrun hq hfill hdom => ?run,
    fun x c hx hc hon hst => ?done⟩
  case queued =>
    refine (State.live_ifOn _ hl hon).trans (congrArg _ ?_)
    rw [State.nmgPush, if_neg (by omega)]
  case dropped =>
    refine (State.live_ifOn _ hl hon).trans (congrArg _ ?_)
    rw [State.nmgPush, if_pos hlen]
  case run =>
    obtain ⟨m, hm⟩ := s.strikes_eq (ecc.map (fun p => (p.1.toNat, p.2)))
    have hgo : (s.strikes (ecc.map (fun p => (p.1.toNat, p.2)))).memc.hbmFilled &&
        (s.strikes (ecc.map (fun p => (p.1.toNat, p.2)))).domOn (48 + h.val) := by
      rw [hm]; exact Bool.and_eq_true_iff.2 ⟨hfill, hdom⟩
    rw [exec_nmgRun, execNmgRun, State.live_of_running hl]
    generalize hu : s.strikes (ecc.map (fun p => (p.1.toNat, p.2))) = u at hm hgo
    have hrun' : u.nmgRun h.val = none := by rw [hm]; exact hrun
    have hq' : u.nmgQueue h.val = r :: rest := by rw [hm]; exact hq
    dsimp only
    rw [hrun', hq']
    dsimp only
    rw [if_pos hgo]
    refine ⟨fun hbad hwait => ?_, fun hbad => if_pos hbad⟩
    rw [if_neg (not_not.2 hbad), if_neg (by rw [hwait]; decide), State.anyWaits_none hwait]
  case done =>
    rw [exec_nmgDone, execNmgDone, State.live_of_running hl, hx]
    dsimp only
    rw [hc]
    dsimp only
    have hon' : (s.setNmgRun h.val none).coreOn c = true := hon
    have htb : (s.setNmgRun h.val none).tb = s.tb := rfl
    rw [if_neg hst, hon', if_neg (by decide), htb]

end Sys2Proof.Machine
end

section
/-! The queue pool (spec/15_queue_pool.md) and a flit that is discarded (spec/17_borvik_links.md): the settlement of O40, O41 and O46. -/
namespace Sys2Proof.Machine

/-! ### Admission -/

/-- A look at the other side's count writes no register. -/
@[simp] theorem State.lookFreed_regs (s : State) (q : Nat) : (s.lookFreed q).regs = s.regs := by
  unfold State.lookFreed
  dsimp only
  split <;> rfl

/-- What R425 and R426 ask of a packet: its queue enabled, its cells within the LIMIT, and on the free list. -/
theorem State.admits_iff {s : State} {q n : Nat} : s.admits q n = true ↔ bitOf (s.reg (rQcfg q)) 59 = true ∧
    (s.queue q).cells + (s.queue q).rl.lag + cellsOf n ≤ s.rf (rQcfg q) 0 17 ∧ cellsOf n ≤ s.freeCells (dieOf q) := by
  simp [State.admits, and_assoc]

/-- Settles O40: `State.admits_iff` after the look at what the consumer has released. -/
theorem pushAdmitsOrIgnores : Obligations.PushAdmitsOrIgnores := by
  unfold Obligations.PushAdmitsOrIgnores
  intro s q port data written hl h1 h2 prod hdom hmore u x n room cells
  have hreg : u.reg (rQcfg q.val) = s.reg (rQcfg q.val) := by rw [State.reg, s.lookFreed_regs, State.reg]
  have hroom : u.admits q.val data.length = true ↔ room := by rw [State.admits_iff, State.rf, hreg]; rfl
  have hpush : exec (.packetPush q port data written) s = .next (s.pushPkt q.val prod data written) := by
    rw [exec_packetPush, execPacketPush, State.live_of_running hl]
    dsimp only
    rw [if_neg (by rw [hdom]; rintro (h | h | h); exacts [by omega, by omega, nomatch h]), hmore, Option.getD_none]
  rw [hpush, State.pushPkt]
  exact ⟨fun h => congrArg _ (if_pos (hroom.2 h)), fun h => congrArg _ (if_neg (mt hroom.1 h)), State.lookFreed_seen⟩

/-! ### Pops and breaks -/

/-- A packet whose link words all match has no bad cell. -/
theorem QPkt.findIdx_of_linked {p : QPkt} (h : p.linked = true) : p.cells.findIdx? (fun c => !c.ok) = none := by
  rw [List.findIdx?_eq_none_iff]
  intro c hc
  rw [List.all_eq_true.1 h c hc]
  rfl

/-- A pop of a powered queue. -/
theorem exec_packetPop_on {s : State} {q : QueueNo} {pop : PopCmd} (hl : Live s) (hon : s.domOn (76 + dieOf q.val) = true) :
    exec (.packetPop q pop) s = .next ((s.strikeLink q.val pop.err).popPkt q.val pop.limit).2 := by
  rw [exec_packetPop, execPacketPop, State.live_of_running hl, if_pos hon]

section
variable {s : State} {q limit : Nat} {p : QPkt} (hp : (s.lookWritten q).qHead q = some p)
include hp

/-- The pop of a whole packet from a queue that no FLUSH waits for. -/
theorem State.popPkt_whole (hlink : p.linked = true) (hw : p.whole = true) (hf : ((s.lookWritten q).queue q).flush = false) :
    (s.popPkt q limit).2 =
      (let u := s.lookWritten q
       let y := u.queue q
       let t := u.setQueue q { y with pkts := y.pkts.drop 1, rl := y.rl.add p.cells.length u.tb.time }
       if limit < p.data.length then t.bumpHi (rQpCnt (dieOf q) 0) 1 else t) := by
  rw [State.popPkt]
  dsimp only
  rw [hp]
  dsimp only
  rw [QPkt.findIdx_of_linked hlink]
  dsimp only
  rw [hw, if_neg (by decide), State.dropHead]
  simp only [hf, Bool.false_eq_true, if_false]

/-- The pop of a packet begun whose cells are still to come waits (R433). -/
theorem State.popPkt_begun (hlink : p.linked = true) (hw : p.whole = false) :
    (s.popPkt q limit).2 = (s.lookWritten q).setQueue q { (s.lookWritten q).queue q with
      pkts := ({ p with begun := true } : QPkt) :: ((s.lookWritten q).queue q).pkts.drop 1 } := by
  rw [State.popPkt]
  dsimp only
  rw [hp]
  dsimp only
  rw [QPkt.findIdx_of_linked hlink]
  dsimp only
  rw [hw, if_pos (by decide)]

/-- The pop of a packet whose first link word mismatches disables the queue. -/
theorem State.popPkt_badLink (h0 : p.cells.findIdx? (fun c => !c.ok) = some 0) : (s.popPkt q limit).2 = (s.lookWritten q).badLink q := by
  rw [State.popPkt]
  dsimp only
  rw [hp]
  dsimp only
  rw [h0]
  rfl

end

/-- Packets break at a time that has come. -/
theorem exec_packetBreak_due {s : State} {q : QueueNo} {t : Nat} (hl : Live s) (ht : s.breakAt q.val = some t) (hle : t ≤ s.tb.time.toNat) :
    exec (.packetBreak q) s = .next (s.breakThose q.val (fun p => p.stuck s.tb.time)) := by
  rw [exec_packetBreak, execPacketBreak, State.live_of_running hl, State.breakPkt, ht, Option.bind_some, State.reachBy, if_pos hle]

/-! ### Configuration -/

/-- FLUSH changes no field of a configuration below bit 60. -/
theorem fld_or_flush (v : W64) {lo len : Nat} (h : lo + len ≤ 60) : fld (v ||| 0x1000000000000000#64) lo len = fld v lo len := by
  rw [fld, fld, ← Nat.shiftRight_eq_div_pow, ← Nat.shiftRight_eq_div_pow]
  apply Nat.eq_of_testBit_eq
  intro i
  simp only [Nat.testBit_mod_two_pow, Nat.testBit_shiftRight, BitVec.toNat_or, Nat.testBit_or]
  by_cases hi : i < len
  · have h60 : Nat.testBit (0x1000000000000000#64).toNat (lo + i) = false := by
      rw [show (0x1000000000000000#64).toNat = 2 ^ 60 from rfl, Nat.testBit_two_pow]
      exact decide_eq_false (by omega)
    rw [h60, Bool.or_false]
  · rw [decide_eq_false hi, Bool.false_and, Bool.false_and]

/-- A legal configuration is taken (R427, R428). -/
theorem State.qcfgWrite_legal {s : State} {q : Nat} {v : W64}
    (hbusy : bitOf (s.reg (rQcfg q)) 59 = true ∨ (s.queue q).cells ≠ 0 →
      fld (s.reg (rQcfg q)) 0 17 = fld v 0 17 ∧ fld (s.reg (rQcfg q)) 34 11 = fld v 34 11)
    (hmode : fld v 45 2 ≠ 3) (hcut : fld v 34 7 ≤ 64) (hflush : (bitOf v 60 && bitOf v 59) = false) :
    s.qcfgWrite q v = (let t := s.setReg (rQcfg q) (v &&& qcfgMask); if bitOf v 60 then t.flushQueue q else t) := by
  rw [State.qcfgWrite]
  refine if_neg ?_
  simp only [hflush, Bool.or_false, Bool.or_eq_true, Bool.and_eq_true, decide_eq_true_eq, beq_iff_eq, bne_iff_ne]
  rintro ((⟨hb, hmoved⟩ | h) | h)
  · obtain ⟨hlim, htop⟩ := hbusy (hb.imp_right Nat.pos_iff_ne_zero.1)
    exact hmoved.elim (· hlim) (· htop)
  · exact hmode h
  · exact absurd hcut (Nat.not_le_of_lt h)

/-- Settles O41: a pop by its head, a break by its time, a configuration by `State.qcfgWrite_legal`. -/
theorem queuePoolCompletes : Obligations.QueuePoolCompletes := by
  unfold Obligations.QueuePoolCompletes
  intro s q hl x
  refine ⟨fun p limit hdom => ⟨fun k e => ?strike, fun hp => ⟨fun hlink hw hf => ?whole, fun hlink hw => ?begun, fun h0 => ?bad⟩⟩,
    fun t ht => ⟨fun hle => ?due, fun hlt hpitch hmax => ?later⟩,
    fun v hon hbusy hmode hcut => ⟨fun h60 => ?write, fun h59 => ?flush⟩⟩
  case strike =>
    rw [exec_packetPop_on hl hdom, exec_packetPop_on (s := s.setQueue q.val _) hl hdom]
    rfl
  case whole => exact (exec_packetPop_on hl hdom).trans (congrArg _ (State.popPkt_whole hp hlink hw hf))
  case begun => exact (exec_packetPop_on hl hdom).trans (congrArg _ (State.popPkt_begun hp hlink hw))
  case bad => exact (exec_packetPop_on hl hdom).trans (congrArg _ (State.popPkt_badLink hp h0))
  case due =>
    rw [exec_packetBreak_due hl ht hle, State.breakThose]
  case later =>
    have htime : (s.reach (BitVec.ofNat 64 t)).tb.time.toNat = t := Nat.mod_eq_of_lt hmax
    rw [exec_packetBreak_due (s := s.reach (BitVec.ofNat 64 t)) hl ht htime.ge, exec_packetBreak, execPacketBreak, State.live_of_running hl,
      State.breakPkt, ht, Option.bind_some, State.reachBy, if_neg (by omega), if_pos (by omega)]
  case write =>
    refine (State.live_ifOn _ hl hon).trans (congrArg _ ?_)
    rw [State.qcfgWrite_legal hbusy hmode hcut (by rw [h60]; rfl), h60]
    rfl
  case flush =>
    have hbit : bitOf (v ||| 0x1000000000000000#64) 60 = true := by simp [bitOf]
    have hmask : (v ||| 0x1000000000000000#64) &&& qcfgMask = v &&& qcfgMask := by
      rw [BitVec.and_comm, BitVec.and_or_distrib_left, BitVec.and_comm qcfgMask v]
      exact BitVec.or_zero
    refine (State.live_ifOn _ hl hon).trans (congrArg _ ?_)
    rw [State.qcfgWrite_legal (by simpa only [fld_or_flush, Nat.reduceAdd, Nat.reduceLeDiff] using hbusy)
      (by simpa only [fld_or_flush, Nat.reduceAdd, Nat.reduceLeDiff] using hmode)
      (by simpa only [fld_or_flush, Nat.reduceAdd, Nat.reduceLeDiff] using hcut) (by simp [bitOf] at h59 ⊢; exact h59), hbit, hmask]
    exact (apply_ite (fun y => (s.setReg (rQcfg q.val) (v &&& qcfgMask)).setQueue q.val y) _ _ _).symm

/-! ### A flit that is discarded -/

section
variable (s : State) (l : Link)

@[simp] theorem State.link_setLink_same (x : LinkSt) : (s.setLink l x).link l = x := by
  exact Vector.getElem_set_self l.isLt

theorem State.link_setLink_other (x : LinkSt) {k : Link} (h : k ≠ l) : (s.setLink l x).link k = s.link k := by
  exact Vector.getElem_set_ne l.isLt k.isLt (fun hv => h (Fin.ext hv.symm))

/-- A resend request empties what has been received of the record and asks from its first flit on (R463). -/
theorem State.link_askResend : (s.askResend l).link l =
    (let first := ((s.link l).rxSeq + 1024 - (s.link l).rx.length % 1024) % 1024
     { s.link l with rx := [], cut := [], lost := true, rxSeq := first, txq := ctrlFlit (ctrlRetry first) :: (s.link l).txq }) := by
  rw [State.askResend, State.sendCtrl, State.link_setLink_same, State.link_setLink_same]

theorem State.link_askResend_other {k : Link} (h : k ≠ l) : (s.askResend l).link k = s.link k := by
  rw [State.askResend, State.sendCtrl, State.link_setLink_other _ _ _ h, State.link_setLink_other _ _ _ h]

end

/-- Settles O46: the flit is counted, and its link asks for a resend. -/
theorem badFlitIsDiscarded : Obligations.BadFlitIsDiscarded := by
  unfold Obligations.BadFlitIsDiscarded
  intro s l f hl hup hcrc
  have hexec : exec (.flitReceive l f) s = .next ((s.bumpHi (rLcnt l.val 0) 1).askResend l) := by
    rw [exec_flitReceive, execFlitReceive, State.live_of_running hl, if_pos hup]
    dsimp only
    rw [checkFlit_badCrc s l f hcrc]
    rfl
  have hlink (k : Link) : (s.bumpHi (rLcnt l.val 0) 1).link k = s.link k := by rw [State.link, State.bumpHi_bv, State.link]
  refine ⟨_, hexec, ?_, ?_, ?_, ?_, ?_, ?_, ?_, fun k hk => ?_⟩
  · exact congrArg (·.arrived) (s.bumpHi_bv (rLcnt l.val 0) 1)
  · exact s.bumpHi_mem (rLcnt l.val 0) 1
  · exact s.bumpHi_cores (rLcnt l.val 0) 1
  · rw [State.link_askResend]
  · rw [State.link_askResend]
  · rw [State.link_askResend, hlink]
  · rw [State.link_askResend, hlink]
  · rw [State.link_askResend_other _ _ hk, hlink]

end Sys2Proof.Machine
end

section
/-! PART_TIMEOUT (spec/10_stream_engines.md, R307): the settlement of O35. -/
namespace Sys2Proof.Machine

/-! ### The directory leaves the engines -/

theorem Recorded.eng {s t : State} (h : Recorded s t) (c : Core) (e : Eng) : t.eng c e = s.eng c e := by
  obtain ⟨f, hf⟩ := h.core c
  rw [State.eng, hf]
  rfl

/-- An access that has been made lets those behind it go on, which only records. -/
theorem State.cohDone_recorded (s : State) (who : NzWho) (lines : List Nat) : Recorded s (s.cohDone who lines) :=
  Recorded.foldl (fun s l => (Recorded.of_nz s _).trans (dirResume_recorded _ l)) lines s

/-- The run that an engine has just been given. -/
theorem State.eng_setRun (s : State) (c : Core) (e : Eng) (r : StrRun) : ((s.setRun c e r).eng c e).cur = some r := by
  rw [State.eng, State.setRun, State.setEng, State.onCore_core, CoreSt.getEng, CoreSt.setEng]
  exact congrArg EngSt.cur (Vector.getElem_set_self e.isLt)

/-! ### Reads and writes that are late -/

/-- The reads or writes of a part that wait, each with the time at which it is late. -/
def dueOf (lim : Nat) (mine : Nat → Bool) (l : List (Nat × Got)) : List (Nat × Nat) := l.filterMap (fun x => match x.2 with
  | .waiting t _ => if mine x.1 then some (x.1, t + lim) else none
  | _ => none)

/-- Those of a list that are late by a time. -/
def lateBy (now : Nat) (l : List (Nat × Nat)) : List Nat := (l.filter (fun x => decide (x.2 ≤ now))).map (·.1)

/-- What a transfer answers after those of a list have failed. -/
def failIn (l : List Nat) (x : Nat × Got) : Nat × Got := if l.contains x.1 then (x.1, .failed 5 0) else x

theorem mem_dueOf {lim : Nat} {mine : Nat → Bool} {l : List (Nat × Got)} {x : Nat × Nat} :
    x ∈ dueOf lim mine l ↔ ∃ since id, (x.1, Got.waiting since id) ∈ l ∧ mine x.1 = true ∧ x.2 = since + lim := by
  obtain ⟨a, t⟩ := x
  rw [dueOf, List.mem_filterMap]
  constructor
  · rintro ⟨⟨b, g⟩, hb, hg⟩
    cases g with
    | waiting since id =>
      dsimp only at hg
      split at hg
      · rename_i hmine; cases hg; exact ⟨since, id, hb, hmine, rfl⟩
      · cases hg
    | data v => cases hg
    | bytes bs => cases hg
    | failed reason link => cases hg
  · rintro ⟨since, id, hl, hmine, ht⟩
    exact ⟨_, hl, by dsimp only at hmine ht ⊢; rw [if_pos hmine, ht]⟩

theorem mem_lateBy {lim now a : Nat} {mine : Nat → Bool} {l : List (Nat × Got)} :
    a ∈ lateBy now (dueOf lim mine l) ↔ (∃ since id, (a, Got.waiting since id) ∈ l ∧ since + lim ≤ now) ∧ mine a = true := by
  simp only [lateBy, List.mem_map, List.mem_filter, mem_dueOf, decide_eq_true_eq]
  constructor
  · rintro ⟨x, ⟨⟨since, id, hl, hmine, ht⟩, hle⟩, rfl⟩
    exact ⟨⟨since, id, hl, ht ▸ hle⟩, hmine⟩
  · rintro ⟨⟨since, id, hl, hle⟩, hmine⟩
    exact ⟨(a, since + lim), ⟨⟨since, id, hl, hmine, rfl⟩, hle⟩, rfl⟩

theorem mem_map_failIn {late : List Nat} {l : List (Nat × Got)} {a : Nat} {g : Got} :
    (a, g) ∈ l.map (failIn late) ↔ ((∃ g', (a, g') ∈ l) ∧ a ∈ late ∧ g = .failed 5 0) ∨ ((a, g) ∈ l ∧ a ∉ late) := by
  rw [List.mem_map]
  constructor
  · rintro ⟨⟨b, g'⟩, hb, hx⟩
    by_cases hlate : b ∈ late
    · rw [failIn, if_pos (List.contains_iff_mem.2 hlate)] at hx
      cases hx
      exact .inl ⟨⟨g', hb⟩, hlate, rfl⟩
    · rw [failIn, if_neg (mt List.contains_iff_mem.1 hlate)] at hx
      cases hx
      exact .inr ⟨hb, hlate⟩
  · rintro (⟨⟨g', hb⟩, hlate, rfl⟩ | ⟨hb, hlate⟩)
    · exact ⟨_, hb, if_pos (List.contains_iff_mem.2 hlate)⟩
    · exact ⟨_, hb, if_neg (mt List.contains_iff_mem.1 hlate)⟩

/-! ### The time that an event reaches -/

/-- An event that can fire leaves GLOBAL_TIME at its own time or, where that has passed, as it is. -/
theorem State.reachBy_some {s t : State} {m : Nat} (h : s.reachBy m = some t) :
    ∃ w, t = s.reach w ∧ s.tb.time.toNat ≤ w.toNat ∧ m ≤ w.toNat := by
  rw [State.reachBy] at h
  split at h
  · rename_i hm
    cases h
    exact ⟨s.tb.time, rfl, Nat.le_refl _, hm⟩
  · split at h
    · rename_i hm hlt
      cases h
      have hw : (BitVec.ofNat 64 m).toNat = m := Nat.mod_eq_of_lt (lt_of_lt_of_le hlt (Nat.min_le_right _ _))
      exact ⟨_, rfl, by omega, by omega⟩
    · cases h

/-- An event that cannot fire is due after the present pitch. -/
theorem State.reachBy_none {s : State} {m : Nat} (h : s.reachBy m = none) :
    s.tb.time.toNat < m ∧ (s.nextPitchTime ≤ m ∨ 2 ^ 64 ≤ m) := by
  rw [State.reachBy] at h
  split at h
  · cases h
  · split at h
    · cases h
    · omega

/-! ### The event -/

section
variable (s : State) (c : Core) (e : Eng) (p : Fin 64) (r : StrRun)

/-- Is an address one that the part reads? -/
def StrRun.readsOf (a : Nat) : Bool := r.reads.any (fun x => x.1 == a && (x.2 == p.val || x.2 == 64))
/-- Is a write one that the part makes? -/
def StrRun.writesOf (k : Nat) : Bool := r.pend.any (fun x => x.key == k && x.part == p.val)

theorem StrRun.readsOf_iff {a : Nat} : r.readsOf p a = true ↔ (a, p.val) ∈ r.reads ∨ (a, 64) ∈ r.reads := by
  simp only [StrRun.readsOf, List.any_eq_true, Bool.and_eq_true, Bool.or_eq_true, beq_iff_eq]
  constructor
  · rintro ⟨⟨b, k⟩, hb, rfl, rfl | rfl⟩
    · exact .inl hb
    · exact .inr hb
  · rintro (h | h)
    · exact ⟨_, h, rfl, .inl rfl⟩
    · exact ⟨_, h, rfl, .inr rfl⟩

theorem StrRun.writesOf_iff {k : Nat} : r.writesOf p k = true ↔ ∃ w ∈ r.pend, w.key = k ∧ w.part = p.val := by
  simp only [StrRun.writesOf, List.any_eq_true, Bool.and_eq_true, beq_iff_eq]

/-- The reads and writes of a part with the times at which they are late. -/
def State.partDue : List (Nat × Nat) × List (Nat × Nat) :=
  let lim := 1000 * s.rf (rStrCtl c) 0 16
  (dueOf lim (r.readsOf p) r.cache, dueOf lim (r.writesOf p) r.acks)

/-- The run after the reads and writes that are late have failed. -/
def StrRun.failLate (lateR lateW : List Nat) : StrRun :=
  { r with cache := r.cache.map (failIn lateR), acks := r.acks.map (failIn lateW) }

/-- The state after the reads and writes that are late have failed. -/
def State.failLate (lateR lateW : List Nat) : State :=
  ((s.strForget c e (fun a w => if w then lateW.contains a else lateR.contains a)).setRun c e (r.failLate lateR lateW)).cohDone
    (.unit c (4 + e.val)) ((lateR.filter (fun a => !(s.farAddr a))).map (fun a => localOf a / 64))

/-- PART_TIMEOUT reaches the first time at which a transfer of the part is late, and fails those that then are. -/
theorem exec_partTimeout_run (hl : Live s) (hr : (s.eng c e).cur = some r) :
    exec (.partTimeout c e p) s = .next (match (((s.partDue c p r).1 ++ (s.partDue c p r).2).map (·.2)).min?.bind s.reachBy with
      | none => s
      | some t => t.failLate c e r (lateBy t.tb.time.toNat (s.partDue c p r).1) (lateBy t.tb.time.toNat (s.partDue c p r).2)) := by
  rw [exec_partTimeout, execPartTimeout, State.live_of_running hl, hr]
  rfl

theorem State.failLate_tb (lr lw : List Nat) : (s.failLate c e r lr lw).tb = s.tb := (State.cohDone_recorded _ _ _).tb

theorem State.failLate_cur (lr lw : List Nat) : ((s.failLate c e r lr lw).eng c e).cur = some (r.failLate lr lw) := by
  rw [State.failLate, (State.cohDone_recorded _ _ _).eng, State.eng_setRun]

/-- Where every read that failed was of another device or the companion, no word of a memory is waited for. -/
theorem State.failLate_far {lr : List Nat} (lw : List Nat) (h : ∀ a ∈ lr, s.farAddr a = true) :
    (s.failLate c e r lr lw).mem = s.mem ∧ (s.failLate c e r lr lw).regs = s.regs := by
  have hnone : lr.filter (fun a => !(s.farAddr a)) = [] := List.filter_eq_nil_iff.2 (fun a ha => by simp [h a ha])
  rw [State.failLate, hnone]
  exact ⟨rfl, rfl⟩

end

/-- Settles O35: the event fails what is late at the time that it reaches, which is the first of the due times. -/
theorem partTimeoutFailsLateTransfers : Obligations.PartTimeoutFailsLateTransfers := by
  unfold Obligations.PartTimeoutFailsLateTransfers
  intro s c e p r hl hr lim due readOf writeOf
  have hexec := exec_partTimeout_run s c e p r hl hr
  have hread {now a : Nat} : a ∈ lateBy now (s.partDue c p r).1 ↔ due r.cache a now ∧ readOf a :=
    mem_lateBy.trans (and_congr_right' (StrRun.readsOf_iff p r))
  have hwrite {now k : Nat} : k ∈ lateBy now (s.partDue c p r).2 ↔ due r.acks k now ∧ writeOf k :=
    mem_lateBy.trans (and_congr_right' (StrRun.writesOf_iff p r))
  generalize (s.partDue c p r).1 = lr at hexec hread
  generalize (s.partDue c p r).2 = lw at hexec hwrite
  have hlate {n : Nat} : ((∃ a, due r.cache a n ∧ readOf a) ∨ ∃ k, due r.acks k n ∧ writeOf k) ↔ ∃ x ∈ lr ++ lw, x.2 ≤ n := by
    simp only [← hread, ← hwrite, lateBy, List.mem_map, List.mem_filter, decide_eq_true_eq, List.mem_append]
    constructor
    · rintro (⟨_, x, ⟨hx, hn⟩, -⟩ | ⟨_, x, ⟨hx, hn⟩, -⟩)
      · exact ⟨x, .inl hx, hn⟩
      · exact ⟨x, .inr hx, hn⟩
    · rintro ⟨x, hx | hx, hn⟩
      · exact .inl ⟨_, x, ⟨hx, hn⟩, rfl⟩
      · exact .inr ⟨_, x, ⟨hx, hn⟩, rfl⟩
  cases hfirst : ((lr ++ lw).map (·.2)).min?.bind s.reachBy with
  | none =>
    rw [hfirst] at hexec
    have hfar : ∀ x ∈ lr ++ lw, s.tb.time.toNat < x.2 ∧ (s.nextPitchTime ≤ x.2 ∨ 2 ^ 64 ≤ x.2) := by
      intro x hx
      cases hm : ((lr ++ lw).map (·.2)).min? with
      | none => rw [List.map_eq_nil_iff.1 (List.min?_eq_none_iff.1 hm)] at hx; cases hx
      | some m =>
        rw [hm] at hfirst
        have hmx := (List.min?_eq_some_iff.1 hm).2 x.2 (List.mem_map_of_mem hx)
        have := State.reachBy_none hfirst
        omega
    have hnow := mt hlate.1 (fun ⟨x, hx, hn⟩ => absurd (hfar x hx).1 (Nat.not_lt_of_le hn))
    obtain ⟨hreads, hwrites⟩ := not_or.1 hnow
    refine ⟨s, r, hexec, hr, Nat.le_refl _, fun n hn hmax hdue => ?_, fun _ => ⟨rfl, rfl⟩, fun a g => ?_, fun k g => ?_⟩
    · obtain ⟨x, hx, hle⟩ := hlate.1 hdue
      have := hfar x hx
      omega
    · simp [not_exists.1 hreads a]
    · simp [not_exists.1 hwrites k]
  | some t =>
    rw [hfirst] at hexec
    obtain ⟨m, hm, ht⟩ := Option.bind_eq_some_iff.1 hfirst
    obtain ⟨x, hx, rfl⟩ := List.mem_map.1 (List.min?_eq_some_iff.1 hm).1
    obtain ⟨w, rfl, hle, hdue⟩ := State.reachBy_some ht
    refine ⟨_, _, hexec, State.failLate_cur _ _ _ _ _ _, ?_⟩
    rw [State.failLate_tb]
    refine ⟨hle, fun _ _ _ _ => hlate.2 ⟨x, hx, hdue⟩, fun hfar => ?_, fun a g => ?_, fun k g => ?_⟩
    · refine State.failLate_far _ _ _ _ _ (fun a ha => ?_)
      obtain ⟨⟨since, id, hmem, -⟩, -⟩ := hread.1 ha
      exact hfar a _ hmem
    · exact mem_map_failIn.trans (by rw [hread])
    · exact mem_map_failIn.trans (by rw [hwrite])

end Sys2Proof.Machine
end

section
/-! Accumulator windows and pantries from the mesh (spec/06_accumulation_belay.md, R156 to R158): the settlement of O31. -/
namespace Sys2Proof.Machine

/-! ### Addresses of the windows -/

theorem eq_val_of_coreOf? {n : Nat} {c : Core} (h : coreOf? n = some c) : n = c.val := by
  rw [coreOf?] at h
  split at h
  · cases h; rfl
  · cases h

/-- The place of a window address. -/
theorem accWindow_eq_some {a : Nat} {d : Core} {off : Nat} :
    accWindow a = some (d, off) ↔ a = 0x40000000 + 0x200000 * d.val + off ∧ off < 0x200000 := by
  rw [accWindow]
  split
  · exact ⟨fun h => (Option.some_ne_none _ h.symm).elim, fun h => by omega⟩
  · rename_i hlow
    split
    · rename_i c hc
      have hval := eq_val_of_coreOf? hc
      rw [Option.some.injEq, Prod.mk.injEq]
      constructor
      · rintro ⟨rfl, rfl⟩; omega
      · rintro ⟨ha, hoff⟩; exact ⟨Fin.ext (by omega), by omega⟩
    · rename_i hc
      refine ⟨fun h => (Option.some_ne_none _ h.symm).elim, fun h => ?_⟩
      rw [show (a - 0x40000000) / 0x200000 = d.val by omega, coreOf?_val] at hc
      cases hc

/-- The reserved part of a window is its last quarter. -/
theorem accReserved_of_window {a : Nat} {d : Core} {off : Nat} (h : accWindow a = some (d, off)) :
    accReserved a = decide (0x180000 ≤ off) := by
  obtain ⟨ha, hoff⟩ := accWindow_eq_some.1 h
  rw [accReserved, show a % 0x200000 = off by omega]

/-! ### Runs -/

/-- No bytes make no run. -/
theorem accRuns_zero (k a : Nat) : accRuns k a 0 = [] := by cases k <;> rfl

/-- Runs up to a boundary, and the runs after it. -/
theorem accRuns_append (k : Nat) : ∀ {a m r : Nat}, (a + m) % 0x80000 = 0 → a % 0x80000 + (m + r) ≤ 0x80000 * k →
    ∃ k', accRuns k a (m + r) = accRuns k a m ++ accRuns k' (a + m) r ∧ r ≤ 0x80000 * k' := by
  induction k with
  | zero => intro a m r _ hk; exact ⟨0, rfl, by omega⟩
  | succ k ih =>
    intro a m r hb hk
    by_cases hm : m = 0
    · subst hm
      exact ⟨k + 1, by rw [Nat.zero_add, Nat.add_zero]; rfl, by omega⟩
    · obtain ⟨k', hruns, hk'⟩ := ih (a := a + (0x80000 - a % 0x80000)) (m := m - (0x80000 - a % 0x80000)) (r := r) (by omega) (by omega)
      refine ⟨k', ?_, hk'⟩
      rw [accRuns, accRuns, if_neg (by omega), if_neg hm]
      dsimp only
      rw [show min (m + r) (0x80000 - a % 0x80000) = 0x80000 - a % 0x80000 by omega,
        show min m (0x80000 - a % 0x80000) = 0x80000 - a % 0x80000 by omega, List.cons_append,
        show m + r - (0x80000 - a % 0x80000) = m - (0x80000 - a % 0x80000) + r by omega, hruns,
        show a + (0x80000 - a % 0x80000) + (m - (0x80000 - a % 0x80000)) = a + m by omega]

/-- Bytes stored one after another. -/
theorem Memory.write_append (xs ys : List Byte) : ∀ (m : List Host.Cell) (a : Nat),
    Memory.write m a (xs ++ ys) = Memory.write (Memory.write m a xs) (a + xs.length) ys := by
  induction xs with
  | nil => exact fun m a => rfl
  | cons x xs ih =>
    intro m a
    rw [List.cons_append, Memory.write, Memory.write, ih, List.length_cons, Nat.add_assoc, Nat.add_comm 1]

/-- One run of a write that began at address base. -/
def runWrite (base : Nat) (bs : List Byte) (x : Nat × State) (p : Nat × Nat) : Nat × State :=
  let y := x.2.accRunWrite p.1 ((bs.drop (p.1 - base)).take p.2)
  (if x.1 = 0 then y.1 else x.1, y.2)

/-- A window write of whole elements makes its runs. -/
theorem State.accWrite_aligned (s : State) (c : Core) {a : Nat} {bs : List Byte} (ha : a % 4 = 0) (hb : bs.length % 4 = 0) :
    s.accWrite c a bs = (accRuns (bs.length / 0x80000 + 2) a bs.length).foldl (runWrite a bs) (0, s) := by
  rw [State.accWrite, if_neg (by omega)]
  rfl

/-- A run within the reserved part writes nothing. -/
theorem runWrite_reserved {s : State} {a off m base : Nat} {bs : List Byte} {d : Core} (hw : accWindow a = some (d, off))
    (hon : s.coreOn d = true) (hres : 0x180000 ≤ off) : runWrite base bs (0, s) (a, m) = (0, s.accBad d a) := by
  rw [runWrite]
  dsimp only
  rw [State.accRunWrite, hw]
  dsimp only
  rw [hon, accReserved_of_window hw, decide_eq_true hres]
  rfl

/-- A run within a core's store writes its bytes. -/
theorem runWrite_store {s : State} {a off m base : Nat} {bs : List Byte} {d : Core} (hw : accWindow a = some (d, off))
    (hon : s.coreOn d = true) (hstore : off < 0x180000) : ∃ e, runWrite base bs (0, s) (a, m) =
      (0, { s with mem := Memory.write s.mem a ((bs.drop (a - base)).take m), ecc := e }) := by
  rw [runWrite]
  dsimp only
  rw [State.accRunWrite, hw]
  dsimp only
  rw [hon, accReserved_of_window hw, decide_eq_false (Nat.not_le_of_lt hstore)]
  exact ⟨_, rfl⟩

/-- Runs within one core's store write their bytes. -/
theorem foldl_runWrite_store {base : Nat} {bs : List Byte} {d : Core} (k : Nat) : ∀ {s : State} {a n off : Nat},
    (n ≠ 0 → a % 0x80000 + n ≤ 0x80000 * k) → (n ≠ 0 → accWindow a = some (d, off)) → off + n ≤ 0x180000 → s.coreOn d = true → base ≤ a →
      a - base + n ≤ bs.length → ∃ e, (accRuns k a n).foldl (runWrite base bs) (0, s) =
        (0, { s with mem := Memory.write s.mem a ((bs.drop (a - base)).take n), ecc := e }) := by
  induction k with
  | zero =>
    intro s a n off hk _ _ _ _ _
    rw [show n = 0 by by_contra hn; have := hk hn; omega]
    exact ⟨s.ecc, rfl⟩
  | succ k ih =>
    intro s a n off hk hwin hstore hon hbase hlen
    by_cases hn : n = 0
    · subst hn
      exact ⟨s.ecc, rfl⟩
    · have hw := hwin hn
      obtain ⟨ha, hoff⟩ := accWindow_eq_some.1 hw
      rw [accRuns, if_neg hn]
      dsimp only
      generalize hm : min n (0x80000 - a % 0x80000) = m
      obtain ⟨e, he⟩ := runWrite_store (base := base) (bs := bs) (m := m) hw hon (by omega)
      rw [List.foldl_cons, he]
      obtain ⟨e', he'⟩ := ih (s := { s with mem := Memory.write s.mem a ((bs.drop (a - base)).take m), ecc := e })
        (a := a + m) (n := n - m) (off := off + m) (fun h => by omega)
        (fun h => accWindow_eq_some.2 ⟨by omega, by omega⟩) (by omega) hon (by omega) (by omega)
      refine ⟨e', he'.trans ?_⟩
      have htake : (bs.drop (a - base)).take n = (bs.drop (a - base)).take m ++ (bs.drop (a + m - base)).take (n - m) := by
        rw [show a + m - base = a - base + m by omega, ← List.drop_drop, ← List.take_add]
        congr 1; omega
      rw [htake, Memory.write_append, List.length_take, List.length_drop, show min m (bs.length - (a - base)) = m by omega]

/-! ### The access -/

theorem Recorded.coreOn {s t : State} (h : Recorded s t) (c : Core) : t.coreOn c = s.coreOn c := by
  simp only [State.coreOn, State.domOn, State.powered, State.entering, State.returning, h.pwr]

/-- A rejected window access is recorded (R156 to R158). -/
theorem State.accBad_recorded (s : State) (c : Core) (a : Nat) : Recorded s (s.accBad c a) :=
  (bumpLo_recorded _ _ _).trans (raise_recorded _ _ _ _ _)

/-- A write that runs past a core's store writes the bytes in the store alone (R157). -/
theorem State.accWrite_past (s : State) (c d : Core) {a off : Nat} {bs : List Byte} (ha : a % 4 = 0) (hb : bs.length % 4 = 0)
    (hw : accWindow a = some (d, off)) (hon : s.coreOn d = true) (hstore : off < 0x180000) (hpast : 0x180000 < off + bs.length)
    (hend : off + bs.length ≤ 0x200000) : ∃ e, s.accWrite c a bs =
      (0, { s with mem := Memory.write s.mem a (bs.take (0x180000 - off)), ecc := e }.accBad d (a + (0x180000 - off))) := by
  obtain ⟨hval, hoff⟩ := accWindow_eq_some.1 hw
  obtain ⟨k, hruns, hk⟩ := accRuns_append (bs.length / 0x80000 + 2) (a := a) (m := 0x180000 - off) (r := bs.length - (0x180000 - off))
    (by omega) (by omega)
  obtain ⟨e, he⟩ := foldl_runWrite_store (base := a) (bs := bs) (d := d) (off := off) (bs.length / 0x80000 + 2) (s := s) (a := a)
    (n := 0x180000 - off) (fun _ => by omega) (fun _ => hw) (by omega) hon (Nat.le_refl _) (by omega)
  rw [Nat.sub_self, List.drop_zero] at he
  obtain ⟨k, rfl⟩ : ∃ j, k = j + 1 := ⟨k - 1, by omega⟩
  refine ⟨e, ?_⟩
  rw [State.accWrite_aligned s c ha hb]
  rw [show 0x180000 - off + (bs.length - (0x180000 - off)) = bs.length by omega] at hruns
  rw [hruns, List.foldl_append, he, accRuns, if_neg (by omega)]
  dsimp only
  rw [show bs.length - (0x180000 - off) - min (bs.length - (0x180000 - off)) (0x80000 - (a + (0x180000 - off)) % 0x80000) = 0 by omega,
    accRuns_zero, List.foldl_cons, List.foldl_nil]
  exact runWrite_reserved (off := 0x180000) (accWindow_eq_some.2 ⟨by omega, by omega⟩) hon (Nat.le_refl _)

/-- A write that begins in the reserved part and runs on into the next core's store writes the words there (R157). -/
theorem State.accWrite_into (s : State) (c d d' : Core) {a off : Nat} {bs : List Byte} (ha : a % 4 = 0) (hb : bs.length % 4 = 0)
    (hw : accWindow a = some (d, off)) (hon : s.coreOn d = true) (hres : 0x180000 ≤ off)
    (hw' : accWindow (a + (0x200000 - off)) = some (d', 0)) (hon' : s.coreOn d' = true) (hlen : 0x200000 - off < bs.length)
    (hend : bs.length ≤ 0x200000 - off + 0x180000) : ∃ e, s.accWrite c a bs =
      (0, { s.accBad d a with mem := Memory.write (s.accBad d a).mem (a + (0x200000 - off)) (bs.drop (0x200000 - off)), ecc := e }) := by
  obtain ⟨hval, hoff⟩ := accWindow_eq_some.1 hw
  obtain ⟨hval', -⟩ := accWindow_eq_some.1 hw'
  rw [← (s.accBad_recorded d a).coreOn] at hon'
  obtain ⟨e, he⟩ := foldl_runWrite_store (base := a) (bs := bs) (d := d') (off := 0) (bs.length / 0x80000 + 1) (s := s.accBad d a)
    (a := a + (0x200000 - off)) (n := bs.length - (0x200000 - off)) (fun _ => by omega) (fun _ => hw') (by omega) hon' (by omega) (by omega)
  refine ⟨e, ?_⟩
  rw [State.accWrite_aligned s c ha hb, accRuns, if_neg (by omega)]
  dsimp only
  rw [show min bs.length (0x80000 - a % 0x80000) = 0x200000 - off by omega, List.foldl_cons, runWrite_reserved hw hon hres, he,
    Nat.add_sub_cancel_left, List.take_of_length_le (by rw [List.length_drop])]

/-- Settles O31: the accesses take place, and a window write is cut into runs at the boundaries of the stores. -/
theorem windowAccessesComplete : Obligations.WindowAccessesComplete := by
  unfold Obligations.WindowAccessesComplete
  refine ⟨fun s a op ecc hl hloc => ⟨fun hwin => ?window, fun c w hpan => ?pantry⟩,
    fun s c a bs => ⟨fun hpart => ?misaligned, fun d off ha hb hw hon hres hpast hend => ?past, fun d e off ha hb hw hon hres hw' hon' hlen hend => ?into⟩⟩
  case window =>
    rw [exec_accWindowAccess, execAccWindowAccess, State.live_of_running hl, hloc, hwin]
    rfl
  case pantry =>
    rw [exec_meshPantryAccess, execMeshPantryAccess, State.live_of_running hl, hloc, hpan]
    rfl
  case misaligned =>
    rw [State.accWrite, if_pos hpart]
    exact ⟨rfl, (s.accBad_recorded c a).mem⟩
  case past =>
    rw [accReserved_of_window hw, decide_eq_false_iff_not, Nat.not_le] at hres
    obtain ⟨e, he⟩ := s.accWrite_past c d ha hb hw hon hres hpast hend
    exact ⟨_, he, rfl, rfl⟩
  case into =>
    rw [accReserved_of_window hw, decide_eq_true_eq] at hres
    obtain ⟨x, hx⟩ := s.accWrite_into c d e ha hb hw hon hres hw' hon' hlen hend
    refine ⟨_, hx, rfl, ?_⟩
    rw [(s.accBad_recorded d a).mem]
    rfl

end Sys2Proof.Machine
end

section
/-! Token dispatch (spec/13_conditional_computation.md): the settlement of O42. -/
namespace Sys2Proof.Machine

section
variable {s : State} {c : Core} {g : Ctx}

/-- A count of a pitch that has not begun is none that the slot holds. -/
theorem exec_xdCountReceive_now {rank : BitVec 16} {m : XdCount} (hl : Live s) (hp : m.pitch.toNat = s.tb.pitch) {x : XdRecv}
    (hx : (if ((s.core c).getXr g).busy && ((s.core c).getXr g).pitch == m.pitch.toNat then (s.core c).getXr g
      else { XdRecv.none with pitch := m.pitch.toNat, nsrc := m.nsrc, busy := true }) = x)
    (htot : x.total = none) (hnew : ∀ p ∈ x.counts, p.1 ≠ rank.toNat) :
    exec (.xdCountReceive c g rank m) s = .next
      (((s.countTaken c g rank.toNat).onCore c (fun k => k.setXr g { x with counts := x.counts ++ [(rank.toNat, m.count)] })).xdTry c g) := by
  rw [exec_xdCountReceive, execXdCountReceive, State.live_of_running hl]
  dsimp only
  rw [if_neg (by omega), hx]
  rw [if_neg (show ¬ m.pitch.toNat < (s.countTaken c g rank.toNat).tb.pitch from Nat.not_lt_of_le hp.ge), if_neg]
  rintro (h | h)
  · rw [htot] at h; cases h
  · obtain ⟨p, hp, hrank⟩ := List.any_eq_true.1 h
    exact hnew p hp (beq_iff_eq.1 hrank)

/-- The one dispatch that a core holds is sent in the pitch after it (R382). -/
theorem State.xdRows_one {x : XdSrc} (hx : (s.core c).xsrc = [x]) (hsent : x.sent = false) (hp : x.pitch + 1 = s.tb.pitch) :
    s.xdRows c = (x.rows.foldl (fun (s : State) e => s.xdSendRow c x.record x.pitch e)
      (s.onCore c (fun k => { k with xsrc := [{ x with sent := true }] }))).xdFlag c x.record := by
  have hsends : x.sends s.tb.pitch = true := by simp [XdSrc.sends, hsent, hp]
  have hmark : s.onCore c (fun k => { k with xsrc := k.xsrc.map (fun x => if x.sends s.tb.pitch then { x with sent := true } else x) }) =
      s.onCore c (fun k => { k with xsrc := [{ x with sent := true }] }) := by
    rw [State.onCore, State.onCore, hx, List.map_cons, List.map_nil, if_pos hsends]
  rw [State.xdRows, hmark, hx, List.filter_cons_of_pos (by exact hsends), List.filter_nil, List.foldl_cons, List.foldl_nil]

/-- A slot that no count of a pitch has reached has no rows of it (R380). -/
theorem State.xdZero_open {p : Nat} {busy : Bool} (hb : ((s.core c).getXr g).busy = false) (hp : ((s.core c).getXr g).pitch ≤ p)
    (hr : (s.core c).returned p = false) (hen : s.xrEnabled c g.val = true)
    (ht : ((s.core c).getXr g).pitch = p → ((s.core c).getXr g).total = none) : s.xdZero c g p busy =
      (s.onCore c (fun k => k.setXr g { XdRecv.none with pitch := p, total := some 0, busy := busy })).xdComplete c g := by
  rw [State.xdZero, if_neg (by rw [hb, hr, hen]; simpa using hp)]
  exact if_neg (fun ⟨hpitch, hsome⟩ => by rw [ht hpitch] at hsome; cases hsome)

/-- A row of at most one word is written at once (R383). -/
theorem State.xdPut_word (s : State) (c : Core) (word : Nat → Nat) {row : List Byte} (hlen : row.length ≤ 64) (hne : row ≠ []) :
    s.xdPut c word row = s.put 14 (s.full (pantryBase c + 64 * (word 0 % 262144))).toNat row := by
  obtain ⟨b, bs, rfl⟩ := List.exists_cons_of_ne_nil hne
  have hchunks : chunks 64 ((b :: bs).length + 1) (b :: bs) = [b :: bs] := by
    rw [chunks, List.take_of_length_le hlen, List.drop_eq_nil_of_le hlen]
    rfl
  rw [State.xdPut, hchunks, List.zipIdx_singleton, List.foldl_cons, List.foldl_nil]

end

/-- Settles O42: each event of a dispatch where its condition holds. -/
theorem tokenDispatchCompletes : Obligations.TokenDispatchCompletes := by
  unfold Obligations.TokenDispatchCompletes
  intro s c g hl
  refine ⟨fun n e he => ⟨fun hk => ?count, fun hk => ?ret⟩,
    fun rank count nsrc pitch => ⟨fun hp => ⟨fun hb hx ht hc => ?again, fun hnew => ?first⟩, fun hp => ?late⟩, ?rows,
    fun x hx hsent hp => State.xdRows_one hx hsent hp, fun p busy hb hp hr hen ht => State.xdZero_open hb hp hr hen ht,
    ?row,
    fun x entry rank pitch row hx => ?returned, ?xrx⟩
  case count =>
    rw [exec_topoXdispCount, execTopoXdispCount, State.live_of_running hl, he]
    exact if_pos hk
  case ret =>
    rw [exec_topoXdispReturn, execTopoXdispReturn, State.live_of_running hl, he]
    exact if_pos hk
  case again =>
    refine exec_xdCountReceive_now hl hp (x := (s.core c).getXr g) (if_pos ?_) ht hc
    dsimp only at hp ⊢
    rw [hb, hx, hp, beq_self_eq_true]
    rfl
  case first =>
    refine exec_xdCountReceive_now hl hp ?_ rfl (fun p hp => nomatch hp)
    rw [hp]
    exact if_neg (by simpa using hnew)
  case late =>
    rw [exec_xdCountReceive, execXdCountReceive, State.live_of_running hl]
    dsimp only
    rw [if_neg (by omega)]
    exact if_pos hp
  case rows =>
    rw [exec_xdispRows, execXdispRows, State.live_of_running hl]
  case row =>
    intro rank j srcDev srcCore entry row n k hen t x o htot hcnt hj ho hdrop v
    refine ⟨?_, fun hreg hlen hne => ?_⟩
    · rw [exec_xdRowReceive, execXdRowReceive, State.live_of_running hl]
      dsimp only
      rw [hen, if_neg (by decide)]
      dsimp only [t, x] at htot hcnt
      rw [htot, hcnt]
      exact if_neg (by rw [hdrop]; rintro (h | h | h); exacts [Nat.not_le_of_lt hj h, Nat.not_le_of_lt ho h, nomatch h])
    · rw [State.xdLand, if_pos hreg]
      exact t.xdPut_word c _ hlen hne
  case returned =>
    rw [exec_xdReturnReceive, execXdReturnReceive, State.live_of_running hl]
    dsimp only
    rw [hx]
  case xrx =>
    intro b v hon hb va vb hok
    refine (State.live_ifOn _ hl hon).trans (congrArg _ ?_)
    rw [State.xrxWrite]
    exact if_neg (by rw [hb]; simpa using hok)

end Sys2Proof.Machine
end

section
/-! The time base and the topo (spec/16_time_base_and_topo.md): the settlement of O43 and O44. -/
namespace Sys2Proof.Machine

/-- Settles O43: each command of the time base where its condition holds, and the start of a pitch. -/
theorem timeCommandsComplete : Obligations.TimeCommandsComplete := by
  unfold Obligations.TimeCommandsComplete
  refine ⟨fun s hl => ⟨fun v hst hsrc hv => ?sync, fun v hst hsrc hv => ?free, fun now v hnow hsrc hst hv hle => ?edge,
    fun hsrc hlock => ?lock, fun why hwhy hsrc hst => ?lost, fun u hst hu => ?expiry, fun t1 l hsrc ht hp hup => ?request,
    fun l t2 t3 hup ht hle => ?child, fun t1 t2 t3 t4 st depth hask hsrc ht hst hdepth => ?reply, fun u hst hu => ?pulse⟩,
    fun s hl hdue => ?pitch⟩
  case sync =>
    rw [exec_tbTimeset, execTbTimeset, State.live_of_running hl, State.timeset, if_neg (Nat.not_lt_of_le hst), hsrc]
    exact congrArg _ (if_pos hv)
  case free =>
    rw [exec_tbTimeset, execTbTimeset, State.live_of_running hl, State.timeset, if_neg (Nat.not_lt_of_le hst), hsrc]
    dsimp only
    rw [if_pos hv, State.stepTime, BitVec.ofNat_toNat, BitVec.setWidth_eq]
    rfl
  case edge =>
    rw [exec_syncInEdge, execSyncInEdge, State.live_of_running hl, if_pos hnow]
    dsimp only
    rw [if_neg (show ¬ (s.reach now).timeSrc ≠ 0 from not_not.2 hsrc), show (s.reach now).tb.st = 1 from hst,
      show (s.reach now).tb.value = some v from hv]
    refine (if_pos hle).trans ?_
    rw [State.stepTime, BitVec.ofNat_toNat, BitVec.setWidth_eq]
    rfl
  case lock =>
    rw [exec_timeLock, execTimeLock, State.live_of_running hl]
    dsimp only
    rw [hsrc]
    obtain ⟨hst, happ⟩ | ⟨hst | hst, d, hd, hle⟩ := hlock
    · rw [hst]
      exact congrArg _ (if_pos happ)
    · rw [hst]
      exact congrArg _ (if_pos (by rw [hd]; exact decide_eq_true hle))
    · rw [hst]
      exact congrArg _ (if_pos (by rw [hd]; exact decide_eq_true hle))
  case lost =>
    rw [exec_refLost, execRefLost, State.live_of_running hl, State.refLost, if_pos hst]
    · rfl
    · exact hwhy
    · exact hsrc
  case expiry =>
    rw [exec_holdoverExpiry, execHoldoverExpiry, State.live_of_running hl, if_pos hst, hu]
    rfl
  case request =>
    rw [exec_timeRequest, execTimeRequest, State.live_of_running hl, if_pos ⟨hsrc, ht⟩, hp]
    exact if_pos hup
  case child =>
    rw [exec_timeRequestReceive, execTimeRequestReceive, State.live_of_running hl]
    exact if_pos ⟨hup, ht, hle⟩
  case reply =>
    rw [exec_timeReply, execTimeReply, State.live_of_running hl, if_pos ⟨hask, hsrc, ht⟩]
    exact if_pos ⟨hst, hdepth⟩
  case pulse =>
    rw [exec_syncOutPulse, execSyncOutPulse, State.live_of_running hl, if_pos hst, hu]
    rfl
  case pitch =>
    rw [exec_pitchStart, execPitchStart, State.live_of_running hl, hdue]
    rfl

/-- What every step of a fold keeps, the fold keeps. -/
theorem foldl_keeps {α β : Type} {f : State → α → State} {view : State → β} (hf : ∀ s x, view (f s x) = view s) (l : List α) :
    ∀ s, view (l.foldl f s) = view s := by
  induction l with
  | nil => exact fun s => rfl
  | cons x l ih => exact fun s => (ih _).trans (hf s x)

/-- A message to the twin changes the links alone. -/
theorem State.pairSend_pair (s : State) (t : Nat) (body : List Byte) : (s.pairSend t body).pair = s.pair :=
  foldl_keeps (f := fun s l => s.linkSend l (s.mkPkt s.twinId t 0 1 body)) (view := State.pair) (fun _ _ => rfl) _ s

/-- Settles O44: each event of the topo where its entry is the next that is due. -/
theorem topoEventsComplete : Obligations.TopoEventsComplete := by
  unfold Obligations.TopoEventsComplete
  intro s n e hl
  refine ⟨fun he => ?start, fun he => ?swap, fun he => ?linkwin, fun he => ?coll, fun he => ?calwin, fun he => ?deadline,
    fun he hgoal => ?sleep, fun he hst hheard => ?heart, fun he => ?epoch, fun l w u hw hu => ?winEnd⟩
  case start => rw [exec_topoStart, execTopoStart, State.live_of_running hl, he]
  case swap => rw [exec_topoSwap, execTopoSwap, State.live_of_running hl, he]
  case linkwin => rw [exec_topoLinkwin, execTopoLinkwin, State.live_of_running hl, he]
  case coll => rw [exec_topoColl, execTopoColl, State.live_of_running hl, he]
  case calwin => rw [exec_topoCalwin, execTopoCalwin, State.live_of_running hl, he]
  case deadline => rw [exec_topoDeadline, execTopoDeadline, State.live_of_running hl, he]
  case sleep =>
    rw [exec_topoSleep, execTopoSleep, State.live_of_running hl, he]
    exact congrArg _ (if_pos hgoal)
  case heart =>
    have hst' : s.topoPop.pair.st = 2 := hst
    rw [exec_topoHeart, execTopoHeart, State.live_of_running hl, he]
    dsimp only
    rw [if_neg (by rw [hst']; omega), if_pos (by rw [State.pairSend_pair]; exact hheard)]
  case epoch =>
    rw [exec_topoEpoch, execTopoEpoch, State.live_of_running hl, he]
    rfl
  case winEnd =>
    rw [exec_linkwinEnd, execLinkwinEnd, State.live_of_running hl, hw]
    dsimp only
    rw [hu]
    rfl

end Sys2Proof.Machine
end

section
/-! Links and packets (spec/17_borvik_links.md): the settlement of O45 and O47. -/
namespace Sys2Proof.Machine

/-- Settles O45: each event of a running link, and a packet by its destination. -/
theorem linkTrafficCompletes : Obligations.LinkTrafficCompletes := by
  unfold Obligations.LinkTrafficCompletes
  refine ⟨fun s l f hl hup => ⟨fun u hu => ⟨fun hk => ?data, fun hk => ⟨?closed, ?closedOnly⟩⟩, fun seq hseq => ?retry,
    fun g rest t hg ht => ?ack, fun hcal => ?recordClosed, fun reason => ?down⟩,
    fun s p hl => ⟨fun hd => ?delivered, fun hd hown => ?routed, fun hd hsrc hout => ?forwarded⟩⟩
  case data =>
    rw [exec_flitReceive, execFlitReceive, State.live_of_running hl, if_pos hup, hu]
    exact congrArg _ (if_neg hk)
  case closed =>
    rw [exec_flitReceive, execFlitReceive, State.live_of_running hl, if_pos hup, hu]
    exact congrArg _ (if_pos hk)
  case closedOnly =>
    rw [exec_sealReceive, execSealReceive, State.live_of_running hl, if_pos (by rw [hup, hk]; rfl), hu]
    rfl
  case retry =>
    rw [exec_retryRequest, execRetryRequest, State.live_of_running hl]
    obtain ⟨x, hx, hxs⟩ := hseq
    exact if_pos (Bool.and_eq_true_iff.2 ⟨hup, List.any_eq_true.2 ⟨x, hx, by exact beq_iff_eq.2 hxs⟩⟩)
  case ack =>
    rw [exec_ackTimeout, execAckTimeout, State.live_of_running hl]
    dsimp only
    rw [hg]
    dsimp only
    rw [ht]
    exact if_pos hup
  case recordClosed =>
    rw [exec_recordClose, execRecordClose, State.live_of_running hl]
    rw [State.linkRecord, if_pos (by rw [hup, hcal]; rfl)]
  case down =>
    rw [exec_linkDown, execLinkDown, State.live_of_running hl]
    exact if_pos hup
  case delivered =>
    rw [exec_packetForward, execPacketForward, State.live_of_running hl]
    exact if_pos hd
  case routed =>
    rw [exec_packetForward, execPacketForward, State.live_of_running hl]
    refine (if_neg hd).trans (if_pos ?_)
    obtain h | h := hown
    · rw [h, beq_self_eq_true, Bool.or_true]
    · rw [List.contains_iff_mem.2 h, Bool.true_or]
  case forwarded =>
    rw [exec_packetForward, execPacketForward, State.live_of_running hl]
    refine (if_neg hd).trans (if_neg ?_)
    rw [Bool.or_eq_true, beq_iff_eq, List.contains_iff_mem]
    exact not_or.2 ⟨hout, hsrc⟩

/-- A message that is none of a flag's takes no flag. -/
theorem State.flagPkt_of_ptype {s : State} {p : Pkt} (h : p.ptype ≠ 7) : s.flagPkt p = none := if_pos (.inl h)

/-- Accesses that leave let those behind them go on, which only records. -/
theorem State.cohLeave_recorded (s : State) (who : NzWho → Bool) : Recorded s (s.cohLeave who) :=
  (Recorded.of_nz s _).trans (Recorded.foldl dirResume_recorded _ _)

/-- A packet that is taken leaves the transactions. -/
theorem State.takePkt_txns (s : State) (p : Pkt) : (s.takePkt p).bv.txns = s.bv.txns :=
  congrArg (·.txns) (State.cohLeave_recorded { s with bv := { s.bv with arrived := s.bv.arrived.erase p } } _).bv

/-- A transaction of this device that a packet answers. -/
theorem State.txn_known {s : State} {p : Pkt} (h : ∃ x ∈ s.bv.txns, x.txid = p.txid.toNat ∧ x.dest = p.src) :
    (s.takePkt p).bv.txns.any (fun x => x.txid == p.txid.toNat && x.dest == p.src) = true := by
  obtain ⟨x, hx, ht, hd⟩ := h
  rw [s.takePkt_txns]
  exact List.any_eq_true.2 ⟨x, hx, by rw [ht, hd, beq_self_eq_true, beq_self_eq_true]; rfl⟩

/-- Settles O47: each access and answer of another device by what the region and the bus say. -/
theorem remoteAccessesComplete : Obligations.RemoteAccessesComplete := by
  unfold Obligations.RemoteAccessesComplete
  intro s p hl hd
  refine ⟨fun hst h0 hlen => ?write, fun hst h1 hlen => ?read, fun hknown => ⟨fun h2 => ?data, fun h3 => ?ack, fun h8 => ?failed⟩⟩
  case write =>
    have h7 : p.ptype ≠ 7 := by rw [h0]; decide
    intro a w
    rw [exec_pktWrite, execPktWrite, State.live_of_running hl, if_neg (by simp [hd, h0]), if_neg (by rw [hst]; decide),
      State.flagPkt_of_ptype h7]
    dsimp only
    rw [if_neg (fun h => h7 h.1), if_neg (Nat.not_lt_of_le hlen)]
    refine ⟨fun hmay => ⟨fun u hw => ?_, fun e u hw => ?_⟩, fun hmay => if_pos (by rw [hmay]; rfl)⟩
    · refine (if_neg (by rw [hmay]; decide)).trans ?_
      rw [show s.writeKeep _ _ _ _ _ _ = (.done, u) from hw]
      rfl
    · refine (if_neg (by rw [hmay]; decide)).trans ?_
      rw [show s.writeKeep _ _ _ _ _ _ = (.fail e, u) from hw]
  case read =>
    intro a n hn hn'
    rw [exec_pktRead, execPktRead, State.live_of_running hl, if_neg (by simp [hd, h1, hlen]), if_neg (by rw [hst]; decide)]
    dsimp only
    rw [if_neg (by omega)]
    refine ⟨fun hmay bs u hr => ?_, fun hmay => if_pos (by rw [hmay]; rfl)⟩
    refine (if_neg (by rw [hmay]; decide)).trans ?_
    rw [show s.busRead _ _ _ _ = (.data bs, u) from hr]
  all_goals
    rw [exec_pktResponse, execPktResponse, State.live_of_running hl, if_neg (not_not.2 hd)]
    dsimp only
  case data =>
    rw [h2, State.txn_known hknown]
    rfl
  case ack =>
    rw [h3, State.txn_known hknown]
    rfl
  case failed =>
    rw [h8, State.txn_known hknown]
    rfl

end Sys2Proof.Machine
end

section
/-! The states of a link (spec/17_borvik_links.md, Table 17-7): the settlement of O48. -/
namespace Sys2Proof.Machine

/-! ### Fresh keys -/

/-- A CTRL flit leaves the state of its link. -/
theorem State.link_sendCtrl_up (s : State) (l : Link) (body : List Byte) : ((s.sendCtrl l body).link l).up = (s.link l).up := by
  rw [State.sendCtrl, State.link_setLink_same]
  rfl

/-- A link that still runs needs nothing more. -/
theorem State.linkCheck_up {s old : State} {l : Link} (h : (s.link l).up = true) : old.linkCheck s l = s :=
  if_neg (by rw [h]; simp)

/-- A running link asks for fresh keys at its own end (R489). -/
theorem State.askRekey_up {s : State} {l : Link} (ht : s.sec.trngFail = false) :
    s.askRekey l = if (s.link l).txq.any (·.rekeys) then s else s.sendCtrl l ctrlRekey := by
  rw [State.askRekey, ht, if_neg (show ¬ false = true by decide)]

/-- REKEY of a running link asks both ends for fresh keys (R489). -/
theorem State.rekeyLink_up {s : State} {l : Link} (hup : (s.link l).up = true) (ht : s.sec.trngFail = false) :
    s.rekeyLink l = (if (s.link l).txq.any (·.rekeys) then s else s.sendCtrl l ctrlRekey).sendCtrl l ctrlAskRekey := by
  have hup' : ((s.askRekey l).link l).up = true := by
    rw [State.askRekey_up ht]
    split
    · exact hup
    · rw [State.link_sendCtrl_up, hup]
  rw [State.rekeyLink, if_pos hup]
  dsimp only
  rw [if_pos hup', State.linkCheck_up (by rw [State.link_sendCtrl_up, hup']), State.askRekey_up ht]

/-- The other end's fresh keys are taken with the record that carries them (R489). -/
theorem State.link_takeCtrl_rekey (s : State) (l : Link) : (s.takeCtrl l [ctrlRekey]).link l = (s.link l).rekeyRx s.free := by
  rw [State.takeCtrl, if_neg (by decide), if_pos (by decide), State.link_setLink_same]

/-- Settles O48: each move of a link where Table 17-7 allows it. -/
theorem linkStatesComplete : Obligations.LinkStatesComplete := by
  unfold Obligations.LinkStatesComplete
  intro s l hl
  dsimp only
  refine ⟨fun t hst ht => ?timer, fun x4 hi half hst h4 hh => ?trained, fun t hst ht => ?training, fun t hst ht => ?keyingOver,
    fun peer hst htrng => ?keyed, fun hon hup htrng => ?rekey, fun fs rest credits held draw hfs => ?sent, ?received,
    fun hon hup h0 h2 => ?retrain, fun hon => ?wakeTx, fun hoff => ?wakeDet⟩
  case timer =>
    rw [exec_linkRetrainTimer, execLinkRetrainTimer, State.live_of_running hl]
    rw [State.linkTimer, if_pos hst, ht]
  case trained =>
    rw [exec_trainingDone, execTrainingDone, State.live_of_running hl]
    rw [State.linkTrained]
    refine congrArg _ (if_pos ?_)
    rw [Bool.and_eq_true, Bool.and_eq_true, decide_eq_true_eq]
    refine ⟨⟨hst, ?_⟩, ?_⟩
    · cases x4 with
      | false => rfl
      | true => exact h4 rfl
    · cases half with
      | false => rfl
      | true => exact hh rfl
  case training =>
    rw [exec_trainingTimeout, execTrainingTimeout, State.live_of_running hl]
    rw [State.linkTimeout, if_pos (.inl hst), show (s.link l).st = 2 from hst, ht]
  case keyingOver =>
    rw [exec_trainingTimeout, execTrainingTimeout, State.live_of_running hl]
    rw [State.linkTimeout, if_pos (.inr hst), show (s.link l).st = 3 from hst, ht]
  case keyed =>
    rw [exec_linkKeying, execLinkKeying, State.live_of_running hl]
    refine (if_neg (not_not.2 hst)).trans ?_
    rw [htrng, if_neg (by decide)]
    exact (apply_ite Host.Outcome.next _ _ _).symm
  case rekey => exact (State.live_ifOn _ hl hon).trans (congrArg _ (State.rekeyLink_up hup htrng))
  case sent =>
    rw [LinkSt.closeRecord, if_pos hfs]
    exact ⟨rfl, rfl, rfl, rfl⟩
  case received =>
    rw [State.link_takeCtrl_rekey]
    exact ⟨rfl, rfl, rfl, rfl⟩
  case retrain =>
    refine (State.live_ifOn _ hl hon).trans (congrArg _ ?_)
    rw [State.retrainLink, if_neg (not_or.2 ⟨h0, h2⟩)]
    dsimp only
    rw [show (s.link l).up = false from hup, if_neg (by decide)]
  case wakeTx => exact State.live_ifOn _ hl hon
  case wakeDet =>
    rw [exec_wakeDet, execWakeDet, State.live_of_running hl, if_neg (by rw [hoff]; decide)]

end Sys2Proof.Machine
end

section
/-! Collectives (spec/17_borvik_links.md, R484 to R486): the settlement of O49. -/
namespace Sys2Proof.Machine

/-! ### Rings -/

/-- A ring that a list of rings holds and that has failed. -/
theorem any_failed_iff {l : Option CollRing} : l.any (·.failed) = true ↔ ∃ g, l = some g ∧ g.failed = true := by
  cases l <;> simp

theorem CollSt.ringBad_iff {x : CollSt} {r : Nat} :
    x.ringBad r = true ↔ Cd.runs x.desc r = true ∧ ∃ g, x.rings[r]? = some g ∧ g.failed = true := by
  rw [CollSt.ringBad, Bool.and_eq_true]
  refine and_congr_right' ?_
  cases x.rings[r]? with
  | none => simp
  | some g => simp

/-- The rings that a rank runs are the first of up to eight. -/
theorem Cd.lt_rings_of_runs {d : BitVec 1024} {r : Nat} (h : Cd.runs d r = true) : r < Cd.rings d :=
  of_decide_eq_true (Bool.and_eq_true_iff.1 h).1
theorem Cd.rings_le (d : BitVec 1024) : Cd.rings d ≤ 8 := fld_lt d 274 3

theorem CollSt.mem_run {x : CollSt} {r : Nat} : r ∈ x.run ↔ Cd.runs x.desc r = true := by
  rw [CollSt.run, List.mem_filter, List.mem_range]
  exact ⟨fun h => h.2, fun h => ⟨Cd.lt_rings_of_runs h, h⟩⟩

theorem CollSt.mem_bad {x : CollSt} {r : Nat} : r ∈ x.bad ↔ x.ringBad r = true := by
  rw [CollSt.bad, List.mem_filter, CollSt.mem_run]
  exact ⟨fun h => h.2, fun h => ⟨(CollSt.ringBad_iff.1 h).1, h⟩⟩

theorem CollSt.lt_eight_of_ringBad {x : CollSt} {r : Nat} (h : x.ringBad r = true) : r < 8 :=
  Nat.lt_of_lt_of_le (Cd.lt_rings_of_runs (CollSt.ringBad_iff.1 h).1) (Cd.rings_le x.desc)

/-! ### The record -/

/-- The sum of the powers of two that a predicate picks has the bits that it picks. -/
theorem testBit_sum_two_pow (p : Nat → Bool) (n r : Nat) :
    ((((List.range n).filter p).map (fun k => 2 ^ k)).sum.testBit r = (decide (r < n) && p r)) ∧
      (((List.range n).filter p).map (fun k => 2 ^ k)).sum < 2 ^ n := by
  induction n with
  | zero => simp
  | succ n ih =>
    obtain ⟨hbit, hlt⟩ := ih
    rw [List.range_succ, List.filter_append, List.map_append, List.sum_append]
    generalize (((List.range n).filter p).map (fun k => 2 ^ k)).sum = k at hbit hlt
    by_cases hp : p n = true
    · rw [List.filter_cons_of_pos hp, List.filter_nil, List.map_singleton, List.sum_singleton, Nat.add_comm k]
      refine ⟨?_, by omega⟩
      rcases Nat.lt_trichotomy r n with hr | rfl | hr
      · rw [Nat.testBit_two_pow_add_gt hr, hbit, decide_eq_true hr, decide_eq_true (Nat.lt_succ_of_lt hr)]
      · rw [Nat.testBit_two_pow_add_eq, Nat.testBit_lt_two_pow hlt, decide_eq_true (Nat.lt_succ_self r), hp]
        rfl
      · rw [Nat.testBit_lt_two_pow (Nat.lt_of_lt_of_le (show 2 ^ n + k < 2 ^ (n + 1) by omega) (Nat.pow_le_pow_right (by decide) hr)),
          decide_eq_false (by omega), Bool.false_and]
    · rw [List.filter_cons_of_neg hp, List.filter_nil, List.map_nil, List.sum_nil, Nat.add_zero]
      refine ⟨?_, by omega⟩
      rw [hbit]
      rcases Nat.lt_trichotomy r n with hr | rfl | hr
      · rw [decide_eq_true hr, decide_eq_true (Nat.lt_succ_of_lt hr)]
      · simp [hp]
      · rw [decide_eq_false (by omega), decide_eq_false (by omega)]

/-- The bits of the rings that a predicate picks of those that a rank runs. -/
theorem CollSt.bitOf_rings (x : CollSt) (p : Nat → Bool) (r : Nat) :
    bitOf (BitVec.ofNat 64 ((x.run.filter p).map (fun k => 2 ^ k)).sum) r = (Cd.runs x.desc r && p r) := by
  have hsum := testBit_sum_two_pow (fun k => p k && Cd.runs x.desc k) (Cd.rings x.desc) r
  rw [← List.filter_filter] at hsum
  have hlt := Nat.lt_of_lt_of_le hsum.2 (Nat.pow_le_pow_right (n := 2) (by decide) (Nat.le_trans (Cd.rings_le x.desc) (show 8 ≤ 64 by decide)))
  rw [bitOf, BitVec.getLsbD, BitVec.toNat_ofNat, Nat.mod_eq_of_lt (by exact hlt)]
  refine hsum.1.trans ?_
  cases hruns : Cd.runs x.desc r with
  | false => simp
  | true => simp [Cd.lt_rings_of_runs hruns]

/-- The fields of the record that name the rings: those that ended well and those that failed (Table 17-6). -/
theorem CollSt.record_rings (x : CollSt) (c : Core) (time : W64) :
    ∃ ok fail, x.record c time = partRecord x.tag x.status false (Cd.rings x.desc) c.val 0 x.why.reason (x.bad.head?.getD 0)
        ok fail x.bytes time 0 0xFFFFFFFF x.why.dev x.why.link ∧
      ∀ r, r < 8 → bitOf ok r = (Cd.runs x.desc r && !(x.ringBad r)) ∧ bitOf fail r = x.ringBad r := by
  refine ⟨_, _, rfl, fun r _ => ⟨x.bitOf_rings _ r, (x.bitOf_rings _ r).trans ?_⟩⟩
  cases h : x.ringBad r with
  | false => exact Bool.and_false _
  | true => rw [(CollSt.ringBad_iff.1 h).1]; rfl

/-- A collective none of whose rings failed ends well. -/
theorem CollSt.bad_eq_nil {x : CollSt} : x.bad = [] ↔ ∀ r, r < 8 → x.ringBad r = false := by
  rw [List.eq_nil_iff_forall_not_mem]
  refine ⟨fun h r _ => Bool.eq_false_iff.2 (mt CollSt.mem_bad.2 (h r)), fun h r hr => ?_⟩
  have hbad := CollSt.mem_bad.1 hr
  rw [h r (CollSt.lt_eight_of_ringBad hbad)] at hbad
  cases hbad

theorem CollSt.status_eq_zero {x : CollSt} : x.status = 0 ↔ ∀ r, r < 8 → x.ringBad r = false := by
  rw [← CollSt.bad_eq_nil, CollSt.status]
  cases hb : x.bad with
  | nil => simp
  | cons b bs =>
    simp only [List.isEmpty_cons]
    split
    · contradiction
    · split <;> simp

theorem CollSt.status_eq_two {x : CollSt} : x.status = 2 ↔
    (∃ r, r < 8 ∧ x.ringBad r = true) ∧ ∀ r, r < 8 → Cd.runs x.desc r = true → x.ringBad r = true := by
  have hall : x.bad.length = x.run.length ↔ ∀ r, r < 8 → Cd.runs x.desc r = true → x.ringBad r = true := by
    rw [CollSt.bad, List.length_filter_eq_length_iff]
    exact ⟨fun h r _ hr => h r (CollSt.mem_run.2 hr), fun h r hr =>
      h r (Nat.lt_of_lt_of_le (Cd.lt_rings_of_runs (CollSt.mem_run.1 hr)) (Cd.rings_le _)) (CollSt.mem_run.1 hr)⟩
  have hsome : x.bad ≠ [] ↔ ∃ r, r < 8 ∧ x.ringBad r = true := by
    rw [Ne, CollSt.bad_eq_nil]
    simp
  rw [← hall, ← hsome, CollSt.status]
  cases x.bad with
  | nil => simp
  | cons b bs => simp

theorem CollSt.status_le_two (x : CollSt) : x.status ≤ 2 := by
  rw [CollSt.status]
  split
  · decide
  · split <;> decide

/-! ### Ends and failures -/

/-- A collective is over when it has read its words or failed everywhere, its writes are done, and each ring has ended and its flits have
left (R486). -/
theorem State.collEnded_iff (s : State) (c : Core) (x : CollSt) : s.collEnded c x = true ↔
    (x.reading = false ∨ ∀ r ∈ x.run, ∃ g, x.rings[r]? = some g ∧ g.failed = true) ∧ x.puts = [] ∧
      ∀ r, r < Cd.rings x.desc → x.ringDone r = true ∧
        ((∃ g, x.rings[r]? = some g ∧ g.failed = true) ∨ s.ringHeld c x r = false) := by
  simp only [State.collEnded, Bool.and_eq_true, Bool.or_eq_true, Bool.not_eq_true', List.all_eq_true, List.isEmpty_iff, List.mem_range,
    any_failed_iff, and_assoc]

/-- A failed hop of a ring that still runs fails it (R484). -/
theorem State.ringFail_running {s : State} {c : Core} {x : CollSt} {r reason dev link : Nat} (hx : s.collOf c x.tag = some x)
    (hr : x.ringDone r = false) : s.ringFail c x.tag r reason dev link = s.hopFail c x r reason dev link := by
  rw [State.ringFail, hx]
  exact if_neg (by rw [hr]; decide)

/-- A ring that is late still runs, and has waited TIMEOUT. -/
theorem CollSt.of_ringLate {x : CollSt} {r now : Nat} {g : CollRing} (h : x.ringLate r now = true) (hg : x.rings[r]? = some g) :
    g.since + 1000 * Cd.timeout x.desc ≤ now ∧ x.ringDone r = false := by
  rw [CollSt.ringLate, hg] at h
  simp only [Bool.and_eq_true, Bool.not_eq_true', decide_eq_true_eq] at h
  exact ⟨h.2, h.1⟩

/-! ### Notices -/

section
variable (s : State) (c : Core) (id : CollId) (r : Fin 8) (dev : BitVec 16) (link : BitVec 5)

/-- The body of a COLL_FAIL notice (R485). -/
def noticeBody : List Byte :=
  bytesOf 2 id.tag.toNat ++ bytesOf 6 id.pitch.toNat ++ bytesOf 1 r.val ++ bytesOf 1 c.val ++ bytesOf 2 dev.toNat ++ bytesOf 1 link.toNat

/-- The state after a notice has been taken. -/
def State.noticeTaken : State :=
  { s with bv := { s.bv with arrived := s.bv.arrived.filter (fun p => !(p.ptype == 5 && p.vc != 0 && p.body == noticeBody c id r dev link)) } }

/-- What a notice tells a collective. -/
def noticeOf : CollNotice := ⟨id.tag.toNat, id.pitch.toNat, r.val, false, 2, dev.toNat, link.toNat⟩

/-- The collective of a notice, while it runs. -/
def State.collNow : Option CollSt := (s.core c).coll.find? (fun x => x.tag == id.tag.toNat && x.pitch == id.pitch.toNat)
/-- The collective of a notice, once it has ended. -/
def State.collOld : Option CollSt := (s.core c).collDone.find? (fun x => x.tag == id.tag.toNat && decide (id.pitch.toNat ≤ x.pitch))

variable {s c id r dev link} (hl : Live s)
include hl

theorem exec_collFailNotice_now {x : CollSt} (hnow : s.collNow c id = some x) : exec (.collFailNotice c id r dev link) s =
    .next ((s.noticeTaken c id r dev link).collLate c id.tag.toNat (noticeOf id r dev link)) := by
  rw [exec_collFailNotice, execCollFailNotice, State.live_of_running hl]
  dsimp only
  split
  · rfl
  · rename_i h _; exact absurd (h.symm.trans hnow) nofun
  · rename_i h _; exact absurd (h.symm.trans hnow) nofun

theorem exec_collFailNotice_old {x : CollSt} (hnow : s.collNow c id = none) (hold : s.collOld c id = some x)
    (hok : x.pitch = id.pitch.toNat ∧ Cd.runs x.desc r.val = true ∧ (x.rings[r.val]?).any (fun g => !g.noticed) = true) :
    exec (.collFailNotice c id r dev link) s = .next
      (((s.noticeTaken c id r dev link).onCore c (fun k => { k with collDone := k.collDone.map (fun z =>
        if z.tag = x.tag then x.setRing r.val (fun g => { g with noticed := true }) else z) })).sendNotices c
          (x.setRing r.val (fun g => { g with noticed := true })) r.val dev.toNat link.toNat) := by
  rw [exec_collFailNotice, execCollFailNotice, State.live_of_running hl]
  dsimp only
  split
  · rename_i h; exact absurd (h.symm.trans hnow) nofun
  · rename_i y _ h
    obtain rfl : y = x := Option.some.inj (h.symm.trans hold)
    exact congrArg _ (if_pos hok)
  · rename_i _ h; exact absurd (h.symm.trans hold) nofun

theorem exec_collFailNotice_none (hnow : s.collNow c id = none) (hold : s.collOld c id = none) :
    exec (.collFailNotice c id r dev link) s = .next ((s.noticeTaken c id r dev link).onCore c (fun k => { k with
      notices := k.notices ++ [noticeOf id r dev link] })) := by
  rw [exec_collFailNotice, execCollFailNotice, State.live_of_running hl]
  dsimp only
  split
  · rename_i h; exact absurd (h.symm.trans hnow) nofun
  · rename_i _ h; exact absurd (h.symm.trans hold) nofun
  · rfl

end

/-- A notice to a collective that runs its ring (R485): once it has been noticed, nothing more. -/
theorem State.collLate_notice {s : State} {c : Core} {tag : Nat} {n : CollNotice} {x : CollSt} {g : CollRing} (hx : s.collOf c tag = some x)
    (hown : n.own = false) (hg : x.rings[n.ring]? = some g) : s.collLate c tag n =
      if g.noticed || !(Cd.runs x.desc n.ring) then s else
        let y := x.setRing n.ring (fun g => if x.ringDone n.ring then { g with noticed := true }
          else { g with failed := true, reason := n.reason, dev := n.dev, link := n.link, noticed := true })
        (s.setColl c y).sendNotices c y n.ring n.dev n.link := by
  rw [State.collLate, hx]
  dsimp only
  rw [hown, hg]
  rfl

/-- Settles O49: the notice by what the core holds of the collective, the timeout by what is late, the end by `State.collEnded_iff`. -/
theorem collectivesComplete : Obligations.CollectivesComplete := by
  unfold Obligations.CollectivesComplete
  refine ⟨fun s c hl => ⟨?notice, fun r => ⟨?late, fun hnone => ?early⟩, ⟨fun x hx => ?ended, fun hnone => ?goes⟩, s.collEnded_iff c⟩,
    fun s c x r reason dev link hx hr => State.ringFail_running hx hr,
    fun x c time => ⟨fun r => CollSt.ringBad_iff, x.record_rings c time, CollSt.status_eq_zero, CollSt.status_eq_two, x.status_le_two⟩⟩
  case notice =>
    intro tag pitch r dev link body u now old
    refine ⟨fun x g hnow hcoll hg => ⟨fun hn hruns => ?_, fun hn => ?_⟩, fun x g hnow hold hp hruns hg hn => ?_, fun hnow hold => ?_⟩
    · refine (exec_collFailNotice_now (id := ⟨tag, pitch⟩) hl hnow).trans (congrArg _ ?_)
      refine (State.collLate_notice (s := s.noticeTaken c ⟨tag, pitch⟩ r dev link) (n := noticeOf ⟨tag, pitch⟩ r dev link) hcoll rfl hg).trans (if_neg ?_)
      rw [hn, show Cd.runs x.desc (noticeOf ⟨tag, pitch⟩ r dev link).ring = true from hruns]
      decide
    · refine (exec_collFailNotice_now (id := ⟨tag, pitch⟩) hl hnow).trans (congrArg _ ?_)
      refine (State.collLate_notice (s := s.noticeTaken c ⟨tag, pitch⟩ r dev link) (n := noticeOf ⟨tag, pitch⟩ r dev link) hcoll rfl hg).trans (if_pos ?_)
      rw [Bool.or_eq_true, Bool.not_eq_true']
      exact hn
    · exact exec_collFailNotice_old (id := ⟨tag, pitch⟩) hl hnow hold ⟨hp, hruns, by rw [hg, Option.any_some, hn]; rfl⟩
    · exact exec_collFailNotice_none (id := ⟨tag, pitch⟩) hl hnow hold
  case late =>
    intro t ht late
    rw [exec_collTimeout, execCollTimeout, State.live_of_running hl, ht]
    refine ⟨fun x hx => ⟨?_, fun g hg => CollSt.of_ringLate (List.find?_some (p := fun x : CollSt => x.ringLate r.val t.tb.time.toNat) hx) hg⟩, fun x hnone hx => ?_⟩
    · dsimp only
      rw [show (t.core c).coll.find? (fun x => x.ringLate r.val t.tb.time.toNat) = some x from hx]
    · dsimp only
      rw [show (t.core c).coll.find? (fun x => x.ringLate r.val t.tb.time.toNat) = none from hnone, hx]
      exact (apply_ite Host.Outcome.next _ _ _).symm
  case early => rw [exec_collTimeout, execCollTimeout, State.live_of_running hl, hnone]
  case ended =>
    rw [exec_collEnd, execCollEnd, State.live_of_running hl, hx]
    rfl
  case goes => rw [exec_collEnd, execCollEnd, State.live_of_running hl, hnone]

end Sys2Proof.Machine
end

section
/-! The Nimzen link (spec/18_nimzen_link.md): the settlement of O50 to O52. -/
namespace Sys2Proof.Machine

section
variable {s : State} {h : Half}

/-- An answer to a request of the companion. -/
theorem State.nzAnswer_data {op t : Nat} {r : BusRes × State} {bs : List Byte} {u : State} (hr : r = (.data bs, u)) :
    State.nzAnswer h op t r = (u.nzTaken h op t).nzData h t 2 bs := by rw [hr]; rfl
theorem State.nzAnswer_done {op t : Nat} {r : BusRes × State} {u : State} (hr : r = (.done, u)) :
    State.nzAnswer h op t r = (u.nzTaken h op t).nzCmp h t := by rw [hr]; rfl

/-- A read that the bus takes is answered at once. -/
theorem State.nzRead_data {op t a n : Nat} {bs : List Byte} {u : State} (hr : s.busRead (.nc h t) 15 a n = (.data bs, u)) :
    s.nzRead h op t a n = (u.nzTaken h op t).nzData h t 2 bs := by
  rw [State.nzRead, hr]
  rfl

/-- A request reaches a half that is up. -/
theorem State.live_nzUp (f : State → State) (hl : Live s) (hup : (s.half h).up = true) :
    (s.live <| .next (s.nzUp h f) : Host.Outcome State Fault Refusal) = .next (f s) := by
  rw [State.live_of_running hl, State.nzUp, if_pos hup]

/-- A read of a line that needs no snoop is answered from memory, and the directory records the half (R506, R507). -/
theorem State.dirServe_here {txid : BitVec 10} {own : Bool} {line : Nat}
    (hneed : own = true ∨ 4 ≤ s.dirGet line → othersOf (s.dirGet line) (some h) = [])
    (hpop : s.populated (64 * line) = true) (hecc : s.eccOf (eccUnit (64 * line)) = .ok) (hused : s.dirUsed h.val < 262144) :
    s.dirServe h txid own line =
      if own then (s.dirSet line (4 + h.val)).nzData h txid.toNat 1 (bytesOf 64 (s.wordAt (64 * line)))
      else (s.dirSet line (if s.dirGet line < 4 then s.dirGet line ||| 2 ^ h.val else 2 ^ h.val)).nzData h txid.toNat 0
        (bytesOf 64 (s.wordAt (64 * line))) := by
  have hnone : (if own || decide (4 ≤ s.dirGet line) then othersOf (s.dirGet line) (some h) else []) = [] := by
    split
    · rename_i hc
      exact hneed (by simpa using hc)
    · rfl
  have hok : s.memEcc (64 * line) = (true, s) := by rw [State.memEcc, hecc]
  rw [State.dirServe]
  dsimp only
  rw [hnone, hpop, hok]
  dsimp only
  rw [decide_eq_false (Nat.not_le_of_lt hused), Bool.and_false]
  rfl

/-- A coherent request that a coherent window admits reaches the directory (R495, R506). -/
theorem State.nzCoherent_window {op n : Nat} {txid : BitVec 10} {addr : BitVec 48} {own : Bool} (hst : s.boot.st ≠ 4)
    (hwin : s.winFor h (addr.toNat / 64 * 64) 64 false = some n) (hcoh : s.winBit n 30 = true)
    (hpop : s.populated (addr.toNat / 64 * 64) = true) (hdom : s.domOn (s.memDom (addr.toNat / 64 * 64)) = true)
    (hfill : s.filled (addr.toNat / 64 * 64) = true) :
    s.nzCoherent h op txid addr own = (s.nzTaken h op txid.toNat).dirRequest h txid own (addr.toNat / 64 * 64 / 64) := by
  have hmay : s.compMay h (addr.toNat / 64 * 64) 64 false = true := by rw [State.compMay, if_neg hst, hwin]; rfl
  rw [State.nzCoherent]
  dsimp only
  rw [hmay, hwin]
  dsimp only
  have hst' : (s.boot.st != 4) = true := bne_iff_ne.2 hst
  simp only [hcoh, hst', hpop, hdom, hfill, Bool.and_self, Bool.not_true, Bool.false_eq_true, if_false]

/-- A request for a line that nothing waits for is served at once. -/
theorem State.dirRequest_free {txid : BitVec 10} {own : Bool} {line : Nat} (hsn : s.snooping line = false)
    (hw : ∀ x ∈ s.nz.waits, x.line ≠ line) : s.dirRequest h txid own line = s.dirServe h txid own line := by
  have hnone : s.nz.waits.any (fun x => x.line == line) = false := by
    rw [List.any_eq_false]
    exact fun x hx => by simpa using hw x hx
  rw [State.dirRequest, hsn, hnone]
  rfl

end

/-- Settles O50: uncached requests by the window and the bus, coherent ones by the directory. -/
theorem nimzenAccessesComplete : Obligations.NimzenAccessesComplete := by
  unfold Obligations.NimzenAccessesComplete
  intro s h txid addr hl hup a t
  refine ⟨fun lines h1 h64 => ⟨fun hmay bs u hr => ?read, fun hmay => ?denied⟩, fun data u h0 hmod hlen hmay hw => ?write,
    fun data mask u hlen hmay hw => ?part,
    fun n hst hwin hcoh hpop hdom hfill hsn hwaits hused hecc => ⟨fun hv => ?shared, fun hoth => ?own⟩⟩
  case read =>
    refine (State.live_nzUp _ hl hup).trans (congrArg _ ?_)
    rw [if_neg (by omega), show s.compMay h _ _ _ = true from hmay]
    exact State.nzRead_data hr
  case denied =>
    refine (State.live_nzUp _ hl hup).trans (congrArg _ ?_)
    rw [if_neg (by omega), show s.compMay h _ _ _ = false from hmay]
    rfl
  case write =>
    refine (State.live_nzUp _ hl hup).trans (congrArg _ ?_)
    rw [if_neg (by omega), show s.compMay h _ _ _ = true from hmay]
    exact State.nzAnswer_done hw
  case part =>
    refine (State.live_nzUp _ hl hup).trans (congrArg _ ?_)
    rw [if_neg (not_not.2 hlen), show s.compMay h _ _ _ = true from hmay]
    exact State.nzAnswer_done hw
  all_goals
    have ha : 64 * (a / 64) = a := Nat.mul_div_cancel' (Nat.dvd_mul_left 64 _)
    rw [← ha] at hpop hecc
    refine (State.live_nzUp _ hl hup).trans (congrArg _ ?_)
    refine (State.nzCoherent_window hst hwin hcoh (by rwa [ha] at hpop) hdom hfill).trans ?_
    refine (State.dirRequest_free (s := s.nzTaken h _ t) hsn hwaits).trans ?_
  case shared =>
    refine (State.dirServe_here (s := s.nzTaken h _ t) (own := false) (fun h => h.elim nofun (fun h4 => absurd hv (Nat.not_lt_of_le h4)))
      hpop hecc hused).trans ((if_neg (by decide)).trans ?_)
    rw [ha, if_pos (show (s.nzTaken h 1 t).dirGet (a / 64) < 4 from hv)]
    rfl
  case own =>
    refine (State.dirServe_here (s := s.nzTaken h _ t) (own := true) (fun _ => hoth) hpop hecc hused).trans ((if_pos rfl).trans ?_)
    rw [ha]
    rfl

/-! ### What the companion gives back -/

/-- The request of a snoop that has ended may still be answered (R497). -/
theorem State.markStale_some {s : State} {h : Half} {p : NzSnoop} {k : Nat} (hk : p.txid = some k) :
    s.markStale h (some p) = { s with nz := { s.nz with stale := s.nz.stale ++ [(h.val, k)] } } := by
  unfold State.markStale
  rw [Option.bind_some, hk]
  rfl

/-- Settles O51: each return by what the directory holds of its line, and the snoop that finds no answer. -/
theorem nimzenReturnsComplete : Obligations.NimzenReturnsComplete := by
  unfold Obligations.NimzenReturnsComplete
  intro s h txid addr hl line t
  refine ⟨fun hup => ⟨fun data hlen hsn hdir => ?dirty, fun hheld => ?evict,
    fun data => ⟨fun hst => ?stale, fun hst => ⟨fun hp => ?answer, fun hno => ?none⟩⟩⟩, fun p k u hp hk hu => ?timeout⟩
  case dirty =>
    refine (State.live_nzUp _ hl hup).trans (congrArg _ ?_)
    refine (if_neg (not_not.2 hlen)).trans ((if_neg ?_).trans (if_pos hdir))
    rw [show (s.nzTaken h 6 txid.toNat).snoopOf h (addr.toNat / 64) = none from hsn]
    decide
  case evict => exact (State.live_nzUp _ hl hup).trans (congrArg _ (if_pos hheld))
  case stale => exact (State.live_nzUp _ hl hup).trans (congrArg _ (if_pos hst))
  case answer =>
    obtain ⟨p, hp, hline, hhalf, htx⟩ := hp
    refine (State.live_nzUp _ hl hup).trans (congrArg _ ((if_neg (Bool.eq_false_iff.1 hst)).trans (if_pos ?_)))
    exact List.any_eq_true.2 ⟨p, hp, by
      rw [hline, hhalf, htx]
      simp only [beq_self_eq_true, Bool.and_self, line, t]⟩
  case none =>
    refine (State.live_nzUp _ hl hup).trans (congrArg _ ((if_neg (Bool.eq_false_iff.1 hst)).trans (if_neg ?_)))
    intro hany
    obtain ⟨p, hp, hmatch⟩ := List.any_eq_true.1 hany
    simp only [Bool.and_eq_true, beq_iff_eq] at hmatch
    exact hno p hp hmatch.1.1 hmatch.1.2 hmatch.2
  case timeout =>
    rw [exec_snoopTimeout, execSnoopTimeout, State.live_of_running hl]
    dsimp only
    rw [show s.snoopOf h (addr.toNat / 64) = some p from hp]
    dsimp only
    rw [hu, if_neg (by rw [hk]; exact Bool.false_ne_true)]
    dsimp only
    rw [State.markStale_some hk]

/-! ### Messages -/

@[simp] theorem State.half_setHalf_same (s : State) (h : Half) (x : HalfSt) : (s.setHalf h x).half h = x := by
  exact Vector.getElem_set_self h.isLt

/-- A message that has been taken leaves the rest of its half. -/
theorem State.half_nzTaken (s : State) (h : Half) (op t : Nat) : (s.nzTaken h op t).half h =
    { s.half h with arrived := (s.half h).arrived.filter (fun m => !(m.op == op && m.txid == t)) } := by
  rw [State.nzTaken, State.onHalf, State.half_setHalf_same]

/-- The pop range that has waited longest takes the packet at the head (R505). -/
theorem State.servePops_one {s : State} {q : Nat} {h : Half} {r : NzPop} {p : QPkt} (hr : s.firstPop q = some (h, r))
    (hp : (s.lookWritten q).qHead q = some p) (hw : p.whole = true) (hlink : p.linked = true) :
    s.servePops q 1 = (s.lookWritten q).servePop q h r p := by
  rw [State.servePops, hr]
  dsimp only
  rw [hp]
  dsimp only
  rw [hw, hlink]
  rfl

/-- A menu request for a queue pushes its packet (R511). -/
theorem exec_menuReq_queue {s : State} {h : Half} {txid : BitVec 10} {entry : BitVec 16} {data : List Byte} {w : W64} (hl : Live s)
    (hup : (s.half h).up = true) (h0 : data.length ≠ 0) (hmod : data.length % 64 = 0) (hlen : data.length ≤ 4096) (hst : s.boot.st = 3)
    (h1 : s.pair.st ≠ 1) (h4 : s.pair.st ≠ 4) (hw : s.menuEntry h entry.toNat data.length = some w) (hkind : fld w 0 2 = 2) :
    exec (.menuReq h txid entry data) s = .next ((s.nzTaken h 9 txid.toNat).nzPush h txid.toNat (fld w 28 11) data) := by
  refine (State.live_nzUp _ hl hup).trans (congrArg _ ?_)
  refine (if_neg (by omega)).trans ((if_neg (not_not.2 hst)).trans ((if_neg (not_or.2 ⟨h1, h4⟩)).trans ?_))
  rw [show (s.nzTaken h 9 txid.toNat).menuEntry h entry.toNat data.length = some w from hw]
  exact if_pos hkind

/-- Data of the companion for the one read of a half, whose copy is not kept (R515). -/
theorem State.exec_cData_kept {s : State} {h : Half} {txid : BitVec 10} {data : List Byte} {r : NzReq} (hl : Live s)
    (hup : (s.half h).up = true) (hr : (s.half h).reqs = [r]) (ht : r.txid = txid.toNat) (hw : r.write = false) (hinv : r.inv = true) :
    exec (.cData h txid 0 data) s = .next (((((s.nzTaken h 11 txid.toNat).setHalf h { (s.nzTaken h 11 txid.toNat).half h with reqs := [] }).lineCome
      h r (BitVec.ofNat 512 (natOf data))).sendSnoop h).goOn) := by
  have hreqs : ((s.nzTaken h 11 txid.toNat).half h).reqs = [r] := by rw [State.half_nzTaken]; exact hr
  refine (State.live_nzUp _ hl hup).trans (congrArg _ ?_)
  dsimp only
  rw [hreqs, List.find?_cons_of_pos (by rw [ht, hw, beq_self_eq_true]; rfl)]
  dsimp only
  rw [hinv, Bool.not_true, Bool.and_false, Bool.false_and, List.filter_cons_of_neg (by rw [ht]; simp)]
  rfl

/-- Settles O52: each message by what the half holds. -/
theorem nimzenMessagesComplete : Obligations.NimzenMessagesComplete := by
  unfold Obligations.NimzenMessagesComplete
  intro s h txid hl x t
  refine ⟨fun p rest u hp hb hu => ?expiry, fun q r p hr hp hw hlink => State.servePops_one hr hp hw hlink,
    fun hup => ⟨fun entry data w h0 hmod hlen hst h1 h4 hw hkind => exec_menuReq_queue hl hup h0 hmod hlen hst h1 h4 hw hkind,
      fun q data hlen hst hlo hhi => ?doorbell, fun data r hr ht hw hinv => ⟨fun hd => ?word, fun d hd hneed => ?merged⟩,
      fun r hr ht hw => ?cmp, fun addr => ?inv, fun q rest hq hhalf hlen hfull => ?level, fun m u hm hu => ?resend,
      fun body hcompl hkind hlen hlost => ?flit⟩⟩
  case expiry =>
    rw [exec_popWaitExpiry, execPopWaitExpiry, State.live_of_running hl, show (s.half h).pops = p :: rest from hp]
    dsimp only
    rw [hb, if_neg (by decide), hu]
  case doorbell =>
    refine (State.live_nzUp _ hl hup).trans (congrArg _ ((if_neg (not_not.2 hlen)).trans (if_neg ?_)))
    rintro (h3 | h3 | h3)
    · exact h3 hst
    · omega
    · split at hhi <;> simp_all <;> omega
  case word =>
    refine (State.exec_cData_kept hl hup hr ht hw hinv).trans (congrArg _ ?_)
    rw [State.lineCome, hd]
  case merged =>
    refine (State.exec_cData_kept hl hup hr ht hw hinv).trans (congrArg _ ?_)
    rw [State.lineCome, hd]
    dsimp only
    rw [hneed]
  case cmp =>
    have hreqs : ((s.nzTaken h 12 txid.toNat).half h).reqs = [r] := by rw [State.half_nzTaken]; exact hr
    refine (State.live_nzUp _ hl hup).trans (congrArg _ ?_)
    dsimp only
    rw [hreqs, List.find?_cons_of_pos (by rw [ht, hw, beq_self_eq_true]; rfl), List.filter_cons_of_neg (by rw [ht]; simp [t])]
    rfl
  case inv => exact State.live_nzUp _ hl hup
  case level =>
    refine (State.live_nzUp _ hl hup).trans (congrArg _ ?_)
    dsimp only
    rw [if_neg (by rw [hfull]; simp; exact hlen), hq]
    exact if_pos hhalf
  case resend =>
    refine (State.live_nzUp _ hl hup).trans (congrArg _ ?_)
    rw [show resendNext (s.half h).msgs = some m from hm]
    dsimp only
    rw [hu]
  case flit =>
    refine (State.live_nzUp _ hl hup).trans (congrArg _ ?_)
    dsimp only
    rw [if_neg (not_not.2 hcompl), hkind]
    refine (if_neg (by rw [show (s.half h).lost = false from hlost]; decide)).trans (if_neg (Nat.not_le_of_lt hlen))

end Sys2Proof.Machine
end

section
/-! The states of a Nimzen half (spec/18_nimzen_link.md, Table 17-7): the settlement of O53. -/
namespace Sys2Proof.Machine

/-- A half that asks for fresh keys at its own end stays as it is (R498). -/
theorem State.nzAskRekey_up {s : State} {h : Half} (ht : s.sec.trngFail = false) : s.nzAskRekey h =
    if (s.half h).ctl.contains ctrlRekey then s else s.onHalf h (fun x => { x with ctl := x.ctl ++ [ctrlRekey] }) := by
  rw [State.nzAskRekey, ht, if_neg (show ¬ false = true by decide)]

theorem State.half_nzAskRekey_up {s : State} {h : Half} (ht : s.sec.trngFail = false) (hup : (s.half h).up = true) :
    ((s.nzAskRekey h).half h).up = true := by
  rw [State.nzAskRekey_up ht]
  split
  · exact hup
  · rw [State.onHalf, State.half_setHalf_same]
    exact hup

/-- Settles O53: each move of a half where Table 17-7 allows it. -/
theorem halfStatesComplete : Obligations.HalfStatesComplete := by
  unfold Obligations.HalfStatesComplete
  intro s h hl x
  refine ⟨fun hup => ?down, fun t hst ht => ?timer, fun x8 hi nrz hst => ?trained, fun t hst ht => ?timeout, fun hon h0 h2 => ?retrain,
    fun hon hup ht => ?rekey, fun hup hcal => ?closed, fun key sig hst htrng => ?keyed⟩
  case down =>
    rw [exec_halfDown, execHalfDown, State.live_of_running hl, if_pos hup]
    rfl
  case timer =>
    rw [exec_linkRetrainTimer, execLinkRetrainTimer, State.live_of_running hl]
    refine congrArg _ ((if_pos hst).trans ?_)
    rw [show s.linkOver 1 (s.half h).since = some t from ht]
    rfl
  case trained =>
    rw [exec_trainingDone, execTrainingDone, State.live_of_running hl]
    exact congrArg _ (if_pos hst)
  case timeout =>
    rw [exec_trainingTimeout, execTrainingTimeout, State.live_of_running hl]
    refine congrArg _ ((if_pos hst).trans ?_)
    rw [show s.linkOver (s.half h).st (s.half h).since = some t from ht]
    rfl
  case retrain => exact (State.live_ifOn _ hl hon).trans (congrArg _ (if_neg (not_or.2 ⟨h0, h2⟩)))
  case rekey =>
    refine (State.live_ifOn _ hl hon).trans (congrArg _ ((if_pos hup).trans ((if_pos (State.half_nzAskRekey_up ht hup)).trans ?_)))
    rw [State.nzAskRekey_up ht]
  case closed =>
    rw [exec_recordClose, execRecordClose, State.live_of_running hl]
    exact congrArg _ (if_pos (by rw [show (s.half h).up = true from hup, hcal]; rfl))
  case keyed =>
    rw [exec_nzKeying, execNzKeying, State.live_of_running hl]
    refine (if_neg (not_not.2 hst)).trans ((if_neg (by rw [htrng]; decide)).trans ?_)
    exact (apply_ite Host.Outcome.next _ _ _).symm

end Sys2Proof.Machine
end

section
/-! Resets, boot, flash and larder (spec/19_boot_menus_larder.md): the settlement of O54 and O55. -/
namespace Sys2Proof.Machine

/-- An image whose read has ended is checked and applied, or its slot fails (R523 to R526). -/
theorem exec_imageReadDone_checked {s : State} (hl : Live s) (hp : s.boot.phase = 2) : exec .imageReadDone s = .next (
    if Config.flashRead s.free = false then s.tick.slotFails 6
    else match s.tick.stagedRead with
      | (none, v) => v.slotFails 6
      | (some img, v) =>
        let r := v.imageCheck (imgKey img) v.boot.image (imgSig img) v.boot.next.toNat
        if r.1 ≠ 0 then r.2.slotFails r.1
        else if (configRecords img).any (fun p => (configPlace p.1).isNone) then r.2.slotFails 5
        else ((r.2.onBoot (fun b => { b with st := 2 })).applyImage img).bootLoad img) := by
  rw [exec_imageReadDone, execImageReadDone, State.live_of_running hl, if_neg (not_not.2 hp)]
  dsimp only
  cases Config.flashRead s.free with
  | false => rfl
  | true =>
    rw [if_neg (by decide), if_neg (by decide)]
    obtain ⟨img, v⟩ := s.tick.stagedRead
    cases img with
    | none => rfl
    | some img =>
      dsimp only
      rw [apply_ite Host.Outcome.next, apply_ite Host.Outcome.next]

/-- Settles O54: the pins, and each step of boot in its phase. -/
theorem bootCompletes : Obligations.BootCompletes := by
  unfold Obligations.BootCompletes
  refine fun s => ⟨⟨rfl, rfl, rfl⟩, fun hl => ⟨State.live_of_running hl, fun id hp => ?release, fun hp hf hd => ?image,
    fun hp => exec_imageReadDone_checked hl hp, fun n e rest hw => ⟨fun data hd => ?load, fun hd => ?more, fun t ht => ?expiry⟩⟩⟩
  case release =>
    rw [exec_resetRelease, execResetRelease, State.live_of_running hl, if_pos hp]
  case image =>
    rw [exec_imageRead, execImageRead, State.live_of_running hl]
    exact if_pos ⟨hp, hf, by rw [hd]; rfl⟩
  case load =>
    rw [exec_weightLoadDone, execWeightLoadDone, State.live_of_running hl, hw]
    dsimp only
    rw [if_neg (not_not.2 rfl), hd]
    dsimp only
    by_cases h : Config.sha3 data = wlDigest e
    · rw [if_pos h, if_neg (by simp [h])]
    · rw [if_neg h, if_pos (bne_iff_ne.2 h)]
  case more =>
    rw [exec_weightLoadDone, execWeightLoadDone, State.live_of_running hl, hw]
    dsimp only
    rw [if_neg (not_not.2 rfl), hd]
  case expiry =>
    rw [exec_loadWaitExpiry, execLoadWaitExpiry, State.live_of_running hl, hw]
    dsimp only
    rw [ht]

/-! ### Flash -/

/-- A flash command that its rules allow starts (R534, R535). -/
theorem State.flashCmd_allowed {s : State} {code : Nat} (hcode : code = 1 ∨ code = 2 ∨ code = 3 ∨ code = 4) (hc : s.boot.cmd = none)
    (halign : s.rf rBootPaddr 0 30 % flashUnit code = 0) (hslot : s.bootedSlot ≠ some (s.slotOf (s.rf rBootPaddr 0 30))) :
    s.flashCmd code = { s with boot := { s.boot with
      cmd := some ⟨code, s.rf rBootPaddr 0 30, (List.range 8).flatMap (fun k => bytesOf 8 (s.reg (rBootPdata k)).toNat)⟩ } } := by
  have hslot' : (s.bootedSlot == some (s.slotOf (s.rf rBootPaddr 0 30))) = false := beq_eq_false_iff_ne.2 hslot
  rw [State.flashCmd]
  refine if_neg ?_
  rw [hc, halign, hslot']
  rcases hcode with rfl | rfl | rfl | rfl <;> decide

/-- A word whose complement does not match is counted and recorded (R608). -/
theorem State.cmpMiss_recorded (s : State) (cls addr who block index : Nat) : Recorded s (s.cmpMiss cls addr who block index) :=
  (bumpLo_recorded _ _ _).trans (raise_recorded _ _ _ _ _)

/-- A larder word is read with its complement, and a mismatch is recorded. -/
theorem State.lardRead_recorded (s : State) (n : Nat) : Recorded s (s.lardRead n).2 := by
  rw [State.lardRead]
  dsimp only
  split
  · exact .refl s
  · exact s.cmpMiss_recorded _ _ _ _ _

/-- The checks of an image only record. -/
theorem State.imageCheck_recorded (s : State) (key digest sig : List Byte) (version : Nat) :
    Recorded s (s.imageCheck key digest sig version).2 := by
  have howner : Recorded s (if s.sec.owned then (rangeFrom 1 8).foldl (fun s n => (s.lardRead n).2) s else s) := by
    split
    · exact Recorded.foldl lardRead_recorded _ s
    · exact .refl s
  rw [State.imageCheck]
  dsimp only
  generalize (if s.sec.owned then (rangeFrom 1 8).foldl (fun s n => (s.lardRead n).2) s else s) = u at howner
  split
  · exact howner
  · split
    · exact howner
    · exact howner.trans (u.lardRead_recorded 0)

/-- The check of a slot only draws. -/
theorem State.verifySlot_boot (s : State) (k : Nat) : (s.verifySlot k).2.boot = s.boot := by
  rw [State.verifySlot]
  dsimp only
  split
  · rfl
  · split
    · rfl
    · exact (State.imageCheck_recorded s.tick _ _ _ _).boot

theorem State.flashPut_wantReset (s : State) (a : Nat) (bs : List Byte) : (s.flashPut a bs).boot.wantReset = s.boot.wantReset := rfl
theorem State.flashSmear_wantReset (s : State) (a n : Nat) : (s.flashSmear a n).boot.wantReset = s.boot.wantReset := rfl
theorem State.flashErase_wantReset (s : State) (a n : Nat) : (s.flashErase a n).boot.wantReset = s.boot.wantReset := rfl

/-- No end of a flash command asks for a reset. -/
theorem State.flashEnd_wantReset (s : State) (c : FlashRun) : (s.flashEnd c).boot.wantReset = s.boot.wantReset := by
  unfold State.flashEnd
  split
  · exact s.flashErase_wantReset _ _
  · exact s.flashPut_wantReset _ _
  · exact congrArg (·.wantReset) (foldl_keeps (view := State.boot) (fun _ _ => rfl) (List.range 8) s)
  · exact congrArg (·.wantReset) (s.verifySlot_boot _)

theorem State.flashReset_wantReset (s : State) : s.flashReset.boot.wantReset = s.boot.wantReset := by
  unfold State.flashReset
  split
  · split
    · exact s.flashSmear_wantReset _ _
    · split
      · exact s.flashSmear_wantReset _ _
      · rfl
  · rfl

/-- Settles O55: a flash command and its end, a larder write by its writer, and its end. -/
theorem flashAndLarderComplete : Obligations.FlashAndLarderComplete := by
  unfold Obligations.FlashAndLarderComplete
  refine fun s => ⟨fun hl => ⟨?start, fun c ok hc hw => ?ended, fun n v who => ⟨fun h => ?taken, fun h => ?denied⟩⟩,
    fun n v rest hq => ?stored⟩
  case start =>
    intro a code i hi u b hc halign hslot
    have hcode : code = 1 ∨ code = 2 ∨ code = 3 ∨ code = 4 := by
      simp only [List.mem_cons, Prod.mk.injEq, List.not_mem_nil, or_false] at hi
      omega
    have hexec : exec i s = .next (u.flashCmd code) := by
      simp only [List.mem_cons, Prod.mk.injEq, List.not_mem_nil, or_false] at hi
      rcases hi with ⟨rfl, rfl⟩ | ⟨rfl, rfl⟩ | ⟨rfl, rfl⟩ | ⟨rfl, rfl⟩ <;> exact State.live_of_running hl
    exact hexec.trans (congrArg _ (State.flashCmd_allowed hcode hc halign hslot))
  case ended =>
    rw [exec_flashCmdDone, execFlashCmdDone, State.live_of_running hl, hc]
    refine congrArg _ (if_neg (Bool.eq_false_iff.1 (Eq.trans ?_ hw)))
    cases ok with
    | true => exact s.flashEnd_wantReset c
    | false => exact s.flashReset_wantReset
  case taken =>
    rw [exec_lardWrite, execLardWrite, State.live_of_running hl, State.lardWrite, if_pos h]
    rfl
  case denied =>
    rw [exec_lardWrite, execLardWrite, State.live_of_running hl, State.lardWrite, if_neg (by rw [h]; decide)]
  case stored =>
    rw [exec_lardWriteDone, execLardWriteDone, hq]

end Sys2Proof.Machine
end

section
/-! The security mailbox and roped pairs (spec/20_security.md, spec/21_roped_pairs.md): the settlement of O56 and O57. -/
namespace Sys2Proof.Machine

/-! ### Security -/

/-- A command that reaches an idle enclave starts, or is refused with its reason (R544, R548). -/
theorem State.secCmd_reached {s : State} {p : SecPath} {code n : Nat} (hreach : s.secReach p = true) (hbusy : s.sec.busy = none)
    (hlard : s.lardOk 19 = true) : s.secCmd p code n =
      if s.secRefusal code n ≠ 0 then (s.secRefuse (s.secRefusal code n)).onSec (fun x => { x with lastCmd := code })
      else
        let uses := code == 4 || code == 10
        s.onSec (fun x => { x with lastCmd := code, busy := some ⟨code, p, n, if uses then x.nonce else none, s.tb.time⟩
                                   nonce := if uses then none else x.nonce }) := by
  have hread : (s.lardRead 19).2 = s := if_pos hlard
  rw [State.secCmd, hreach, hbusy, hread, ite_self]
  rfl

/-- Settles O56: every command by its refusal, its end, the expiry of the nonce, and a random source that fails. -/
theorem securityCommandsComplete : Obligations.SecurityCommandsComplete := by
  unfold Obligations.SecurityCommandsComplete
  intro s p arg hl
  refine ⟨fun hreach hbusy hlard code i hi => ?command, fun c t hc ht => ?ended, fun v t hv ht => ?expiry, fun hp hf => ?trng⟩
  case command =>
    intro n uses
    have hexec : exec i s = .next (s.secCmd p code n) := by
      simp only [List.mem_cons, Prod.mk.injEq, List.not_mem_nil, or_false] at hi
      rcases hi with ⟨rfl, rfl⟩ | ⟨rfl, rfl⟩ | ⟨rfl, rfl⟩ | ⟨rfl, rfl⟩ | ⟨rfl, rfl⟩ | ⟨rfl, rfl⟩ | ⟨rfl, rfl⟩ | ⟨rfl, rfl⟩ | ⟨rfl, rfl⟩ |
        ⟨rfl, rfl⟩ | ⟨rfl, rfl⟩ | ⟨rfl, rfl⟩ <;> exact State.live_of_running hl
    rw [hexec, State.secCmd_reached hreach hbusy hlard]
    exact ⟨fun h => congrArg _ (if_neg (not_not.2 h)), fun h => congrArg _ (if_pos h)⟩
  case ended =>
    rw [exec_secCmdDone, execSecCmdDone, State.live_of_running hl, hc, Option.bind_some, ht]
    rfl
  case expiry =>
    rw [exec_nonceExpiry, execNonceExpiry, State.live_of_running hl, hv, Option.bind_some, ht]
    rfl
  case trng =>
    rw [exec_trngFail, execTrngFail, State.live_of_running hl, if_neg (by rw [hf]; simp), if_neg hp]
    rfl

/-! ### Roped pairs -/

/-- Nothing is left to copy, and the resync goes no further. -/
theorem State.resyncGo_done {s : State} (h : s.pair.resync = 0 ∨ s.pair.resync = 2) :
    s.resyncGo = { s with pair := { s.pair with todo := [] } } := by
  have hpieces : s.resyncPieces = [] := by
    rw [State.resyncPieces]
    rcases h with h | h <;> rw [h] <;> rfl
  rw [State.resyncGo, hpieces]
  rfl

section
variable {s : State} {m : AttachMsg}

/-- A device whose epoch is behind that of its twin is STALE, and receives a resync (R566). -/
theorem State.attachOutcome_behind (h : (s.lardNext 18).toNat < m.epoch.toNat) :
    s.attachOutcome m = s.onPair (fun p => { p with st := 4, resync := 2, twinEpoch := m.epoch }) := if_pos h

/-- A device whose epoch is ahead of that of its twin is SOLO, and sends a resync (R566). -/
theorem State.attachOutcome_ahead (h : m.epoch.toNat < (s.lardNext 18).toNat) : s.attachOutcome m =
    (if s.pair.st = 3 then s else s.lardQueue 18 (s.lardNext 18 + 1)).onPair (fun p => { p with st := 3, resync := 1 }) :=
  (if_neg (Nat.not_lt_of_lt h)).trans (if_pos h)

/-- Two devices of one epoch that hold each other's shard are PAIRED at once (R566). -/
theorem State.attachOutcome_same (he : m.epoch = s.lardNext 18) (hst : s.pair.st = 1) (hg : m.shardGen = s.mirrorGen)
    (hm : s.shardGen = m.mirrorGen) : s.attachOutcome m = s.onPair (fun p => { p with st := 2, resync := 0, misses := 0 }) := by
  rw [State.attachOutcome, he, if_neg (Nat.lt_irrefl _), if_neg (Nat.lt_irrefl _), if_neg (by omega), if_neg (by omega), if_pos ⟨hg, hm⟩]

end

/-- Settles O57: each event of a pair in its state. -/
theorem pairCommandsComplete : Obligations.PairCommandsComplete := by
  unfold Obligations.PairCommandsComplete
  intro s hl
  refine ⟨fun l hb hfrom hst => ?heartbeat, fun hb hst hpeer hp => ?wait, ?attachMsg, fun hr hj ht => ?source, fun g hr ht hg => ?receiver,
    fun p hj hp hr => ?rejoined, fun hst => ?detach, fun hst => ?unpaired, fun h0 h5 => ?attach,
    fun p hst hask => ⟨?ack, fun hp => ?late⟩, fun p hst hrel hp => ?released⟩
  case heartbeat =>
    rw [exec_heartbeatReceive, execHeartbeatReceive, State.live_of_running hl, if_pos hfrom]
    refine (if_neg ?_).trans ((if_neg ?_).trans rfl)
    · rintro ⟨h, -⟩
      rw [show s.pair.st = 3 from h] at hst
      cases hst
    · rintro ⟨-, h⟩
      change s.pair.st = 1 ∨ s.pair.st = 3 ∨ s.pair.st = 4 at h
      omega
  case wait =>
    rw [exec_attachWaitExpiry, execAttachWaitExpiry, State.live_of_running hl]
    exact if_pos ⟨hb, hst, by rw [hpeer]; rfl, hp⟩
  case attachMsg =>
    intro l m hfrom hr hst u
    have hexec : exec (.attachMsg l m) s = .next (u.attachOutcome m).resyncGo := by
      rw [exec_attachMsg, execAttachMsg, State.live_of_running hl, if_pos ⟨hfrom, hr, .inl hst⟩]
      exact congrArg (fun v : State => Host.Outcome.next (v.attachOutcome m).resyncGo) (if_pos hst)
    refine ⟨hexec, fun he hg hm => hexec.trans (congrArg _ ?_), fun hlt => hexec.trans (congrArg _ ?_), fun hlt => hexec.trans (congrArg _ ?_)⟩
    · rw [State.attachOutcome_same (s := u) he hst hg hm]
      exact State.resyncGo_done (.inl rfl)
    · rw [State.attachOutcome_behind (s := u) hlt]
      exact State.resyncGo_done (.inr rfl)
    · rw [State.attachOutcome_ahead (s := u) hlt, if_neg (show ¬ s.pair.st = 3 by omega)]
      rfl
  case source =>
    rw [exec_resyncDone, execResyncDone, State.live_of_running hl, if_neg (by rw [hr, ht]; decide)]
    dsimp only
    rw [if_pos hr]
    exact congrArg _ (if_neg (by rw [hr, hj]; simp))
  case receiver =>
    rw [exec_resyncDone, execResyncDone, State.live_of_running hl, if_neg (by rw [hr, ht]; decide)]
    dsimp only
    rw [if_neg (show ¬ s.pair.resync = 1 by omega), hg]
    exact congrArg _ (if_pos (Or.inl hr))
  case rejoined =>
    rw [exec_rejoinPitch, execRejoinPitch, State.live_of_running hl, hj]
    exact if_pos ⟨hp, hr⟩
  case detach =>
    rw [exec_detach, execDetach, State.live_of_running hl, State.detach, hst]
    rfl
  case unpaired =>
    rw [exec_detach, execDetach, State.live_of_running hl, State.detach, hst]
    rfl
  case attach =>
    rw [exec_attach, execAttach, State.live_of_running hl, State.attachTry, if_neg (not_or.2 ⟨h0, h5⟩)]
  case ack =>
    rw [exec_detachAck, execDetachAck, State.live_of_running hl]
    exact if_pos ⟨hst, by rw [hask]; rfl⟩
  case late =>
    rw [exec_pairDetach, execPairDetach, State.live_of_running hl, hst, hask]
    exact if_pos hp
  case released =>
    rw [exec_releasePitch, execReleasePitch, State.live_of_running hl, hst, hrel]
    exact if_pos hp

end Sys2Proof.Machine
end

section
/-! Power (spec/22_power.md): the settlement of O58. -/
namespace Sys2Proof.Machine

section
variable {s : State}

/-- The wake pitch of a length: none where the length is 0. -/
theorem wakePitch_eq (p : Nat) (len : W32) : (if len.toNat = 0 then none else some (p + len.toNat)) =
    (if len = 0 then none else some (p + len.toNat) : Option Nat) := by
  by_cases h : len = 0
  · rw [if_pos h, if_pos (by rw [h]; rfl)]
  · rw [if_neg h, if_neg (show ¬ len.toNat = 0 from fun h0 => h (BitVec.eq_of_toNat_eq h0))]

/-- A device that is active, idle or napping may go to any deeper state (Table 22-3). -/
theorem sleepAllowed_deeper {st goal : Nat} (hst : st ≤ 2) (hlo : 2 ≤ goal) (hhi : goal ≤ 4) : sleepAllowed st goal = true := by
  rw [sleepAllowed, decide_eq_true hlo, decide_eq_true hhi, decide_eq_true (show 1 ≤ goal by omega)]
  split
  · rfl
  · rw [show st = 2 by omega]
    rfl

/-- A request that Table 22-3 allows is taken with the domains that it names. -/
theorem State.pwrTake_allowed {goal len : Nat} {save : Bool} {mask : NSet} (hreq : s.pwr.req = none) (hwake : s.pwr.wake = none)
    (hok : sleepAllowed s.pwr.st goal = true) : s.pwrTake goal save len mask =
      { s with pwr := { s.pwr with req := some ⟨goal, (if goal ≤ 2 then mask else allDoms).filter s.powered, save && decide (3 ≤ goal),
        if len = 0 then none else some (s.tb.pitch + len), 0, [], s.tb.time⟩ } } := by
  rw [State.pwrTake, hreq, hwake, hok]
  exact if_neg (by decide)

/-- A voltage request for less that is given up, while nothing wakes: its record, and the next one (R599). -/
theorem State.avsGiveUp_down {q : AvsReq} {rest : List AvsReq} (hup : q.up = false) (hwake : s.pwr.wake = none) : s.avsGiveUp q rest =
    ((({ s with pwr := { s.pwr with avs := rest } }).bumpHi (rPwrCnt 0) 1).raise fPwrAvs 19 0 [q.rail, q.mv]).avsDrained := by
  have hrec : Recorded { s with pwr := { s.pwr with avs := rest } }
      ((({ s with pwr := { s.pwr with avs := rest } }).bumpHi (rPwrCnt 0) 1).raise fPwrAvs 19 0 [q.rail, q.mv]) :=
    (bumpHi_recorded _ _ _).trans (raise_recorded _ _ _ _ _)
  have hnone := (congrArg (·.wake) hrec.pwr).trans hwake
  rw [State.avsGiveUp]
  dsimp only
  rw [hup, Bool.false_and, if_neg (by decide), show State.onPwr s _ = { s with pwr := { s.pwr with avs := rest } } from rfl, hnone]

/-- The time that an event reaches changes no power state. -/
theorem State.reachBy_pwr {t : State} {m : Nat} (h : s.reachBy m = some t) : t.pwr = s.pwr := by
  obtain ⟨w, rfl, -, -⟩ := State.reachBy_some h
  rfl

end

/-- Settles O58: each step of a sleep request, a voltage request, and UNGATE. -/
theorem sleepRequestsComplete : Obligations.SleepRequestsComplete := by
  unfold Obligations.SleepRequestsComplete
  intro s hl
  refine ⟨fun who => State.live_of_running hl, ?taken, fun r hr => ⟨fun d why hd => ?refused, fun t d why ht hd => ?delayed, fun hd => ?commit⟩,
    fun r hr => ⟨fun hp hsteps => ?save, fun k n rest hp hsteps => ?off⟩, fun q rest hq => ?ack,
    fun q rest t hq ht => ⟨?timeout, fun hup hwake => State.avsGiveUp_down hup (by rw [State.reachBy_pwr ht, hwake])⟩, fun d hd => ?ungate⟩
  case taken =>
    intro save len hreq hwake wake take
    have hdeep (goal : Nat) (hlo : 2 ≤ goal) (hhi : goal ≤ 4) (hst : s.pwr.st ≤ 2) (sv : Bool) (mask : NSet) :
        s.pwrTake goal sv len.toNat mask = take goal (sv && decide (3 ≤ goal)) (if goal ≤ 2 then mask else allDoms) wake := by
      rw [State.pwrTake_allowed hreq hwake (sleepAllowed_deeper hst hlo hhi), wakePitch_eq]
    refine ⟨fun hst => ?_, fun hst => ⟨?_, ?_, ?_⟩⟩
    · rw [exec_pwrReqIdle, execPwrReqIdle, State.live_of_running hl,
        State.pwrTake_allowed hreq hwake (by rw [sleepAllowed, if_pos hst]; rfl)]
      rfl
    · rw [exec_pwrReqNap, execPwrReqNap, State.live_of_running hl, hdeep 2 (by decide) (by decide) hst]
      rfl
    · rw [exec_pwrReqBivouac, execPwrReqBivouac, State.live_of_running hl, hdeep 3 (by decide) (by decide) hst, decide_eq_true (Nat.le_refl 3),
        Bool.and_true]
      rfl
    · rw [exec_pwrReqWatch, execPwrReqWatch, State.live_of_running hl, hdeep 4 (by decide) (by decide) hst,
        decide_eq_true (show 3 ≤ 4 by decide), Bool.and_true]
      rfl
  case refused =>
    rw [exec_domainQuery, execDomainQuery, State.live_of_running hl, hr]
    dsimp only
    rw [hd]
  case delayed =>
    rw [exec_delayLimExpiry, execDelayLimExpiry, State.live_of_running hl, hr]
    dsimp only
    rw [ht]
    dsimp only
    rw [hd]
  case commit =>
    rw [exec_pwrCommit, execPwrCommit, State.live_of_running hl, hr]
    dsimp only
    rw [hd]
  case save =>
    rw [exec_saveDone, execSaveDone, State.live_of_running hl, hr]
    dsimp only
    rw [if_pos hp, if_neg (by rwa [List.isEmpty_iff])]
    rfl
  case off =>
    rw [exec_offStep, execOffStep, State.live_of_running hl, hr]
    dsimp only
    rw [hp, hsteps]
    rfl
  case ack =>
    rw [exec_avsAck, execAvsAck, State.live_of_running hl, hq]
    rfl
  case timeout =>
    rw [exec_avsTimeout, execAvsTimeout, State.live_of_running hl, hq]
    dsimp only
    rw [ht]
    rfl
  case ungate =>
    rw [exec_ungate, execUngate, State.live_of_running hl]
    exact if_pos hd

end Sys2Proof.Machine
end

section
/-! Waking (spec/22_power.md, spec/26_package_and_electrical.md): the settlement of O59. -/
namespace Sys2Proof.Machine

/-- Where no saved word fails its check nothing is lost (R592). -/
theorem State.restoreFails_nil {s : State} (h : s.saveErrs = []) : s.restoreFails [] = [] := by
  rw [State.restoreFails, h]
  rfl

/-- The sample of WATCH is taken at its time, and wakes by the first source that it shows (R578). -/
theorem State.watchLook_sampled (s : State) (smp : Sample) : s.watchLook smp =
    (let u := { s with pwr := { s.pwr with sampled := s.tb.time } }
     match u.sampleSource smp with
     | some w => u.wakeNow w.1 w.2.1 w.2.2 false
     | none => u) := rfl

/-- Settles O59: each wake source, the sample of WATCH, the steps of a wake, and the operating point. -/
theorem wakingCompletes : Obligations.WakingCompletes := by
  unfold Obligations.WakingCompletes
  intro s hl
  refine ⟨fun hen => ?pin, fun h hen => ?half, fun p hreq hw hp => ?pitch, fun temp hen hout => ?temp, fun aon vio hen hout => ?rail,
    fun smp t hst hw hr ht => ⟨fun a b d hs => ?wakes, fun hs => ?sleeps⟩, fun w hw h2 h8 => ?step, fun w hw h9 herr => ?restored,
    fun v => State.live_of_running hl, fun op => State.live_of_running hl, fun temp hth hlim => ?thermal, fun temp htemp => ?trip, ?undervolt⟩
  case pin =>
    rw [exec_wakeNLow, execWakeNLow, State.live_of_running hl, if_pos hen]
  case half =>
    rw [exec_nzIdleExit, execNzIdleExit, State.live_of_running hl, if_pos hen]
  case pitch =>
    rw [exec_wakePitch, execWakePitch, State.live_of_running hl, hreq]
    dsimp only
    rw [hw]
    exact if_pos hp
  case temp =>
    rw [exec_tempWake, execTempWake, State.live_of_running hl, hen, hout]
    rfl
  case rail =>
    rw [exec_railWake, execRailWake, State.live_of_running hl, hen, hout]
    rfl
  case wakes =>
    rw [exec_watchSample, execWatchSample, State.live_of_running hl, if_pos ⟨hst, hw, hr⟩, ht, Option.elim_some, State.watchLook_sampled]
    dsimp only
    rw [hs]
  case sleeps =>
    rw [exec_watchSample, execWatchSample, State.live_of_running hl, if_pos ⟨hst, hw, hr⟩, ht, Option.elim_some, State.watchLook_sampled]
    dsimp only
    rw [hs]
  case step =>
    rw [exec_wakeStep, execWakeStep, State.live_of_running hl, hw]
    exact if_pos ⟨h2, h8⟩
  case restored =>
    rw [exec_restoreDone, execRestoreDone, State.live_of_running hl, hw]
    dsimp only
    rw [if_pos h9, State.restoreFails_nil herr, herr]
    rfl
  case thermal =>
    rw [exec_thermalStep, execThermalStep, State.live_of_running hl]
    exact if_pos (by rw [hth, decide_eq_true hlim]; rfl)
  case trip =>
    rw [exec_thermtrip, execThermtrip, if_pos htemp]
    rfl
  case undervolt => exact State.live_of_running hl

end Sys2Proof.Machine
end

section
/-! Self-test, monitors and register access (spec/23_integrity_selftest_monitors.md, spec/25_register_map.md): the settlement of O60. -/
namespace Sys2Proof.Machine

/-- The recalibrations that have ended leave their bits, and the others stay (R621). -/
theorem bitOf_foldl_clear {k : Nat} (l : List Nat) : ∀ {v : BitVec 26}, (∀ n ∈ l, n < 26) →
    bitOf (l.foldl (fun v n => setFld v n 1 0) v) k = (bitOf v k && !(l.contains k)) := by
  induction l with
  | nil => intro v _; simp
  | cons n l ih =>
    intro v hl
    rw [List.foldl_cons, ih (fun m hm => hl m (List.mem_cons_of_mem _ hm)), List.contains_cons]
    by_cases hk : k = n
    · subst hk
      rw [bitOf, getLsbD_setFld v k 1 0 k (hl k List.mem_cons_self), if_pos (by omega)]
      simp
    · rw [bitOf, getLsbD_setFld_bit v 0 hk, beq_eq_false_iff_ne.2 hk, Bool.false_or, bitOf]

/-- Settles O60: each event of the self-test, the monitors and the registers where its condition holds. -/
theorem selfTestAndMonitorsComplete : Obligations.SelfTestAndMonitorsComplete := by
  unfold Obligations.SelfTestAndMonitorsComplete
  intro s hl
  refine ⟨fun v => State.live_of_running hl, fun c a => ⟨fun hpend hrun hon hidle => ?start, fun hrun pass => ?ended, fun hpend hrun hp => ?refused⟩,
    fun v => State.live_of_running hl, fun links halves => ⟨_, State.live_of_running hl, rfl, rfl, fun n hn => ?cal⟩,
    fun f => ⟨State.live_of_running hl, State.live_of_running hl⟩, fun m v hon => ⟨State.live_ifOn _ hl hon, State.live_ifOn _ hl hon⟩,
    fun m hen hw hp => ?window, fun m v => ⟨fun hself => ?own, fun hself hen => ?sample⟩, fun who addr data hloc hregs hmay => ?write⟩
  case start =>
    rw [exec_bistStart, execBistStart, State.live_of_running hl]
    exact congrArg _ (if_pos (by rw [hpend, hrun, hon, hidle]; rfl))
  case ended =>
    rw [exec_bistDone, execBistDone, State.live_of_running hl]
    exact if_pos hrun
  case refused =>
    rw [exec_bistRefuse, execBistRefuse, State.live_of_running hl]
    exact congrArg _ (if_pos (by rw [hpend, hrun, hp]; rfl))
  case cal =>
    rw [bitOf_foldl_clear _ (fun m hm => List.mem_range.1 (List.mem_filter.1 hm).1)]
    congr 2
    rw [Bool.eq_iff_iff, List.contains_iff_mem, List.mem_filter, List.mem_range, Bool.and_comm, and_iff_right hn]
  case window =>
    rw [exec_monWindowEnd, execMonWindowEnd, State.live_of_running hl]
    have hw' : (s.monWindow m.val != 0) = true := bne_iff_ne.2 hw
    exact congrArg _ (if_pos (by rw [hen, hw', hp]; rfl))
  case own =>
    rw [exec_monSample, execMonSample, State.live_of_running hl, if_pos hself]
  case sample =>
    have hself' : ¬ monSelf (s.monSrc m.val) = true := Bool.eq_false_iff.1 hself
    have hsrc : (s.monSrc m.val == 1) = false := by
      rw [beq_eq_false_iff_ne]
      intro h1
      rw [h1] at hself
      cases hself
    rw [exec_monSample, execMonSample, State.live_of_running hl, if_neg hself', State.monTake, if_pos hen, hsrc]
  case write =>
    rw [exec_registerWrite]
    exact (State.live_of_running hl).trans ((if_neg (by rw [hloc, hregs]; decide)).trans (if_pos hmay))

end Sys2Proof.Machine
end

section
/-! Tools for O5. Memory is in canonical form (`MemOk`) in every state that a step reaches from one in which it is. Few functions of
the model write memory at all: `wrBytes` and what is made of it, the end of a fill, staging, and the power domains of a core. So a function
has one lemma of two kinds: `f_mem`, it leaves memory as it is, or `f_memOk`, it keeps the form; and a command has `f_nextOk`, the state it
answers has the form. Here: repetitions, choices and named results. A result has a name (`… = t → t.mem = …`) where the kernel would
otherwise evaluate a whole state to compare two terms for it; for the same reason a definition whose body is a match on the state takes
the place of its name by an equation of functions (`delta`), which is then applied. -/
namespace Sys2Proof.Machine

/-- A step of a repetition that keeps a view of what it is applied to. -/
def KeepsView {σ α β : Type} (v : σ → β) (g : σ → α → σ) : Prop := ∀ t x, v (g t x) = v t

@[simp] theorem keepsView_iff {σ α β : Type} (v : σ → β) (g : σ → α → σ) : KeepsView v g ↔ ∀ t x, v (g t x) = v t := Iff.rfl

theorem KeepsView.foldl {σ α β : Type} {v : σ → β} {g : σ → α → σ} (hg : KeepsView v g) (l : List α) (s : σ) : v (l.foldl g s) = v s := by
  induction l generalizing s with
  | nil => rfl
  | cons x l ih => rw [List.foldl_cons, ih, hg]

section
variable {α β γ : Type}

@[simp] theorem foldl_mem {g : State → α → State} (hg : KeepsView State.mem g) (l : List α) (s : State) :
    (l.foldl g s).mem = s.mem := hg.foldl l s

@[simp] theorem foldl_fst_mem {g : State × β → α → State × β} (hg : KeepsView (fun r => r.1.mem) g) (l : List α) (r : State × β) :
    (l.foldl g r).1.mem = r.1.mem := hg.foldl l r

@[simp] theorem foldl_snd_mem {g : β × State → α → β × State} (hg : KeepsView (fun r => r.2.mem) g) (l : List α) (r : β × State) :
    (l.foldl g r).2.mem = r.2.mem := hg.foldl l r

@[simp] theorem foldl_snd_snd_mem {g : β × γ × State → α → β × γ × State} (hg : KeepsView (fun r => r.2.2.mem) g) (l : List α)
    (r : β × γ × State) : (l.foldl g r).2.2.mem = r.2.2.mem := hg.foldl l r

@[simp] theorem foldl_s_mem {g : Go → α → Go} (hg : KeepsView (fun r => r.s.mem) g) (l : List α) (r : Go) :
    (l.foldl g r).s.mem = r.s.mem := hg.foldl l r

@[simp] theorem foldl_snd_s_mem {g : β × Go → α → β × Go} (hg : KeepsView (fun r => r.2.s.mem) g) (l : List α) (r : β × Go) :
    (l.foldl g r).2.s.mem = r.2.s.mem := hg.foldl l r

@[simp] theorem foldl_snd_snd_s_mem {g : β × γ × Go → α → β × γ × Go} (hg : KeepsView (fun r => r.2.2.s.mem) g) (l : List α)
    (r : β × γ × Go) : (l.foldl g r).2.2.s.mem = r.2.2.s.mem := hg.foldl l r

@[simp] theorem forN_mem {g : Nat → State → State} (hg : KeepsView State.mem (fun s i => g i s)) (n : Nat) (s : State) :
    (forN n g s).mem = s.mem := hg.foldl _ s

@[simp] theorem ite_mem (p : Prop) [Decidable p] (a b : State) : (if p then a else b).mem = if p then a.mem else b.mem :=
  apply_ite State.mem p a b

@[simp] theorem ite_s (p : Prop) [Decidable p] (a b : Go) : (if p then a else b).s = if p then a.s else b.s := apply_ite Go.s p a b

end

theorem foldl_memOk {α : Type} {g : State → α → State} (hg : ∀ t x, MemOk t → MemOk (g t x)) (l : List α) {s : State} (hs : MemOk s) :
    MemOk (l.foldl g s) := by
  induction l generalizing s with
  | nil => exact hs
  | cons x l ih => exact ih (hg s x hs)

theorem foldl_s_memOk {α : Type} {g : Go → α → Go} (hg : ∀ t x, MemOk t.s → MemOk (g t x).s) (l : List α) {r : Go} (hr : MemOk r.s) :
    MemOk (l.foldl g r).s := by
  induction l generalizing r with
  | nil => exact hr
  | cons x l ih => exact ih (hg r x hr)

theorem foldl_snd_memOk {α β : Type} {g : β × State → α → β × State} (hg : ∀ t x, MemOk t.2 → MemOk (g t x).2) (l : List α)
    {r : β × State} (hr : MemOk r.2) : MemOk (l.foldl g r).2 := by
  induction l generalizing r with
  | nil => exact hr
  | cons x l ih => exact ih (hg r x hr)

@[simp] theorem wf_ite (p : Prop) [Decidable p] (m m' : List Host.Cell) :
    Memory.wf (if p then m else m') = if p then Memory.wf m else Memory.wf m' := apply_ite Memory.wf p m m'

/-- What a pair that a match has named keeps of memory. -/
theorem mem_of_eq {α : Type} {r : α × State} {a : α} {t : State} {m : List Host.Cell} (h : r = (a, t)) (hr : r.2.mem = m) : t.mem = m := by
  rw [h] at hr; exact hr

theorem s_mem_of_eq {α : Type} {r : α × Go} {a : α} {t : Go} {m : List Host.Cell} (h : r = (a, t)) (hr : r.2.s.mem = m) : t.s.mem = m := by
  rw [h] at hr; exact hr

theorem memOk_of_eq {α : Type} {r : α × State} {a : α} {t : State} (h : r = (a, t)) (hr : MemOk r.2) : MemOk t := by
  rw [h] at hr; exact hr

theorem memOk_of_mem_eq {s t : State} (h : t.mem = s.mem) (hm : MemOk s) : MemOk t := by rw [MemOk, h]; exact hm

/-- The same with the result of a step under a name: the kernel then compares states and never evaluates them. -/
theorem foldl_mem_of_eq {α : Type} {g : State → α → State} (hg : ∀ t x u, g t x = u → u.mem = t.mem) (l : List α) (s : State) :
    (l.foldl g s).mem = s.mem := foldl_mem (fun t x => hg t x _ rfl) l s

theorem foldl_memOk_of_eq {α : Type} {g : State → α → State} (hg : ∀ t x u, MemOk t → g t x = u → MemOk u) (l : List α) {s : State}
    (hs : MemOk s) : MemOk (l.foldl g s) := foldl_memOk (fun t x h => hg t x _ h rfl) l hs

/-- The two values of a choice, one at a time. -/
theorem ite_elim {α : Type} {p : Prop} [Decidable p] {a b t : α} {Q : Prop} (h : (if p then a else b) = t) (h1 : a = t → Q)
    (h2 : b = t → Q) : Q := by
  split at h
  · exact h1 h
  · exact h2 h

theorem memOk_ite {p : Prop} [Decidable p] {s t : State} (hs : MemOk s) (ht : MemOk t) : MemOk (if p then s else t) := by
  split
  · exact hs
  · exact ht

theorem foldl_s_mem_of_eq {α : Type} {g : Go → α → Go} (hg : ∀ t x u, g t x = u → u.s.mem = t.s.mem) (l : List α) (r : Go) :
    (l.foldl g r).s.mem = r.s.mem := foldl_s_mem (fun t x => hg t x _ rfl) l r

theorem foldl_snd_s_mem_of_eq {α β : Type} {g : β × Go → α → β × Go} (hg : ∀ t x u, g t x = u → u.2.s.mem = t.2.s.mem) (l : List α)
    (r : β × Go) : (l.foldl g r).2.s.mem = r.2.s.mem := foldl_snd_s_mem (fun t x => hg t x _ rfl) l r

/-- The next state that a command answers, where it answers one, has its memory in canonical form. -/
def NextOk (o : Host.Outcome State Fault Refusal) : Prop := ∀ t, o = .next t → MemOk t

@[simp] theorem nextOk_next (t : State) : NextOk (.next t) ↔ MemOk t :=
  ⟨fun h => h t rfl, fun h u hu => by injection hu with hu; exact hu ▸ h⟩

@[simp] theorem nextOk_refused (r : Refusal) : NextOk (.refused r) := fun _ h => nomatch h

theorem nextOk_ite {p : Prop} [Decidable p] {o o' : Host.Outcome State Fault Refusal} (h : NextOk o) (h' : NextOk o') :
    NextOk (if p then o else o') := by
  split
  · exact h
  · exact h'

theorem nextOk_of_mem_eq {s t : State} (h : t.mem = s.mem) (hm : MemOk s) : NextOk (.next t) := (nextOk_next t).mpr (memOk_of_mem_eq h hm)

end Sys2Proof.Machine
end

section
/-! The form of memory (O5): the state's operations, monitors, memory tiers, tiles and operands. -/
namespace Sys2Proof.Machine

/-! ### Ops -/

@[simp] theorem State.setSeq_mem (s : State) (c : Core) (q : SeqSt) : (s.setSeq c q).mem = s.mem := rfl

@[simp] theorem State.countNum_mem (s : State) (c : Core) (n : NumCnt) : (s.countNum c n).mem = s.mem := by simp [State.countNum]

@[simp] theorem State.setGen_mem (s : State) (c : Core) (g : W32) : (s.setGen c g).mem = s.mem := rfl

@[simp] theorem State.setAcc_memOk (s : State) (c : Core) (a : Arr) (r : ℕ) (j : ℕ) (v : W32) (hm : MemOk s) : MemOk (s.setAcc c a r j v) :=
  s.wrBytes_memOk (accAddr c a.val r j) (bytesOf 4 v.toNat) hm

@[simp] theorem State.markValid_mem (s : State) (a : ℕ) (n : ℕ) : (s.markValid a n).mem = s.mem := by unfold State.markValid; split <;> simp

@[simp] theorem State.mergeBase_memOk (s : State) (a : ℕ) (n : ℕ) (hm : MemOk s) : MemOk (s.mergeBase a n) := by
  unfold State.mergeBase
  split
  · exact hm
  · dsimp only
    split
    · exact hm
    · refine foldl_memOk (fun t i h => ?_) _ hm
      split
      · exact h
      · exact t.wrBytes_memOk _ _ h

@[simp] theorem State.strike_mem (s : State) (a : ℕ) (e : Ecc) : (s.strike a e).mem = s.mem := by simp [State.strike]

@[simp] theorem State.wrLocal_memOk (s : State) (a : ℕ) (bs : List Byte) (hm : MemOk s) : MemOk (s.wrLocal a bs) := by
  simpa [MemOk, State.wrLocal] using State.wrBytes_memOk a bs (s.mergeBase_memOk a bs.length hm)

/-- After a thermal trip nothing happens (R673): only what a command does before it matters. -/
theorem State.live_nextOk {s : State} {o : Host.Outcome State Fault Refusal} (hm : MemOk s) (ho : NextOk o) : NextOk (s.live o) := by
  unfold State.live
  split
  · exact (nextOk_next s).mpr hm
  · exact ho

theorem State.ifOn_nextOk {s : State} (d : ℕ) {f : State → State} (hf : MemOk (f s)) (hm : MemOk s) : NextOk (.next (s.ifOn d f)) := by
  rw [nextOk_next]
  unfold State.ifOn
  split
  · exact hf
  · exact memOk_of_mem_eq (State.bumpLo_mem _ _ _) hm

@[simp] theorem State.lookFreed_mem (s : State) (q : ℕ) : (s.lookFreed q).mem = s.mem := (s.lookFreed_recorded q).mem

@[simp] theorem State.lookWritten_mem (s : State) (q : ℕ) : (s.lookWritten q).mem = s.mem := (s.lookWritten_recorded q).mem

@[simp] theorem State.dropHead_mem (s : State) (q : ℕ) (limit : ℕ) (p : QPkt) : (s.dropHead q limit p).mem = s.mem :=
  (s.dropHead_recorded q limit p).mem

@[simp] theorem State.servePops_mem (s : State) (q : ℕ) (a : ℕ) : (s.servePops q a).mem = s.mem := (s.servePops_recorded q a).mem

@[simp] theorem State.pushPkt_mem (s : State) (q : ℕ) (prod : ℕ) (data : List Byte) (written : ℕ) :
    (s.pushPkt q prod data written).mem = s.mem :=
  (s.pushPkt_recorded q prod data written).mem

@[simp] theorem State.offerRecord_mem (s : State) (r : List Byte) : (s.offerRecord r).mem = s.mem := (s.offerRecord_recorded r).mem

@[simp] theorem State.raise_mem (s : State) (code : ℕ) (block : ℕ) (index : ℕ) (det : List ℕ) :
    (s.raise code block index det).mem = s.mem :=
  (s.raise_recorded code block index det).mem

@[simp] theorem State.cmpMiss_mem (s : State) (cls : ℕ) (addr : ℕ) (who : ℕ) (block : ℕ) (index : ℕ) :
    (s.cmpMiss cls addr who block index).mem = s.mem :=
  (s.cmpMiss_recorded cls addr who block index).mem

@[simp] theorem State.seqFault_mem (s : State) (c : Core) : (s.seqFault c).mem = s.mem := rfl

@[simp] theorem State.onTb_mem (s : State) (f : TbSt → TbSt) : (s.onTb f).mem = s.mem := rfl

@[simp] theorem State.reach_mem (s : State) (t : W64) : (s.reach t).mem = s.mem := rfl

theorem State.reachBy_mem {s : State} {a : ℕ} {t : State} (ht : s.reachBy a = some t) : t.mem = s.mem := by
  unfold State.reachBy at ht
  split at ht
  · simp at ht; rw [ht]
  · split at ht <;> simp at ht
    subst ht; simp

theorem State.reachBy_memOk {s : State} {a : ℕ} {t : State} (hm : MemOk s) (ht : s.reachBy a = some t) : MemOk t :=
  memOk_of_mem_eq (State.reachBy_mem ht) hm

/-- An event that is due within the present pitch fires at its time, and one that is not leaves the state as it is. -/
theorem State.reachBy_elim_memOk {s : State} (a : ℕ) {f : State → State} (hf : ∀ t, MemOk t → MemOk (f t)) (hm : MemOk s) :
    MemOk ((s.reachBy a).elim s f) := by
  rcases h : s.reachBy a with _ | t
  · exact hm
  · exact hf t (State.reachBy_memOk hm h)

theorem State.linkOver_mem {s : State} {st : ℕ} {since : W64} {t : State} (ht : s.linkOver st since = some t) : t.mem = s.mem :=
  State.reachBy_mem ht

theorem State.linkOver_elim_memOk {s : State} (st : ℕ) (since : W64) {f : State → State} (hf : ∀ t, MemOk t → MemOk (f t)) (hm : MemOk s) :
    MemOk ((s.linkOver st since).elim s f) := State.reachBy_elim_memOk _ hf hm

@[simp] theorem State.placePitch_mem (s : State) : (s.placePitch).mem = s.mem := rfl

@[simp] theorem State.requestStart_mem (s : State) (c : Core) (src : ℕ) (r : StartReq) : (s.requestStart c src r).mem = s.mem := by
  simp [State.requestStart]

@[simp] theorem State.readsDone_mem (s : State) (c : Core) (g : Guard) : (s.readsDone c g).mem = s.mem := by simp [State.readsDone]

@[simp] theorem State.guardDone_mem (s : State) (c : Core) (g : Guard) : (s.guardDone c g).mem = s.mem := by simp [State.guardDone]

/-! ### Monitor -/

@[simp] theorem State.setMon_mem (s : State) (m : ℕ) (x : MonSt) : (s.setMon m x).mem = s.mem := rfl

@[simp] theorem State.monTake_mem (s : State) (m : ℕ) (v : ℤ) : (s.monTake m v).mem = s.mem := by simp [State.monTake]

@[simp] theorem State.monFeed_mem (s : State) (src : ℕ) (sel : ℕ) (lo : ℕ) (n : ℕ) (v : ℤ) : (s.monFeed src sel lo n v).mem = s.mem := by
  simp [State.monFeed]

@[simp] theorem State.monCore_mem (s : State) (c : Core) (src : ℕ) (v : ℤ) : (s.monCore c src v).mem = s.mem := by simp [State.monCore]

@[simp] theorem State.monClear_mem (s : State) (m : ℕ) : (s.monClear m).mem = s.mem := rfl

/-! ### MemTiers -/

@[simp] theorem State.noPop_mem (s : State) (a : ℕ) : (s.noPop a).mem = s.mem := (s.noPop_recorded a).mem

@[simp] theorem State.unmapped_mem (s : State) (a : ℕ) : (s.unmapped a).mem = s.mem := by simp [State.unmapped]

@[simp] theorem State.memEcc_mem (s : State) (a : ℕ) : (s.memEcc a).2.mem = s.mem := (s.memEcc_recorded a).mem

@[simp] theorem State.sramEcc_mem (s : State) (block : ℕ) (index : ℕ) (struct : ℕ) (a : ℕ) (who : ℕ) :
    (s.sramEcc block index struct a who).2.mem = s.mem :=
  (s.sramEcc_recorded block index struct a who).mem

@[simp] theorem State.strikes_mem (s : State) (l : List (ℕ × Ecc)) : (s.strikes l).mem = s.mem := by simp [State.strikes]

@[simp] theorem State.readCheck_mem (s : State) (who : ℕ) (a : ℕ) : (s.readCheck who a).2.mem = s.mem := (s.readCheck_recorded who a).mem

@[simp] theorem State.readWords_mem (s : State) (who : ℕ) (addrs : List ℕ) : (s.readWords who addrs).2.mem = s.mem :=
  (s.readWords_recorded who addrs).mem

@[simp] theorem State.accBad_mem (s : State) (c : Core) (a : ℕ) : (s.accBad c a).mem = s.mem := (s.accBad_recorded c a).mem

@[simp] theorem State.portWaits_mem (s : State) (c : Core) : (s.portWaits c).mem = s.mem := by simp [State.portWaits]

@[simp] theorem State.portConflicts_mem (s : State) (c : Core) : (s.portConflicts c).mem = s.mem := by simp [State.portConflicts]

@[simp] theorem State.accCheck_mem (s : State) (c : Core) (who : ℕ) (a : ℕ) (n : ℕ) : (s.accCheck c who a n).2.mem = s.mem := by
  simp [State.accCheck]

@[simp] theorem State.accRunRead_mem (s : State) (who : ℕ) (a : ℕ) (n : ℕ) : (s.accRunRead who a n).2.mem = s.mem := by
  unfold State.accRunRead
  (repeat' split) <;> simp

@[simp] theorem State.accRunWrite_memOk (s : State) (a : ℕ) (bs : List Byte) (hm : MemOk s) : MemOk (s.accRunWrite a bs).2 := by
  unfold State.accRunWrite
  split
  · simp [MemOk, hm]
  · simp [MemOk, apply_ite Prod.snd, hm, s.wrBytes_memOk a bs hm]

@[simp] theorem State.accRead_mem (s : State) (c : Core) (who : ℕ) (a : ℕ) (n : ℕ) : (s.accRead c who a n).2.mem = s.mem := by
  unfold State.accRead
  split <;> simp

@[simp] theorem State.accWrite_memOk (s : State) (c : Core) (a : ℕ) (bs : List Byte) (hm : MemOk s) : MemOk (s.accWrite c a bs).2 := by
  unfold State.accWrite
  split
  · simp [MemOk, hm]
  · exact foldl_snd_memOk (fun t x h => by simp [MemOk, h]) _ hm

@[simp] theorem State.wordRead_mem (s : State) (who : ℕ) (a : ℕ) (n : ℕ) : (s.wordRead who a n).2.mem = s.mem := by
  unfold State.wordRead
  dsimp only
  (repeat' split) <;> simp

@[simp] theorem State.wordWrite_memOk (s : State) (who : ℕ) (a : ℕ) (bs : List Byte) (hm : MemOk s) : MemOk (s.wordWrite who a bs).2 := by
  unfold State.wordWrite
  split <;> simp [MemOk, hm, apply_ite Prod.snd]

@[simp] theorem State.wordsRead_mem (s : State) (who : ℕ) (l : List (ℕ × ℕ)) : (s.wordsRead who l).2.mem = s.mem := by
  induction l generalizing s with
  | nil => rfl
  | cons p l ih => exact (ih _).trans (s.wordRead_mem who p.1 p.2)

@[simp] theorem State.wordsWrite_memOk (s : State) (who : ℕ) (l : List (ℕ × ℕ)) (bs : List Byte) (hm : MemOk s) :
    MemOk (s.wordsWrite who l bs).2 := by
  induction l generalizing s bs with
  | nil => exact hm
  | cons p l ih => exact ih _ _ (s.wordWrite_memOk who p.1 _ hm)

@[simp] theorem State.readFault_mem (s : State) (c : Core) : (s.readFault c).mem = s.mem := rfl

@[simp] theorem State.drawKeys_mem (s : State) : (s.drawKeys).mem = s.mem := rfl

@[simp] theorem State.setMemReqs_mem (s : State) (m : MemCtl) (l : List MemReq) : (s.setMemReqs m l).mem = s.mem := rfl

@[simp] theorem State.setMemStopped_mem (s : State) (lane : ℕ) (r : Option MemReq) : (s.setMemStopped lane r).mem = s.mem := rfl

@[simp] theorem State.setMemAnswers_mem (s : State) (m : MemCtl) (l : List MemAnswer) : (s.setMemAnswers m l).mem = s.mem := rfl

@[simp] theorem State.moveWord_memOk (s : State) (r : MemReq) (k : ℕ) (hm : MemOk s) : MemOk (s.moveWord r k).2 := by
  unfold State.moveWord
  dsimp only
  (repeat' split) <;> simp [MemOk, hm]

@[simp] theorem State.transfer_memOk (s : State) (m : MemCtl) (r : MemReq) (n : ℕ) (hm : MemOk s) : MemOk (s.transfer m r n) := by
  unfold State.transfer
  extract_lets x
  have hx : MemOk x.2 := by
    refine foldl_snd_memOk (fun y k h => ?_) _ hm
    exact y.2.moveWord_memOk r k h
  split
  · exact hx
  · exact memOk_of_mem_eq (State.setMemAnswers_mem _ _ _) hx

@[simp] theorem State.countPreempt_mem (s : State) (m : MemCtl) : (s.countPreempt m).mem = s.mem := by
  unfold State.countPreempt
  split <;> simp

@[simp] theorem State.commitRegs_mem (s : State) (v : W64) (rs : List ℕ) : (s.commitRegs v rs).mem = s.mem := by simp [State.commitRegs]

@[simp] theorem State.setNmgQueue_mem (s : State) (h' : ℕ) (l : List (BitVec 512)) : (s.setNmgQueue h' l).mem = s.mem := rfl

@[simp] theorem State.setNmgRun_mem (s : State) (h' : ℕ) (r : Option NmgRun) : (s.setNmgRun h' r).mem = s.mem := rfl

@[simp] theorem State.nmgPush_mem (s : State) (h' : ℕ) (r : BitVec 512) : (s.nmgPush h' r).2.mem = s.mem := by
  unfold State.nmgPush
  dsimp only
  split <;> simp

/-! ### Tiles -/

@[simp] theorem State.noteHdr_mem (s : State) (c : Core) (block : ℕ) (addr : ℕ) (u : HdrUse) :
    (s.noteHdr c block addr u).2.2.mem = s.mem := by
  unfold State.noteHdr
  split <;> simp

@[simp] theorem State.useHdr_mem (s : State) (c : Core) (block : ℕ) (who : ℕ) (addr : ℕ) : (s.useHdr c block who addr).2.2.mem = s.mem := by
  unfold State.useHdr
  dsimp only
  split <;> simp

@[simp] theorem State.noteTile_mem (s : State) (c : Core) (block : ℕ) (h' : Hdr) (r : TileRead) :
    (s.noteTile c block h' r).2.mem = s.mem := by
  unfold State.noteTile
  (repeat' split) <;> simp

@[simp] theorem State.useTile_mem (s : State) (c : Core) (block : ℕ) (who : ℕ) (h' : Hdr) : (s.useTile c block who h').2.2.mem = s.mem := by
  unfold State.useTile
  dsimp only
  split <;> simp

@[simp] theorem State.expand_mem (s : State) (c : Core) (block : ℕ) (who : ℕ) (h' : Hdr) (texp : ℤ) :
    (s.expand c block who h' texp).2.2.mem = s.mem := by
  simp [State.expand]

/-! ### Operands -/

@[simp] theorem State.panReject_mem (s : State) (c : Core) (reason : ℕ) : (s.panReject c reason).mem = s.mem := by simp [State.panReject]

@[simp] theorem State.countTiles_mem (s : State) (c : Core) (block : ℕ) (who : ℕ) (d : Desc) (i0 : ℕ) (n : ℕ) (j0 : ℕ) (m : ℕ) :
    (s.countTiles c block who d i0 n j0 m).2.mem = s.mem := by
  unfold State.countTiles
  split <;> simp

@[simp] theorem State.countSlots_mem (s : State) (addrs : List ℕ) : (s.countSlots addrs).mem = s.mem := by
  unfold State.countSlots
  split
  · rfl
  · split
    · dsimp only; split
      · rw [State.monCore_mem, State.bumpHi_mem]
      · rfl
    · rfl

@[simp] theorem State.countWords_mem (s : State) (addrs : List ℕ) : (s.countWords addrs).mem = s.mem := by simp [State.countWords]

@[simp] theorem State.countSquares_mem (s : State) (d : Desc) (t : EType) (r0 : ℕ) (n : ℕ) (e0 : ℕ) (m : ℕ) :
    (s.countSquares d t r0 n e0 m).mem = s.mem := by
  simp [State.countSquares]

@[simp] theorem State.countRows_mem (s : State) (c : Core) (who : ℕ) (d : Desc) (t : EType) (turn : Bool) (r0 : ℕ) (n : ℕ) (e0 : ℕ)
    (len : ℕ) : (s.countRows c who d t turn r0 n e0 len).2.mem = s.mem := by
  simp [State.countRows]

@[simp] theorem State.wrFull_memOk (s : State) (who : ℕ) (a : ℕ) (bs : List Byte) (hm : MemOk s) : MemOk (s.wrFull who a bs).2 := by
  simp [State.wrFull, apply_ite Prod.snd, MemOk, hm]

@[simp] theorem State.put_memOk (s : State) (who : ℕ) (a : ℕ) (bs : List Byte) (hm : MemOk s) : MemOk (s.put who a bs) :=
  s.wrFull_memOk who a bs hm

@[simp] theorem State.writeRow_memOk (s : State) (c : Core) (who : ℕ) (d : Desc) (t : EType) (r : ℕ) (ws : List (ℕ × ℕ)) (hm : MemOk s) :
    MemOk (s.writeRow c who d t r ws) := by
  simp only [State.writeRow, MemOk, State.bumpLo_mem]
  exact foldl_memOk (fun u p h => u.put_memOk _ _ _ h) _ hm

@[simp] theorem State.writeRun_memOk (s : State) (c : Core) (who : ℕ) (check : Bool) (d : Desc) (t : EType) (r : ℕ) (es : List (Option ℕ))
    (scs : List (Option ℕ)) (hm : MemOk s) : MemOk (s.writeRun c who check d t r es scs).2 := by
  unfold State.writeRun
  extract_lets n len old m bits scales set inside part u ws beyond
  have hu : MemOk u.2 := by simp only [u]; split <;> simp [MemOk, hm]
  split
  · exact hu
  · simp [MemOk, hu]

end Sys2Proof.Machine
end

section
/-! The form of memory (O5): MAC arrays, feeders, and the array steps at issue. -/
namespace Sys2Proof.Machine

/-! ### Array -/

@[simp] theorem State.arrReject_mem (s : State) (c : Core) (a : Arr) (reason : ℕ) : (s.arrReject c a reason).mem = s.mem := by
  simp [State.arrReject]

@[simp] theorem State.vecToRow_memOk (s : State) (c : Core) (a : Arr) (mode : ℕ) (layout : ℕ) (p : Plane) (lo : Plane) (isInt : Bool)
    (f32mode : Bool) (xF32 : Bool) (set : Bool) (nc : NumCtl) (x : FeedVec) (re : BitVec 64) (ce : BitVec 64) (row : ℕ) (hm : MemOk s) :
    MemOk (s.vecToRow c a mode layout p lo isInt f32mode xF32 set nc x re ce row) := by
  unfold State.vecToRow
  split
  · exact hm
  · refine foldl_memOk (fun s o h => ?_) _ hm
    split
    · dsimp only
      rw [MemOk, State.bumpLo_mem]
      exact s.setAcc_memOk _ _ _ _ _ h
    · exact h

@[simp] theorem State.outerStep_mem (s : State) (c : Core) (a : Arr) (nc : NumCtl) (isInt : Bool) (f32mode : Bool) (bF32 : Bool)
    (re : BitVec 64) (ce : BitVec 64) (pairs : List OuterPair) : (s.outerStep c a nc isInt f32mode bF32 re ce pairs).mem = s.mem := by
  simp [State.outerStep]

@[simp] theorem State.runExport_memOk (s : State) (c : Core) (a : Arr) (nc : NumCtl) (t : ℕ) (add : Bool) (hm : MemOk s) :
    MemOk (s.runExport c a nc t add) := by
  refine foldl_memOk (fun s i h => ?_) _ (memOk_of_mem_eq (by simp) hm)
  dsimp only
  rw [MemOk, State.bumpLo_mem]
  exact s.setAcc_memOk _ _ _ _ _ h

/-- The clear of rows as an equation of functions: the kernel then compares terms and does not evaluate the write. -/
theorem State.runClear_def : @State.runClear =
    fun s c a row n => ((s.portConflicts c).accWrite c (accAddr c a.val row 0) (padTo (256 * n) [])).2 := rfl

theorem State.runClear_eq (s : State) (c : Core) (a : Arr) (row n : ℕ) :
    s.runClear c a row n = ((s.portConflicts c).accWrite c (accAddr c a.val row 0) (padTo (256 * n) [])).2 := by
  rw [State.runClear_def]

@[simp] theorem State.runClear_memOk (s : State) (c : Core) (a : Arr) (row : ℕ) (n : ℕ) (hm : MemOk s) : MemOk (s.runClear c a row n) := by
  rw [State.runClear_eq]
  exact State.accWrite_memOk _ _ _ _ (memOk_of_mem_eq (s.portConflicts_mem c) hm)

theorem moveRows_memOk (f : ℕ → State → Bool × State) (n : ℕ) {s : State} (hf : ∀ i t r, MemOk t → f i t = r → MemOk r.2) (hm : MemOk s) :
    MemOk (moveRows f n s).2 :=
  foldl_snd_memOk (r := (false, s)) (fun r i h => by split; exacts [h, hf i r.2 _ h rfl]) _ hm

@[simp] theorem State.countMove_mem (s : State) (n : ℕ) (d : Desc) : (s.countMove n d).mem = s.mem := by simp [State.countMove]

@[simp] theorem State.runSave_memOk (s : State) (c : Core) (a : Arr) (t : ℕ) (n : ℕ) (d : Desc) (hm : MemOk s) :
    MemOk (s.runSave c a t n d).2 := by
  unfold State.runSave
  refine moveRows_memOk _ _ (fun r u x h hx => ?_) (memOk_of_mem_eq ((State.countMove_mem _ _ _).trans (s.portWaits_mem c)) hm)
  have hr : MemOk (u.accRead c 3 (accAddr c a.val (64 * t + r) 0) 256).2 := memOk_of_mem_eq (State.accRead_mem _ _ _ _ _) h
  split at hx
  · next ht => subst hx; exact foldl_memOk (fun s w h => s.put_memOk _ _ _ h) _ (memOk_of_eq ht hr)
  · next ht => subst hx; exact memOk_of_eq ht hr

@[simp] theorem State.runRestore_memOk (s : State) (c : Core) (a : Arr) (t : ℕ) (n : ℕ) (d : Desc) (texp : ℤ) (hm : MemOk s) :
    MemOk (s.runRestore c a t n d texp).2 := by
  unfold State.runRestore
  refine moveRows_memOk _ _ (fun r u x h hx => ?_) (memOk_of_mem_eq ((State.countMove_mem _ _ _).trans (s.portConflicts_mem c)) hm)
  extract_lets addrs rd bs at hx
  have hr : MemOk rd.2 := memOk_of_mem_eq (u.readWords_mem _ _) h
  split at hx
  · obtain ⟨b, t⟩ := x
    rw [Prod.mk.injEq] at hx
    change MemOk t
    rw [← hx.2]
    exact rd.2.accWrite_memOk _ _ _ hr
  · rw [← hx]
    exact hr

@[simp] theorem State.runArrOp_memOk (s : State) (c : Core) (a : Arr) (o : ArrOp) (hm : MemOk s) : MemOk (s.runArrOp c a o).2 := by
  unfold State.runArrOp
  dsimp only
  (repeat' split) <;> simp [MemOk, hm]

@[simp] theorem State.stopArr_mem (s : State) (c : Core) (a : Arr) : (s.stopArr c a).mem = s.mem := rfl

@[simp] theorem State.arrAdvance_memOk (s : State) (c : Core) (a : Arr) (fuel : ℕ) (hm : MemOk s) : MemOk (s.arrAdvance c a fuel) := by
  induction fuel generalizing s with
  | zero => exact hm
  | succ fuel ih =>
    unfold State.arrAdvance
    extract_lets x
    split
    · exact hm
    · split
      · exact hm
      · next o rest _ =>
        split
        · split
          · exact hm
          · split
            · exact ih _ (by simp [MemOk, hm])
            · exact hm
            · exact hm
        · extract_lets r
          have hr : MemOk r.2 := State.runArrOp_memOk _ _ _ _ hm
          split
          · simp [MemOk, hr]
          · exact ih _ hr

@[simp] theorem State.arrEnqueue_memOk (s : State) (c : Core) (a : Arr) (o : ArrOp) (hm : MemOk s) : MemOk (s.arrEnqueue c a o) := by
  simp [State.arrEnqueue, MemOk, hm]

@[simp] theorem State.readSrcs_mem (s : State) (c : Core) (layout : ℕ) (l : List LoadSrc) : (s.readSrcs c layout l).2.2.mem = s.mem := by
  induction l generalizing s with
  | nil => rfl
  | cons l ls ih =>
    unfold State.readSrcs
    split
    · simp [ih]
    · dsimp only
      rw [ih]
      split <;> simp

/-! ### Feeder -/

@[simp] theorem State.feedReject_mem (s : State) (c : Core) : (s.feedReject c).mem = s.mem := by simp [State.feedReject]

@[simp] theorem State.closeTime_mem (s : State) (c : Core) (g : Ctx) : (s.closeTime c g).mem = s.mem := by
  unfold State.closeTime
  dsimp only
  split <;> simp

@[simp] theorem State.closeDue_mem (s : State) (c : Core) (g : Ctx) : (s.closeDue c g).mem = s.mem := by
  unfold State.closeDue
  dsimp only
  split <;> simp

@[simp] theorem State.reservePlace_mem (s : State) (c : Core) (g : Ctx) : (s.reservePlace c g).2.mem = s.mem := by
  unfold State.reservePlace
  dsimp only
  (repeat' split) <;> simp

@[simp] theorem State.presentPlace_mem (s : State) (c : Core) (g : Ctx) (f : ℕ) (i : ℕ) : (s.presentPlace c g f i).mem = s.mem := rfl

@[simp] theorem State.releaseFill_mem (s : State) (c : Core) (g : Ctx) (f : ℕ) : (s.releaseFill c g f).mem = s.mem := by
  simp [State.releaseFill]

@[simp] theorem State.fgctxWrite_mem (s : State) (c : Core) (g : Ctx) (v : W64) : (s.fgctxWrite c g v).mem = s.mem := by
  simp [State.fgctxWrite]

@[simp] theorem State.expireFill_mem (s : State) (c : Core) (g : Ctx) (f : ℕ) : (s.expireFill c g f).mem = s.mem := by
  simp [State.expireFill]

@[simp] theorem State.feedCount_mem (s : State) (c : Core) (who : ℕ) (src : FeedSrc) (rows : List ℕ) (n : ℕ) :
    (s.feedCount c who src rows n).2.mem = s.mem := by
  simp [State.feedCount]

@[simp] theorem State.colCount_mem (s : State) (c : Core) (d : Desc) (row : ℕ) (n : ℕ) : (s.colCount c d row n).2.mem = s.mem := by
  unfold State.colCount
  (repeat' split) <;> simp

theorem State.outerGroups_mem (s : State) (c : Core) (a : Arr) (nc : NumCtl) (isInt fm bF : Bool) (re ce : BitVec 64)
    (l : List (List OuterPair)) :
    (l.foldl (fun s g => s.outerStep c a nc isInt fm bF re ce g) s).mem = s.mem := by
  refine foldl_mem_of_eq (fun t g u hu => ?_) _ s
  rw [← hu, State.outerStep_mem]

theorem State.runPass_memOk (s s0 : State) (c : Core) (a : Arr) (o : ArrOp) (f : FeedJob) (len : ℕ) (hm : MemOk s) :
    MemOk (s.runPass s0 c a o f len) := by
  generalize hf : @State.runPass = F
  delta State.runPass at hf
  have ht := congrFun (congrFun (congrFun (congrFun (congrFun (congrFun (congrFun hf s) s0) c) a) o) f) len
  clear hf
  generalize F s s0 c a o f len = t at ht ⊢
  cases hk : o.kind <;> rw [hk] at ht
  case pass mode next accm base v re ce cd crow texp =>
    dsimp -zeta only at ht
    extract_lets +onlyGivenNames x ft rows at ht
    refine ite_elim ht (fun ht => ?_) (fun ht => ite_elim ht (fun ht => ?_) (fun ht => ?_))
    · rw [← ht, MemOk, State.arrReject_mem]; exact hm
    · extract_lets +onlyGivenNames cols cts at ht
      split at ht
      · rw [← ht, MemOk, State.raise_mem]; exact hm
      · extract_lets fm four u s1 pairs groups s2 at ht
        refine ite_elim ht (fun ht => ?_) (fun ht => ?_)
        · rw [← ht, MemOk, State.stopArr_mem, State.colCount_mem]; exact hm
        · rw [← ht, MemOk, State.guardDone_mem, State.bumpLo_mem, State.outerGroups_mem, State.setArr_mem, State.colCount_mem]
          exact hm
    · extract_lets +onlyGivenNames x1 x2 p at ht
      split at ht
      · rw [← ht, MemOk, State.raise_mem]; exact hm
      · extract_lets +onlyGivenNames fm n s1 at ht
        have h1 : MemOk s1 := hm
        clear_value s1
        refine ite_elim ht (fun ht => ?_) (fun ht => ite_elim ht (fun ht => ?_) (fun ht => ?_))
        · extract_lets x3 s2 s3 s4 at ht
          have h3 : MemOk s3 := by
            refine foldl_memOk_of_eq (fun t g u h hu => ?_) _ h1
            rw [← hu]
            refine foldl_memOk_of_eq (fun t g u h hu => ?_) _ h
            rw [← hu]
            exact State.vecToRow_memOk _ _ _ _ _ _ _ _ _ _ _ _ _ _ _ _ h
          clear_value s3
          rw [← ht, MemOk, State.guardDone_mem, State.bumpLo_mem, State.bumpLo_mem]
          exact h3
        · extract_lets s5 at ht
          have h5 : MemOk s5 := by
            refine foldl_memOk_of_eq (fun t g u h hu => ?_) _ h1
            dsimp only at hu
            rw [← hu]
            exact State.vecToRow_memOk _ _ _ _ _ _ _ _ _ _ _ _ _ _ _ _ (State.vecToRow_memOk _ _ _ _ _ _ _ _ _ _ _ _ _ _ _ _ h)
          clear_value s5
          rw [← ht, MemOk, State.guardDone_mem, State.bumpLo_mem]
          exact h5
        · extract_lets s6 at ht
          have h6 : MemOk s6 := by
            refine foldl_memOk_of_eq (fun t g u h hu => ?_) _ h1
            rw [← hu]
            exact State.vecToRow_memOk _ _ _ _ _ _ _ _ _ _ _ _ _ _ _ _ h
          clear_value s6
          rw [← ht, MemOk, State.guardDone_mem, State.bumpLo_mem]
          exact h6
  all_goals exact ht ▸ hm

@[simp] theorem State.dropMember_mem (s : State) (c : Core) (m : Member) : (s.dropMember c m).mem = s.mem := by
  unfold State.dropMember
  split <;> simp

@[simp] theorem State.stopFeed_mem (s : State) (c : Core) (fd : Arr) (members : ℕ) : (s.stopFeed c fd members).mem = s.mem := by
  simp [State.stopFeed]

@[simp] theorem State.runFeed_memOk (s : State) (c : Core) (fd : Arr) (f : FeedJob) (starve : ℕ) (hm : MemOk s) :
    MemOk (s.runFeed c fd f starve) := by
  generalize hf : @State.runFeed = F
  delta State.runFeed at hf
  have ht := congrFun (congrFun (congrFun (congrFun (congrFun hf s) c) fd) f) starve
  clear hf
  generalize F s c fd f starve = t at ht ⊢
  extract_lets ms s1 len r s2 s3 s4 at ht
  have h2 : MemOk s2 := by
    rw [MemOk, State.bumpLo_mem, State.feedCount_mem, State.onCore_mem]
    exact hm
  clear_value s2
  have h3 : MemOk s3 := by
    refine foldl_memOk_of_eq (fun t m u h hu => ?_) _ h2
    have hd : MemOk (t.dropMember c m) := by
      rw [MemOk, State.dropMember_mem]
      exact h
    cases m with
    | run a o => exact hu ▸ State.runPass_memOk _ _ _ _ _ _ _ hd
    | out a => exact hu ▸ hd
    | wait => exact hu ▸ hd
  clear_value s3
  have h4 : MemOk s4 := by
    refine foldl_memOk_of_eq (fun t m u h hu => ?_) _ h3
    cases m with
    | run a o => exact hu ▸ State.arrAdvance_memOk _ _ _ _ h
    | out a => exact hu ▸ h
    | wait => exact hu ▸ h
  clear_value s4
  refine ite_elim ht (fun ht => ?_) (fun ht => ?_)
  · rw [← ht, MemOk, State.stopFeed_mem]
    exact h2
  · rw [← ht, MemOk, State.guardDone_mem]
    exact h4

/-! ### Issue -/

/-- What handing a step to its unit gives has its memory in canonical form. -/
def Issue.Formed : Issue → Prop
  | .ok t => MemOk t
  | .wait _ t => MemOk t
  | .hold _ _ => True
  | .bad _ => True

theorem Issue.formed_ite {p : Prop} [Decidable p] {a b : Issue} (ha : a.Formed) (hb : b.Formed) : (if p then a else b).Formed := by
  split
  · exact ha
  · exact hb

theorem Issue.formed_of_mem_eq {s t : State} (h : t.mem = s.mem) (hm : MemOk s) : (Issue.ok t).Formed := memOk_of_mem_eq h hm

@[simp] theorem State.badType_mem (s : State) (c : Core) (block : ℕ) : (s.badType c block).mem = s.mem := by simp [State.badType]

@[simp] theorem State.scaleReads_mem (s : State) (c : Core) (ds : List Desc) : (s.scaleReads c ds).2.mem = s.mem :=
  (s.scaleReads_recorded c ds).mem

/-- A step whose scale words are read first: its unit's part decides. -/
theorem State.readScales_formed {s : State} (c : Core) (block : ℕ) (ds : List Desc) {k : State → Issue} {drop : State → State}
    (hk : ∀ t, MemOk t → (k t).Formed) (hd : ∀ t, MemOk t → MemOk (drop t)) (hm : MemOk s) : (s.readScales c block ds k drop).Formed := by
  have hr : MemOk (s.scaleReads c ds).2 := memOk_of_mem_eq (s.scaleReads_mem c ds) hm
  unfold State.readScales
  dsimp only
  split
  · exact hd _ (memOk_of_mem_eq (State.readFault_mem _ _) hr)
  · split
    · exact hd _ (memOk_of_mem_eq (State.badType_mem _ _ _) hr)
    · exact hk _ hr

@[simp] theorem State.loadHdrs_mem (s : State) (c : Core) (d : Desc) (lay : ℕ) (i : ℕ) (j : ℕ) (texp : ℤ) :
    (s.loadHdrs c d lay i j texp).2.2.mem = s.mem := by
  simp [State.loadHdrs]

theorem State.operandBad_mem {s : State} {c : Core} {block : ℕ} {d : Desc} {turn : Bool} {t : State}
    (ht : s.operandBad c block d turn = some t) : t.mem = s.mem := by
  unfold State.operandBad at ht
  split at ht <;> simp at ht
  all_goals subst ht; simp

@[simp] theorem State.loadEnqueue_mem (s : State) (c : Core) (a : Arr) (lay : ℕ) (g : Guard) (srcs : List LoadSrc) :
    (s.loadEnqueue c a lay g srcs).mem = s.mem :=
  rfl

theorem issueLoad_formed (c : Core) (w : StepWord) (s : State) (hm : MemOk s) : (issueLoad c w s).Formed := by
  unfold issueLoad
  split
  · trivial
  · dsimp only
    split
    · trivial
    · split
      · trivial
      · split
        · next h => exact Issue.formed_of_mem_eq (State.operandBad_mem h) hm
        · refine State.readScales_formed _ _ _ (fun t ht => ?_) (fun t ht => ht) hm
          split
          · split
            · exact Issue.formed_of_mem_eq ((State.stopArr_mem _ _ _).trans (t.loadHdrs_mem _ _ _ _ _ _)) ht
            · split
              · exact Issue.formed_of_mem_eq ((State.arrReject_mem _ _ _ _).trans (t.loadHdrs_mem _ _ _ _ _ _)) ht
              · exact Issue.formed_of_mem_eq ((State.loadEnqueue_mem _ _ _ _ _ _).trans (t.loadHdrs_mem _ _ _ _ _ _)) ht
          · split
            · exact Issue.formed_of_mem_eq (State.arrReject_mem _ _ _ _) ht
            · exact Issue.formed_of_mem_eq (State.loadEnqueue_mem _ _ _ _ _ _) ht

@[simp] theorem State.passGone_mem (c : Core) (a : Arr) (n : ℕ) (s : State) : (State.passGone c a n s).mem = s.mem := rfl

theorem issuePass_formed (c : Core) (w : StepWord) (s : State) (hm : MemOk s) : (issuePass c w s).Formed := by
  unfold issuePass
  split
  · trivial
  · dsimp only
    split
    · trivial
    · split
      · trivial
      · split
        · next h =>
          refine Issue.formed_of_mem_eq ((State.passGone_mem _ _ _ _).trans ?_) hm
          split at h
          · exact State.operandBad_mem h
          · simp at h
        · exact State.readScales_formed _ _ _ (fun t ht => State.arrEnqueue_memOk _ _ _ _ ht)
            (fun t ht => memOk_of_mem_eq (State.passGone_mem _ _ _ _) ht) hm

@[simp] theorem State.feedEnqueue_mem (s : State) (c : Core) (fd : Arr) (j : FeedJob) : (s.feedEnqueue c fd j).mem = s.mem := rfl

theorem issueFeed_formed (c : Core) (w : StepWord) (s : State) (hm : MemOk s) : (issueFeed c w s).Formed := by
  have hr : (Issue.ok (s.feedReject c)).Formed := Issue.formed_of_mem_eq (s.feedReject_mem c) hm
  unfold issueFeed
  dsimp only
  split
  · exact hr
  · split
    · exact hr
    · split
      · trivial
      · split
        · split
          · exact hr
          · split
            · next h => exact Issue.formed_of_mem_eq (State.operandBad_mem h) hm
            · exact State.readScales_formed _ _ _ (fun t ht => Issue.formed_of_mem_eq (State.feedEnqueue_mem _ _ _ _) ht)
                (fun t ht => ht) hm
        · have hu (who a : ℕ) : MemOk (s.readCheck who a).2 := memOk_of_mem_eq (s.readCheck_mem who a) hm
          split
          · exact Issue.formed_of_mem_eq (State.readFault_mem _ _) (hu _ _)
          · split
            · split
              · exact Issue.formed_of_mem_eq (State.badType_mem _ _ _) (hu _ _)
              · split
                · exact Issue.formed_of_mem_eq (State.panReject_mem _ _ _) (hu _ _)
                · exact Issue.formed_of_mem_eq (State.feedEnqueue_mem _ _ _ _) (hu _ _)
            · exact Issue.formed_of_mem_eq (State.feedReject_mem _ _) (hu _ _)
        · exact Issue.formed_of_mem_eq (State.feedEnqueue_mem _ _ _ _) hm

theorem issueExport_formed (c : Core) (w : StepWord) (s : State) (hm : MemOk s) : (issueExport c w s).Formed := by
  unfold issueExport
  split
  · trivial
  · split
    · trivial
    · exact State.arrEnqueue_memOk _ _ _ _ hm

theorem issueAclr_formed (c : Core) (w : StepWord) (s : State) (hm : MemOk s) : (issueAclr c w s).Formed := by
  unfold issueAclr
  split
  · trivial
  · split
    · exact Issue.formed_of_mem_eq (State.arrReject_mem _ _ _ _) hm
    · split
      · trivial
      · exact State.arrEnqueue_memOk _ _ _ _ hm

theorem issueMove_formed (c : Core) (w : StepWord) (k : ℕ → ℕ → Desc → ℤ → ArrKind) (s : State) (hm : MemOk s) :
    (issueMove c w k s).Formed := by
  unfold issueMove
  split
  · trivial
  · dsimp only
    split
    · exact Issue.formed_of_mem_eq (State.arrReject_mem _ _ _ _) hm
    · split
      · exact Issue.formed_of_mem_eq (State.badType_mem _ _ _) hm
      · exact Issue.formed_of_mem_eq (State.panReject_mem _ _ _) hm
      · split
        · trivial
        · exact State.readScales_formed _ _ _ (fun t ht => State.arrEnqueue_memOk _ _ _ _ ht) (fun t ht => ht) hm

theorem issueFres_formed (c : Core) (w : StepWord) (s : State) (hm : MemOk s) : (issueFres c w s).Formed := by
  unfold issueFres
  dsimp only
  split
  · next h => exact Issue.formed_of_mem_eq ((State.onSeq_mem _ _ _).trans (mem_of_eq h (s.reservePlace_mem c _))) hm
  · next h => exact Issue.formed_of_mem_eq ((State.onSeq_mem _ _ _).trans (mem_of_eq h (s.reservePlace_mem c _))) hm

theorem issueFpres_formed (c : Core) (w : StepWord) (s : State) (hm : MemOk s) : (issueFpres c w s).Formed := by
  unfold issueFpres
  dsimp only
  split
  · exact Issue.formed_of_mem_eq (State.presentPlace_mem _ _ _ _ _) hm
  · exact Issue.formed_of_mem_eq (State.feedReject_mem _ _) hm

end Sys2Proof.Machine
end

section
/-! The form of memory (O5): the sieve engine and the belay chain. -/
namespace Sys2Proof.Machine

/-! ### Sieve -/

@[simp] theorem State.countPanel_mem (s : State) (c : Core) (d : Desc) (turn : Bool) (r0 : ℕ) (n : ℕ) (e0 : ℕ) (m : ℕ) :
    (s.countPanel c d turn r0 n e0 m).2.mem = s.mem := by
  unfold State.countPanel
  split <;> simp

@[simp] theorem State.resAdd_mem (s : State) (c : Core) (l : List (ℕ × Addend)) : (s.resAdd c l).mem = s.mem := rfl

@[simp] theorem State.settleAdds_mem (s : State) (c : Core) (which : ℕ → Bool) : (s.settleAdds c which).mem = s.mem := by
  simp [State.settleAdds]

@[simp] theorem State.clearResults_mem (s : State) (c : Core) (t : ℕ) (n : ℕ) : (s.clearResults c t n).mem = s.mem := by
  simp [State.clearResults]

@[simp] theorem State.sievePut_memOk (s : State) (a : ℕ) (bs : List Byte) (hm : MemOk s) : MemOk (s.sievePut a bs) := by
  simp [State.sievePut, MemOk, hm]

@[simp] theorem State.drainTile_memOk (s : State) (c : Core) (t : ℕ) (d : Desc) (row : ℕ) (hm : MemOk s) :
    MemOk (s.drainTile c t d row) := by
  refine foldl_memOk (fun s r h => ?_) _ (memOk_of_mem_eq (s.settleAdds_mem c _) hm)
  split
  · exact foldl_memOk (fun s w h => s.sievePut_memOk _ _ h) _ h
  · simp [MemOk, h]

@[simp] theorem State.stopSieve_mem (s : State) (c : Core) : (s.stopSieve c).mem = s.mem := rfl

@[simp] theorem State.sieveDone_mem (s : State) (c : Core) (j : SieveJob) : (s.sieveDone c j).mem = s.mem := by simp [State.sieveDone]

@[simp] theorem State.runSpmm_mem (s : State) (c : Core) (j : SieveJob) (hdr : Option Hdr) (addr : ℕ) (ea : ℤ) (panel : Desc) (eb : ℤ)
    (k0 : ℕ) (m : ℕ) (res : ℕ) (transposed : Bool) (along : Bool) (turn : Bool) :
    (s.runSpmm c j hdr addr ea panel eb k0 m res transposed along turn).mem = s.mem := by
  unfold State.runSpmm
  dsimp only
  (repeat' split) <;> simp

@[simp] theorem State.mergeFill_mem (s : State) (c : Core) : (s.mergeFill c).mem = s.mem := by
  unfold State.mergeFill
  dsimp only
  (repeat' split) <;> simp

@[simp] theorem State.mergeOpen_mem (s : State) (c : Core) (g : Guard) (ms : List MergeTile) : (s.mergeOpen c g ms).mem = s.mem := by
  simp [State.mergeOpen]

@[simp] theorem State.closeMerge_memOk (s : State) (c : Core) (m : MergeTile) (hm : MemOk s) : MemOk (s.closeMerge c m) := by
  simp [State.closeMerge, MemOk, hm]

@[simp] theorem State.runSddmm_mem (s : State) (c : Core) (j : SieveJob) (w : StepWord) (mask : Desc) (a : Desc) (b : Desc) (out : Desc)
    (em : ℤ) (ea : ℤ) (eb : ℤ) (xa : ℕ) (xb : ℕ) : (s.runSddmm c j w mask a b out em ea eb xa xb).mem = s.mem := by
  unfold State.runSddmm
  extract_lets pt mul len n side maddr ats bts u r p
  have hu : u.2.2.mem = s.mem := by simp [u]
  have hp : p.2.mem = s.mem := by simp [p, r, hu, apply_ite Prod.snd]
  split
  · simp [hu, hp]
  · simp

@[simp] theorem State.sieveTile_mem (s : State) (c : Core) (keys : Bool) (d : Desc) (texp : ℤ) (i : ℕ) (k : ℕ) :
    (s.sieveTile c keys d texp i k).2.2.mem = s.mem := by
  unfold State.sieveTile
  dsimp only
  split <;> simp

@[simp] theorem State.sieveTiles_mem (s : State) (c : Core) (keys : Bool) (d : Desc) (texp : ℤ) (l : List (ℕ × ℕ)) :
    (s.sieveTiles c keys d texp l).2.2.mem = s.mem := by
  induction l generalizing s with
  | nil => rfl
  | cons p ps ih => exact (ih _).trans (s.sieveTile_mem c keys d texp p.1 p.2)

@[simp] theorem State.runSpgemm_mem (s : State) (c : Core) (j : SieveJob) (w : StepWord) (ta : Desc) (tb : Desc) (tc : Desc) (ea : ℤ)
    (eb : ℤ) (xa : ℕ) (xb : ℕ) : (s.runSpgemm c j w ta tb tc ea eb xa xb).mem = s.mem := by
  unfold State.runSpgemm
  dsimp only
  split <;> simp

@[simp] theorem State.runIntersect_mem (s : State) (c : Core) (j : SieveJob) (ta : Desc) (tb : Desc) (ea : ℤ) (eb : ℤ) (xa : ℕ) (xb : ℕ)
    (res : ℕ) : (s.runIntersect c j ta tb ea eb xa xb res).mem = s.mem := by
  unfold State.runIntersect
  dsimp only
  split <;> simp

@[simp] theorem State.runSort_memOk (s : State) (c : Core) (j : SieveJob) (w : StepWord) (ta : Desc) (tc : Desc) (ea : ℤ) (xa : ℕ)
    (xb : ℕ) (len : ℕ) (hm : MemOk s) : MemOk (s.runSort c j w ta tc ea xa xb len) := by
  unfold State.runSort
  extract_lets r j0 tiles src x
  split
  · simp [MemOk, hm]
  · extract_lets es ranked out ws y u s1
    have hu : MemOk u.2 := by simp only [u]; split <;> simp [x, y, MemOk, hm]
    split
    · simp [MemOk, hu]
    · have h1 : MemOk s1 := by
        simp only [s1]
        split
        · exact foldl_memOk (fun t p h => t.sievePut_memOk _ _ h) _ hu
        · simp [MemOk, hu]
      exact memOk_of_mem_eq (s1.sieveDone_mem c j) h1

@[simp] theorem State.runSieveJob_memOk (s : State) (c : Core) (j : SieveJob) (hm : MemOk s) : MemOk (s.runSieveJob c j) := by
  unfold State.runSieveJob
  split <;> simp [MemOk, hm]

theorem State.dispFeed_memOk {s : State} {c : Core} {d : DispSt} {t : State} (hm : MemOk s) (ht : s.dispFeed c d = some t) : MemOk t := by
  unfold State.dispFeed at ht
  split at ht
  · dsimp only at ht
    split at ht
    · simp at ht; exact ht ▸ hm
    · split at ht
      · simp at ht
      · simp only [Option.some.injEq] at ht
        subst ht
        rw [MemOk, State.onCore_mem]
        refine foldl_memOk (fun s r h => ?_) _ hm
        split
        · exact State.arrEnqueue_memOk _ _ _ _ h
        · exact h
  · simp at ht; exact ht ▸ hm

/-- The state that a step of the dispatcher leaves has its memory in canonical form. -/
def DispOut.Ok : DispOut → Prop
  | .held => True
  | .go s _ => MemOk s
  | .done s => MemOk s
  | .stopped s => MemOk s

theorem State.dispStep_memOk (s : State) (c : Core) (d : DispSt) (hm : MemOk s) : (s.dispStep c d).Ok := by
  generalize hf : @State.dispStep = F
  delta State.dispStep at hf
  have ht := congrFun (congrFun (congrFun hf s) c) d
  clear hf
  generalize F s c d = out at ht ⊢
  cases hk : d.job.kind <;> rw [hk] at ht
  case disp w ta tb xa kc xc nblk ea eb =>
    dsimp -zeta only at ht
    extract_lets +onlyGivenNames ms m v at ht
    refine ite_elim ht (fun ht => ite_elim ht (fun ht => ?_) (fun ht => ?_))
      (fun ht => ite_elim ht (fun ht => ?_) (fun ht => ite_elim ht (fun ht => ?_) (fun ht => ?_)))
    · exact ht ▸ hm
    · split at ht
      · exact ht ▸ hm
      · refine ite_elim ht (fun ht => ht ▸ hm) (fun ht => ite_elim ht (fun ht => ht ▸ trivial) (fun ht => ?_))
        rw [← ht]
        exact State.arrEnqueue_memOk _ _ _ _ hm
    · split at ht
      · next hd => exact ht ▸ State.dispFeed_memOk hm hd
      · exact ht ▸ trivial
    · exact ht ▸ hm
    · extract_lets +onlyGivenNames addr next u at ht
      have hu : MemOk u.2.2 := by
        rw [MemOk, State.useHdr_mem]
        exact hm
      clear_value u
      refine ite_elim ht (fun ht => ?_) (fun ht => ?_)
      · rw [← ht]
        change MemOk _
        rw [MemOk, State.stopSieve_mem]
        exact hu
      · have hb : MemOk (u.2.2.bumpLo (rSieveCnt c 3) 1) := by
          rw [MemOk, State.bumpLo_mem]
          exact hu
        split at ht
        · split at ht
          · extract_lets x job at ht
            refine ite_elim ht (fun ht => ht ▸ hu) (fun ht => ite_elim ht (fun ht => ht ▸ trivial) (fun ht => ?_))
            rw [← ht]
            change MemOk _
            rw [MemOk, State.setArr_mem]
            exact hu
          · refine ite_elim ht (fun ht => ht ▸ trivial) (fun ht => ?_)
            extract_lets s1 q jobs at ht
            rw [← ht]
            change MemOk _
            rw [MemOk, State.setSieve_mem, State.bumpHi_mem]
            exact hu
          · exact ht ▸ hb
        · exact ht ▸ hb
        · exact ht ▸ hu
  all_goals exact ht ▸ hm

@[simp] theorem State.dispRun_memOk (s : State) (c : Core) (d : DispSt) (n : ℕ) (hm : MemOk s) : MemOk (s.dispRun c d n) := by
  induction n generalizing s d with
  | zero => exact hm
  | succ n ih =>
    have hd := s.dispStep_memOk c d hm
    unfold State.dispRun
    generalize s.dispStep c d = out at hd ⊢
    cases out with
    | held => exact hm
    | go t d' => exact ih t d' hd
    | done t => exact hd
    | stopped t => exact hd

@[simp] theorem State.dispStart_memOk (s : State) (c : Core) (j : SieveJob) (hm : MemOk s) : MemOk (s.dispStart c j) := by
  unfold State.dispStart
  split <;> simp [MemOk, hm]

@[simp] theorem State.dispSettle_mem (s : State) (c : Core) : (s.dispSettle c).mem = s.mem := by
  unfold State.dispSettle
  dsimp only
  split <;> simp

@[simp] theorem State.sieveRest_mem (s : State) (c : Core) : (s.sieveRest c).mem = s.mem := by simp [State.sieveRest]

@[simp] theorem State.sieveAdvance_memOk (s : State) (c : Core) (n : ℕ) (hm : MemOk s) : MemOk (s.sieveAdvance c n) := by
  induction n generalizing s with
  | zero => exact hm
  | succ n ih =>
    have hr : MemOk (s.sieveRest c) := by
      rw [MemOk, State.sieveRest_mem]
      exact hm
    unfold State.sieveAdvance
    dsimp only
    split
    · exact hr
    · split
      · exact hm
      · split
        · exact ih _ (State.runSieveJob_memOk _ _ _ hm)
        · exact ih _ (State.runSieveJob_memOk _ _ _ hm)
        · exact ih _ (State.dispStart_memOk _ _ _ hm)
        · exact hr

@[simp] theorem State.dispReject_mem (s : State) (c : Core) : (s.dispReject c).mem = s.mem := by simp [State.dispReject]

@[simp] theorem State.sieveAdd_memOk (s : State) (c : Core) (w : StepWord) (k : SieveKind) (hm : MemOk s) : MemOk (s.sieveAdd c w k) := by
  simp [State.sieveAdd, MemOk, hm]

theorem State.sieveEnqueue_formed (s : State) (c : Core) (w : StepWord) (ds : List Desc) (k : SieveKind) (hm : MemOk s) :
    (s.sieveEnqueue c w ds k).Formed := by
  unfold State.sieveEnqueue
  dsimp only
  split
  · trivial
  · exact State.readScales_formed _ _ _ (fun t ht => State.sieveAdd_memOk _ _ _ _ ht) (fun t ht => ht) hm

theorem State.tilesRefused_mem {s : State} {c : Core} {d : Desc} {t : State} (ht : s.tilesRefused c d = some t) : t.mem = s.mem := by
  simp only [State.tilesRefused, Option.map_eq_some_iff] at ht
  obtain ⟨_, _, rfl⟩ := ht
  simp

theorem State.outRefused_mem {s : State} {c : Core} {d : Desc} {t : State} (ht : s.outRefused c d = some t) : t.mem = s.mem := by
  unfold State.outRefused at ht
  split at ht
  · simp at ht; subst ht; simp
  · exact State.tilesRefused_mem ht

theorem State.panelRefused_mem {s : State} {c : Core} {d : Desc} {turn : Bool} {n : ℕ} {t : State}
    (ht : s.panelRefused c d turn n = some t) : t.mem = s.mem := by
  unfold State.panelRefused at ht
  split at ht
  · next h => exact State.operandBad_mem (h.trans ht)
  · split at ht <;> simp at ht
    subst ht; simp

theorem firstRefusal_mem {l : List (Option State)} {s t : State} (hl : ∀ u ∈ l, ∀ t ∈ u, t.mem = s.mem) (ht : firstRefusal l = some t) :
    t.mem = s.mem := by
  have h := List.mem_of_mem_head? ht
  simp only [List.mem_filterMap, id_eq, exists_eq_right] at h
  exact hl _ h t rfl

theorem State.dispRefusal_mem {s : State} {c : Core} {w : StepWord} {t : State} (ht : s.dispRefusal c w = some t) : t.mem = s.mem := by
  unfold State.dispRefusal at ht
  dsimp only at ht
  split at ht
  · simp at ht; subst ht; simp
  · split at ht <;> simp at ht
    subst ht; simp

theorem issueDisp_formed (c : Core) (w : StepWord) (s : State) (hm : MemOk s) : (issueDisp c w s).Formed := by
  unfold issueDisp
  dsimp only
  split
  · next h => exact Issue.formed_of_mem_eq (State.dispRefusal_mem h) hm
  · split
    · next h =>
      refine Issue.formed_of_mem_eq (firstRefusal_mem (fun u hu t ht => ?_) h) hm
      simp only [List.mem_cons, List.not_mem_nil, or_false] at hu
      rcases hu with rfl | rfl
      · exact State.tilesRefused_mem ht
      · exact State.operandBad_mem ht
    · exact State.sieveEnqueue_formed _ _ _ _ _ hm

theorem State.sopRefusal_mem {s : State} {c : Core} {w : StepWord} {t : State} (ht : s.sopRefusal c w = some t) : t.mem = s.mem := by
  refine firstRefusal_mem (fun u hu v hv => ?_) ht
  have hall : (∃ d, u = s.tilesRefused c d) ∨ (∃ d p n, u = s.panelRefused c d p n) ∨ (∃ d, u = s.outRefused c d)
      ∨ ∃ d p, u = s.operandBad c 3 d p := by
    split at hu <;> simp only [List.mem_cons, List.not_mem_nil, or_false] at hu <;> grind
  obtain ⟨d, rfl⟩ | ⟨d, p, n, rfl⟩ | ⟨d, rfl⟩ | ⟨d, p, rfl⟩ := hall
  · exact State.tilesRefused_mem hv
  · exact State.panelRefused_mem hv
  · exact State.outRefused_mem hv
  · exact State.operandBad_mem hv

theorem issueSop_formed (c : Core) (w : StepWord) (s : State) (hm : MemOk s) : (issueSop c w s).Formed := by
  unfold issueSop
  split
  · trivial
  · split
    · next h => exact Issue.formed_of_mem_eq (State.sopRefusal_mem h) hm
    · exact State.sieveEnqueue_formed _ _ _ _ _ hm

theorem issueSdrain_formed (c : Core) (w : StepWord) (s : State) (hm : MemOk s) : (issueSdrain c w s).Formed := by
  unfold issueSdrain
  dsimp only
  split
  · exact Issue.formed_of_mem_eq (State.badType_mem _ _ _) hm
  · split
    · exact Issue.formed_of_mem_eq (State.panReject_mem _ _ _) hm
    · exact State.sieveEnqueue_formed _ _ _ _ _ hm

theorem issueSclr_formed (c : Core) (w : StepWord) (s : State) (hm : MemOk s) : (issueSclr c w s).Formed := by
  unfold issueSclr
  split
  · exact Issue.formed_of_mem_eq (State.dispReject_mem _ _) hm
  · exact State.sieveEnqueue_formed _ _ _ _ _ hm

/-! ### Belay -/

@[simp] theorem State.belayReject_mem (s : State) (c : Core) : (s.belayReject c).mem = s.mem := by simp [State.belayReject]

@[simp] theorem State.dropRows_mem (s : State) (c : Core) (n : Fin 8) : (s.dropRows c n).mem = s.mem := rfl

@[simp] theorem State.belayEnd_mem (s : State) (c : Core) (n : Fin 8) (st : ℕ) (reason : ℕ) (link : ℕ) :
    (s.belayEnd c n st reason link).mem = s.mem := by
  unfold State.belayEnd
  dsimp only
  split <;> simp

@[simp] theorem State.belayFail_mem (s : State) (c : Core) (n : Fin 8) (reason : ℕ) (link : ℕ) :
    (s.belayFail c n reason link).mem = s.mem := by
  simp [State.belayFail]

@[simp] theorem State.belayRead_mem (s : State) (c : Core) (b : Bctl) (row : ℕ) : (s.belayRead c b row).2.mem = s.mem := by
  simp [State.belayRead]

@[simp] theorem State.belayStop_mem (s : State) (c : Core) (n : Fin 8) : (s.belayStop c n).mem = s.mem := by simp [State.belayStop]

@[simp] theorem State.belayPump_mem (s : State) (c : Core) (n : Fin 8) (fuel : ℕ) : (s.belayPump c n fuel).mem = s.mem := by
  induction fuel generalizing s with
  | zero => rfl
  | succ fuel ih =>
    unfold State.belayPump
    extract_lets x b u t
    have hu : u.2.mem = s.mem := by simp only [u]; split <;> simp
    split
    · rfl
    · split
      · rfl
      · split
        · simp [hu]
        · dsimp only
          split
          · simp [t, hu]
          · rw [ih]
            exact hu

@[simp] theorem State.belayWrite_memOk (s : State) (c : Core) (x : BelayCtx) (i : ℕ) (row : List W32) (hm : MemOk s) :
    MemOk (s.belayWrite c x i row) := by
  refine foldl_memOk (fun s j h => ?_) _ (memOk_of_mem_eq (s.portConflicts_mem c) hm)
  dsimp only
  rw [MemOk, State.bumpLo_mem]
  exact s.setAcc_memOk _ _ _ _ _ h

@[simp] theorem State.belayTake_memOk (s : State) (c : Core) (n : Fin 8) (row : BelayRow) (hm : MemOk s) : MemOk (s.belayTake c n row) := by
  simp [State.belayTake, apply_ite Prod.snd, MemOk, hm]

@[simp] theorem State.belayRefuse_mem (s : State) (c : Core) (credit : Bool) (src : BelaySrc) (tag : BitVec 16) :
    (s.belayRefuse c credit src tag).mem = s.mem := by
  unfold State.belayRefuse
  dsimp only
  split <;> simp

@[simp] theorem State.takeRow_mem (s : State) (c : Core) (b : Bctl) (src : BelaySrc) : (s.takeRow c b src).mem = s.mem := by
  unfold State.takeRow
  split <;> simp

@[simp] theorem State.belayCtxWrite_mem (s : State) (c : Core) (n : Fin 8) (second : Bool) (v : W64) :
    (s.belayCtxWrite c n second v).mem = s.mem := by
  simp [State.belayCtxWrite]

theorem issueBset_formed (c : Core) (w : StepWord) (s : State) (hm : MemOk s) : (issueBset c w s).Formed := by
  unfold issueBset
  dsimp only
  split
  · exact Issue.formed_of_mem_eq (State.belayReject_mem _ _) hm
  · exact Issue.formed_of_mem_eq ((State.belayCtxWrite_mem _ _ _ _ _).trans (State.belayCtxWrite_mem _ _ _ _ _)) hm

theorem issueBelay_formed (c : Core) (w : StepWord) (s : State) (hm : MemOk s) : (issueBelay c w s).Formed := by
  unfold issueBelay
  dsimp only
  split
  · exact Issue.formed_of_mem_eq (State.belayReject_mem _ _) hm
  · exact hm

end Sys2Proof.Machine
end

section
/-! The form of memory (O5): links, queues, the Nimzen halves' messages, and collectives. -/
namespace Sys2Proof.Machine

/-! ### Links -/

@[simp] theorem State.setLink_mem (s : State) (l : Link) (x : LinkSt) : (s.setLink l x).mem = s.mem := rfl

@[simp] theorem State.linkSend_mem (s : State) (l : Link) (p : Pkt) : (s.linkSend l p).mem = s.mem := rfl

@[simp] theorem State.sendPkt_mem (s : State) (p : Pkt) : (s.sendPkt p).mem = s.mem := rfl

@[simp] theorem State.nack_mem (s : State) (p : Pkt) (reason : ℕ) (link : ℕ) : (s.nack p reason link).mem = s.mem := rfl

@[simp] theorem State.answer_mem (s : State) (w : TxnWho) (g : Got) : (s.answer w g).mem = s.mem := by
  unfold State.answer
  dsimp only
  (repeat' split) <;> simp

@[simp] theorem State.answerTo_mem (s : State) (w : TxnWho) (g : Got) : (s.answerTo w g).mem = s.mem := by simp [State.answerTo]

@[simp] theorem State.remoteSend_mem (s : State) (w : TxnWho) (a : W64) (ptype : ℕ) (rest : List Byte) :
    (s.remoteSend w a ptype rest).mem = s.mem := by
  unfold State.remoteSend
  split <;> simp

@[simp] theorem State.remoteRead_mem (s : State) (w : TxnWho) (a : W64) (n : ℕ) : (s.remoteRead w a n).mem = s.mem := by
  simp [State.remoteRead]

@[simp] theorem State.remoteAsk_mem (s : State) (w : TxnWho) (a : W64) (data : Option (List Byte)) :
    (s.remoteAsk w a data).mem = s.mem := by
  unfold State.remoteAsk
  split <;> simp

@[simp] theorem State.txnEnd_mem (s : State) (t : ℕ) (g : Got) : (s.txnEnd t g).mem = s.mem := by unfold State.txnEnd; split <;> simp

@[simp] theorem State.failPkt_mem (s : State) (p : Pkt) (link : ℕ) : (s.failPkt p link).mem = s.mem := by simp [State.failPkt]

@[simp] theorem State.routeEntry_mem (s : State) (dest : BitVec 16) : (s.routeEntry dest).2.mem = s.mem := by
  unfold State.routeEntry
  dsimp only
  (repeat' split) <;> simp

@[simp] theorem State.routePkt_mem (s : State) (p : Pkt) : (s.routePkt p).mem = s.mem := by
  unfold State.routePkt
  dsimp only
  split <;> simp

@[simp] theorem State.forward_mem (s : State) (p : Pkt) : (s.forward p).mem = s.mem := by simp [State.forward]

@[simp] theorem State.sendRecord_mem (s : State) (l : Link) : (s.sendRecord l).mem = s.mem := by simp [State.sendRecord]

@[simp] theorem State.belayLinkFail_mem (s : State) (l : Link) : (s.belayLinkFail l).mem = s.mem := by simp [State.belayLinkFail]

@[simp] theorem State.xdFail_mem (s : State) (link : ℕ) : (s.xdFail link).mem = s.mem := by simp [State.xdFail]

@[simp] theorem State.linkDrop_mem (s : State) (l : Link) : (s.linkDrop l).mem = s.mem := by simp [State.linkDrop]

@[simp] theorem State.linkToDown_mem (s : State) (l : Link) (reason : ℕ) : (s.linkToDown l reason).mem = s.mem := by simp [State.linkToDown]

@[simp] theorem State.linkDown_mem (s : State) (l : Link) (reason : ℕ) : (s.linkDown l reason).mem = s.mem := by simp [State.linkDown]

@[simp] theorem State.sendCtrl_mem (s : State) (l : Link) (body : List Byte) : (s.sendCtrl l body).mem = s.mem := rfl

@[simp] theorem State.askRekey_mem (s : State) (l : Link) : (s.askRekey l).mem = s.mem := by simp [State.askRekey]

@[simp] theorem State.autoRekey_mem (s : State) (l : Link) : (s.autoRekey l).mem = s.mem := by simp [State.autoRekey]

@[simp] theorem State.resend_mem (s : State) (l : Link) (seq : ℕ) : (s.resend l seq).mem = s.mem := by simp [State.resend]

@[simp] theorem State.askResend_mem (s : State) (l : Link) : (s.askResend l).mem = s.mem := rfl

@[simp] theorem State.takeFlit_mem (s : State) (l : Link) (f : BitVec 2048) : (s.takeFlit l f).mem = s.mem := by simp [State.takeFlit]

@[simp] theorem State.checkFlit_mem (s : State) (l : Link) (f : BitVec 2048) : (s.checkFlit l f).2.mem = s.mem := by
  simp [State.checkFlit, apply_ite Prod.snd]

@[simp] theorem State.arrive_mem (s : State) (l : Link) (vc : ℕ) (bs : List Byte) : (s.arrive l vc bs).mem = s.mem := by
  unfold State.arrive
  split <;> simp

@[simp] theorem State.takeCtrl_mem (s : State) (l : Link) (bodies : List (List Byte)) : (s.takeCtrl l bodies).mem = s.mem := by
  simp [State.takeCtrl]

@[simp] theorem State.sealRecord_mem (s : State) (l : Link) (f : BitVec 2048) : (s.sealRecord l f).1.mem = s.mem := by
  unfold State.sealRecord
  dsimp only
  split <;> simp

@[simp] theorem State.shipBelay_mem (s : State) : (s.shipBelay).mem = s.mem :=
  foldl_mem (fun t m => by split <;> simp) _ _

@[simp] theorem State.belayTell_mem (s : State) (link : ℕ) (dev : ℕ) (tag : BitVec 16) (core : ℕ) (own : ℕ) (what : ℕ) :
    (s.belayTell link dev tag core own what).mem = s.mem := by
  unfold State.belayTell
  split <;> simp

@[simp] theorem State.belayGive_mem (s : State) (c : Core) (n : Fin 8) (fuel : ℕ) : (s.belayGive c n fuel).mem = s.mem := by
  induction fuel generalizing s with
  | zero => rfl
  | succ fuel ih =>
    unfold State.belayGive
    dsimp only
    split
    · rw [ih]; simp
    · rfl

@[simp] theorem State.belayGo_mem (s : State) (c : Core) (n : Fin 8) : (s.belayGo c n).mem = s.mem := by simp [State.belayGo]

@[simp] theorem State.belayRefuseAll_mem (s : State) (c : Core) (credit : Bool) (src : BelaySrc) (tag : BitVec 16) :
    (s.belayRefuseAll c credit src tag).mem = s.mem := by
  simp [State.belayRefuseAll]

@[simp] theorem State.belayRefused_mem (s : State) (p : Pkt) : (s.belayRefused p).mem = s.mem := by
  unfold State.belayRefused
  dsimp only
  (repeat' split) <;> simp

/-! ### QueuePool -/

@[simp] theorem State.badLink_mem (s : State) (q : ℕ) : (s.badLink q).mem = s.mem := by simp [State.badLink]

@[simp] theorem State.strikeLink_mem (s : State) (q : ℕ) (err : Option (ℕ × BitVec 32)) : (s.strikeLink q err).mem = s.mem := by
  unfold State.strikeLink
  split <;> simp

@[simp] theorem State.popPkt_mem (s : State) (q : ℕ) (limit : ℕ) : (s.popPkt q limit).2.mem = s.mem := by
  unfold State.popPkt
  dsimp only
  (repeat' split) <;> simp

@[simp] theorem State.breakThose_mem (s : State) (q : ℕ) (which : QPkt → Bool) : (s.breakThose q which).mem = s.mem := by
  simp [State.breakThose]

@[simp] theorem State.breakPkt_mem (s : State) (q : ℕ) : (s.breakPkt q).mem = s.mem := by
  unfold State.breakPkt
  split
  · next t ht =>
    obtain ⟨_, _, ht⟩ := Option.bind_eq_some_iff.mp ht
    rw [State.breakThose_mem, State.reachBy_mem ht]
  · rfl

@[simp] theorem State.breakPort_mem (s : State) (prod : ℕ) : (s.breakPort prod).mem = s.mem := by simp [State.breakPort]

theorem State.morePkt_mem {s : State} {q prod : ℕ} {data : List Byte} {written : ℕ} {t : State}
    (ht : s.morePkt q prod data written = some t) : t.mem = s.mem := by
  unfold State.morePkt at ht
  dsimp only at ht
  split at ht
  · rw [Option.some.injEq] at ht
    rw [← ht, State.servePops_mem, State.setQueue_mem]
  · simp at ht

@[simp] theorem State.qpReject_mem (s : State) (q : ℕ) (det : List ℕ) : (s.qpReject q det).mem = s.mem := by simp [State.qpReject]

@[simp] theorem State.flushQueue_mem (s : State) (q : ℕ) : (s.flushQueue q).mem = s.mem := by simp [State.flushQueue]

@[simp] theorem State.qcfgWrite_mem (s : State) (q : ℕ) (v : W64) : (s.qcfgWrite q v).mem = s.mem := by simp [State.qcfgWrite]

@[simp] theorem State.queueWrite_mem (s : State) (q : ℕ) (off : ℕ) (prod : ℕ) (bs : List Byte) :
    (s.queueWrite q off prod bs).mem = s.mem := by
  simp [State.queueWrite]

@[simp] theorem State.queueRead_mem (s : State) (q : ℕ) (off : ℕ) (n : ℕ) : (s.queueRead q off n).2.mem = s.mem := by
  have h := s.popPkt_mem q n
  unfold State.queueRead
  split
  · rfl
  · split <;> simp_all

/-! ### Nz -/

@[simp] theorem State.setHalf_mem (s : State) (h : Half) (x : HalfSt) : (s.setHalf h x).mem = s.mem := rfl

@[simp] theorem State.onHalf_mem (s : State) (h : Half) (f : HalfSt → HalfSt) : (s.onHalf h f).mem = s.mem := rfl

@[simp] theorem State.nzSend_mem (s : State) (h : Half) (m : NzMsg) : (s.nzSend h m).mem = s.mem := (s.nzSend_recorded h m).mem

@[simp] theorem State.nzCmp_mem (s : State) (h : Half) (txid : ℕ) : (s.nzCmp h txid).mem = s.mem := rfl

@[simp] theorem State.nzNack_mem (s : State) (h : Half) (txid : ℕ) (reason : ℕ) : (s.nzNack h txid reason).mem = s.mem :=
  (s.nzNack_recorded h txid reason).mem

@[simp] theorem State.nzData_mem (s : State) (h : Half) (txid : ℕ) (kind : ℕ) (bs : List Byte) : (s.nzData h txid kind bs).mem = s.mem :=
  (s.nzData_recorded h txid kind bs).mem

@[simp] theorem State.nzBad_mem (s : State) (h : Half) : (s.nzBad h).mem = s.mem := by simp [State.nzBad]

@[simp] theorem State.nzDeny_mem (s : State) (h : Half) (txid : ℕ) : (s.nzDeny h txid).mem = s.mem := by simp [State.nzDeny]

@[simp] theorem State.nzTaken_mem (s : State) (h : Half) (op : ℕ) (txid : ℕ) : (s.nzTaken h op txid).mem = s.mem := rfl

@[simp] theorem State.dirSet_mem (s : State) (line : ℕ) (v : ℕ) : (s.dirSet line v).mem = s.mem := (s.dirSet_recorded line v).mem

@[simp] theorem State.useTxid_mem (s : State) (h : Half) (t : ℕ) : (s.useTxid h t).mem = s.mem := rfl

@[simp] theorem State.sendSnoop_mem (s : State) (h : Half) : (s.sendSnoop h).mem = s.mem := (s.sendSnoop_recorded h).mem

@[simp] theorem State.startSnoops_mem (s : State) (line : ℕ) (hs : List Half) : (s.startSnoops line hs).mem = s.mem :=
  (s.startSnoops_recorded line hs).mem

@[simp] theorem State.keepPlace_mem (s : State) (w : NzWait) : (s.keepPlace w).mem = s.mem := by simp [State.keepPlace]

@[simp] theorem State.cohWait_mem (s : State) (who : NzWho) (line : ℕ) (write : Bool) : (s.cohWait who line write).2.mem = s.mem := by
  unfold State.cohWait
  dsimp only
  (repeat' split) <;> simp

@[simp] theorem State.dirServe_mem (s : State) (h : Half) (txid : BitVec 10) (own : Bool) (line : ℕ) :
    (s.dirServe h txid own line).mem = s.mem :=
  (s.dirServe_recorded h txid own line).mem

@[simp] theorem State.dirRequest_mem (s : State) (h : Half) (txid : BitVec 10) (own : Bool) (line : ℕ) :
    (s.dirRequest h txid own line).mem = s.mem := by
  simp [State.dirRequest]

@[simp] theorem State.dirResume_mem (s : State) (line : ℕ) : (s.dirResume line).mem = s.mem := (s.dirResume_recorded line).mem

@[simp] theorem State.cohDone_mem (s : State) (who : NzWho) (lines : List ℕ) : (s.cohDone who lines).mem = s.mem :=
  (s.cohDone_recorded who lines).mem

@[simp] theorem State.cohLeave_mem (s : State) (who : NzWho → Bool) : (s.cohLeave who).mem = s.mem := (s.cohLeave_recorded who).mem

@[simp] theorem State.wordWaits_mem (s : State) (who : NzWho) (a : ℕ) (write : Bool) : (s.wordWaits who a write).2.mem = s.mem := by
  unfold State.wordWaits
  (repeat' split) <;> simp

@[simp] theorem State.anyWaits_mem (s : State) (who : NzWho) (l : List (ℕ × ℕ)) (write : Bool) :
    (s.anyWaits who l write).2.mem = s.mem := by
  simp [State.anyWaits]

@[simp] theorem State.snoopDone_memOk (s : State) (line : ℕ) (h : Half) (data : Option (List Byte)) (hm : MemOk s) :
    MemOk (s.snoopDone line h data) := by
  unfold State.snoopDone
  split <;> simp [MemOk, hm]

@[simp] theorem State.dropCopies_mem (s : State) (lines : List ℕ) : (s.dropCopies lines).mem = s.mem := rfl

@[simp] theorem State.useCopy_mem (s : State) (h : Half) (line : ℕ) (v : BitVec 512) : (s.useCopy h line v).mem = s.mem := rfl

@[simp] theorem State.askLine_mem (s : State) (h : Half) (r : NzReq) : (s.askLine h r).mem = s.mem := by simp [State.askLine]

@[simp] theorem State.putLines_mem (s : State) (h : Half) (w : TxnWho) (a : ℕ) (d : List Byte) (have'' : List (ℕ × BitVec 512)) :
    (s.putLines h w a d have'').mem = s.mem := by
  simp [State.putLines]

@[simp] theorem State.cmemAsk_mem (s : State) (w : TxnWho) (a : ℕ) (data : Option (List Byte)) : (s.cmemAsk w a data).mem = s.mem := by
  unfold State.cmemAsk
  dsimp only
  (repeat' split) <;> simp

@[simp] theorem State.farAsk_mem (s : State) (w : TxnWho) (a : W64) (data : Option (List Byte)) : (s.farAsk w a data).mem = s.mem := by
  simp [State.farAsk]

@[simp] theorem State.halfDrop_mem (s : State) (h : Half) : (s.halfDrop h).mem = s.mem := by simp [State.halfDrop]

@[simp] theorem State.halfTo_mem (s : State) (h : Half) (st : ℕ) : (s.halfTo h st).mem = s.mem := by simp [State.halfTo]

/-! ### Coll -/

@[simp] theorem State.setColl_mem (s : State) (c : Core) (x : CollSt) : (s.setColl c x).mem = s.mem := rfl

@[simp] theorem State.sendNotices_mem (s : State) (c : Core) (x : CollSt) (ring : ℕ) (dev : ℕ) (link : ℕ) :
    (s.sendNotices c x ring dev link).mem = s.mem := by
  simp [State.sendNotices]

@[simp] theorem State.hopFail_mem (s : State) (c : Core) (x : CollSt) (r : ℕ) (reason : ℕ) (dev : ℕ) (link : ℕ) :
    (s.hopFail c x r reason dev link).mem = s.mem := by
  simp [State.hopFail]

@[simp] theorem State.ringFail_mem (s : State) (c : Core) (tag : ℕ) (r : ℕ) (reason : ℕ) (dev : ℕ) (link : ℕ) :
    (s.ringFail c tag r reason dev link).mem = s.mem := by
  unfold State.ringFail
  split <;> simp

@[simp] theorem State.collSend_mem (s : State) (c : Core) (d : BitVec 1024) (m : CollMsg) : (s.collSend c d m).mem = s.mem := by
  unfold State.collSend
  dsimp only
  split <;> simp

@[simp] theorem State.collSendChunk_mem (s : State) (c : Core) (d : BitVec 1024) (m : CollMsg) (bs : List Byte) :
    (s.collSendChunk c d m bs).mem = s.mem := by
  simp [State.collSendChunk]

@[simp] theorem State.collWrite_mem (s : State) (c : Core) (tag : ℕ) (r : ℕ) (off : ℕ) (bs : List Byte) :
    (s.collWrite c tag r off bs).mem = s.mem := by
  unfold State.collWrite
  split <;> simp

@[simp] theorem State.collTake_mem (s : State) (c : Core) (m : CollMsg) : (s.collTake c m).mem = s.mem := by
  unfold State.collTake
  (repeat' split) <;> simp

@[simp] theorem State.ringStart_mem (s : State) (c : Core) (x : CollSt) (r : ℕ) : (s.ringStart c x r).mem = s.mem := by
  unfold State.ringStart
  dsimp only
  split <;> simp

@[simp] theorem State.collPut_memOk (s : State) (c : Core) (tag : ℕ) (p : CollPut) (hm : MemOk s) : MemOk (s.collPut c tag p) := by
  simp [State.collPut, MemOk, hm]

@[simp] theorem State.collPutEnd_mem (s : State) (c : Core) (tag : ℕ) (p : CollPut) : (s.collPutEnd c tag p).mem = s.mem := by
  unfold State.collPutEnd
  split <;> simp

@[simp] theorem State.collPump_memOk (s : State) (c : Core) (tag : ℕ) (hm : MemOk s) : MemOk (s.collPump c tag) := by
  unfold State.collPump
  extract_lets puts t
  have ht : MemOk t := foldl_memOk (fun s p h => s.collPut_memOk c tag p h) _ hm
  exact memOk_of_mem_eq (by simp) ht

@[simp] theorem State.collAsk_mem (s : State) (c : Core) (x : CollSt) (a : ℕ) : (s.collAsk c x a).2.mem = s.mem := by
  unfold State.collAsk
  (repeat' split) <;> simp

@[simp] theorem State.collLate_mem (s : State) (c : Core) (tag : ℕ) (n : CollNotice) : (s.collLate c tag n).mem = s.mem := by
  unfold State.collLate
  (repeat' split) <;> simp

@[simp] theorem State.collBegin_mem (s : State) (c : Core) (x : CollSt) : (s.collBegin c x).mem = s.mem := by simp [State.collBegin]

@[simp] theorem State.collGo_memOk (s : State) (c : Core) (tag : ℕ) (hm : MemOk s) : MemOk (s.collGo c tag) := by
  unfold State.collGo
  dsimp only
  (repeat' split) <;> simp [MemOk, hm]

@[simp] theorem State.collAll_memOk (s : State) (hm : MemOk s) : MemOk s.collAll :=
  foldl_memOk (fun _ c h => foldl_memOk (fun s x h => s.collGo_memOk c x.tag h) _ h) _ hm

@[simp] theorem State.collStart_memOk (s : State) (c : Core) (w : ℕ) (flag : Option ℕ) (hm : MemOk s) : MemOk (s.collStart c w flag) := by
  generalize ht : s.collStart c w flag = t
  unfold State.collStart at ht
  dsimp only at ht
  split at ht <;> rw [← ht]
  · rw [MemOk, State.readFault_mem, State.readWords_mem]
    exact hm
  · refine State.collGo_memOk _ _ _ ?_
    rw [MemOk, State.onCore_mem, State.readWords_mem]
    exact hm

@[simp] theorem State.collPkt_memOk (s : State) (p : Pkt) (hm : MemOk s) : MemOk (s.collPkt p) := by
  unfold State.collPkt
  dsimp only
  (repeat' split) <;> simp [MemOk, hm]

@[simp] theorem State.collLinkFail_mem (old s : State) (l : Link) : (old.collLinkFail s l).mem = s.mem := by
  refine foldl_mem (fun s c => foldl_mem (fun s x => foldl_mem (fun s r => ?_) _ s) _ s) _ s
  split
  · split <;> simp
  · rfl

@[simp] theorem State.cutFail_mem (s : State) (l : Link) (head : List Byte) : (s.cutFail l head).mem = s.mem := by
  unfold State.cutFail
  dsimp only
  (repeat' split) <;> simp

theorem execCollFailNotice_nextOk (c : Core) (coll : CollId) (ring : Fin 8) (dev : BitVec 16) (link : BitVec 5) (s : State) (hm : MemOk s) :
    NextOk (execCollFailNotice c coll ring dev link s) := by
  unfold execCollFailNotice
  refine State.live_nextOk hm ?_
  dsimp only
  (repeat' split) <;> simp [MemOk, hm]

theorem execCollTimeout_nextOk (c : Core) (ring : Fin 8) (s : State) (hm : MemOk s) : NextOk (execCollTimeout c ring s) := by
  unfold execCollTimeout
  refine State.live_nextOk hm ?_
  split
  · exact (nextOk_next s).mpr hm
  · next t ht =>
    have h : MemOk t := by
      obtain ⟨a, _, ha⟩ := Option.bind_eq_some_iff.mp ht
      exact State.reachBy_memOk hm ha
    split
    · exact nextOk_of_mem_eq (State.ringFail_mem _ _ _ _ _ _ _) h
    · split
      · exact nextOk_ite (nextOk_of_mem_eq (State.setColl_mem _ _ _) h) (nextOk_of_mem_eq (State.hopFail_mem _ _ _ _ _ _ _) h)
      · exact (nextOk_next _).mpr h

@[simp] theorem State.collFinish_memOk (s : State) (c : Core) (x : CollSt) (hm : MemOk s) : MemOk (s.collFinish c x) := by
  unfold State.collFinish
  split <;> simp [MemOk, hm]

theorem execCollEnd_nextOk (c : Core) (s : State) (hm : MemOk s) : NextOk (execCollEnd c s) := by
  unfold execCollEnd
  refine State.live_nextOk hm ?_
  (repeat' split) <;> simp [MemOk, hm]

end Sys2Proof.Machine
end

section
/-! The form of memory (O5): the vector unit, core control, and the events of arrays and feeders. -/
namespace Sys2Proof.Machine

/-! ### Vector -/

@[simp] theorem State.amaxIn_mem (s : State) (c : Core) (n : ℕ) (vs : List Fv) : (s.amaxIn c n vs).mem = s.mem :=
  foldl_mem (fun t v => by dsimp only; split <;> simp) vs s

@[simp] theorem State.monDeliver_mem (s : State) (m : ℕ) (vs : List Fv) : (s.monDeliver m vs).mem = s.mem := by simp [State.monDeliver]

@[simp] theorem State.capture_mem (s : State) (c : Core) (j : VecJob) (vs : List Fv) : (s.capture c j vs).mem = s.mem := by
  simp [State.capture]

@[simp] theorem State.rowVop_mem (s : State) (c : Core) (j : VecJob) (r : ℕ) : (s.rowVop c j r).s.mem = s.mem := rfl

@[simp] theorem State.rowVred_mem (s : State) (c : Core) (j : VecJob) (r : ℕ) : (s.rowVred c j r).s.mem = s.mem := rfl

@[simp] theorem State.addVector_memOk (s : State) (c : Core) (d : Desc) (texp : ℤ) (f : W32 → ℕ → W32) (n : ℕ) (hm : MemOk s) :
    MemOk (s.addVector c d texp f n) :=
  s.writeRun_memOk _ _ _ _ _ _ _ _ hm

@[simp] theorem State.rowVrow_memOk (s : State) (c : Core) (j : VecJob) (r : ℕ) (hm : MemOk s) : MemOk (s.rowVrow c j r).s := by
  simp [State.rowVrow, MemOk, hm]

@[simp] theorem State.rowOsm_memOk (s : State) (c : Core) (j : VecJob) (r : ℕ) (hm : MemOk s) : MemOk (s.rowOsm c j r).s := by
  unfold State.rowOsm
  dsimp only
  (repeat' split) <;> simp [MemOk, hm]

@[simp] theorem State.rowQuant_mem (s : State) (c : Core) (j : VecJob) (r : ℕ) : (s.rowQuant c j r).s.mem = s.mem := rfl

@[simp] theorem State.vecRow_memOk (s : State) (c : Core) (j : VecJob) (r : ℕ) (hm : MemOk s) : MemOk (s.vecRow c j r).s := by
  unfold State.vecRow
  split <;> simp [MemOk, hm]

@[simp] theorem State.writeW_mem (s : State) (c : Core) (j : VecJob) (vs : List (Option Fv)) : (s.writeW c j vs).mem = s.mem :=
  foldl_mem (fun t p => by dsimp only; split <;> simp) _ s

@[simp] theorem State.writeUntiled_memOk (s : State) (c : Core) (j : VecJob) (r : ℕ) (vs : List (Option Fv)) (hm : MemOk s) :
    MemOk (s.writeUntiled c j r vs).2 :=
  State.writeRun_memOk _ _ _ _ _ _ _ _ _ (by simp [MemOk, hm])

@[simp] theorem State.collectRow_mem (s : State) (c : Core) (j : VecJob) (r : ℕ) (vs : List (Option Fv)) (b : TileRows) :
    (s.collectRow c j r vs b).1.mem = s.mem := by
  unfold State.collectRow
  dsimp only
  split <;> simp

@[simp] theorem State.outTile_mem (s : State) (c : Core) (j : VecJob) (b : TileRows) (i : ℕ) (k : ℕ) :
    (s.outTile c j b i k).1.mem = s.mem := by
  unfold State.outTile
  dsimp only
  split <;> simp

@[simp] theorem State.pushTiles_mem (s : State) (c : Core) (j : VecJob) (b : TileRows) : (s.pushTiles c j b).mem = s.mem := by
  simp [State.pushTiles]

@[simp] theorem State.countAcc_mem (s : State) (c : Core) (d : Desc) (r : ℕ) (e : ℕ) : (s.countAcc c d r e).2.mem = s.mem := by
  simp [State.countAcc]

@[simp] theorem State.countOperand_mem (s : State) (c : Core) (d : Desc) (rows : ℕ) (len : ℕ) (turn : Bool) :
    (s.countOperand c d rows len turn).2.mem = s.mem := by
  unfold State.countOperand
  (repeat' split) <;> simp

@[simp] theorem State.countDest_mem (s : State) (c : Core) (j : VecJob) (r : ℕ) : (s.countDest c j r).2.mem = s.mem := by
  unfold State.countDest
  (repeat' split) <;> simp

@[simp] theorem countAll_mem (s : State) (l : List (State → Bool × State)) (hl : ∀ f ∈ l, ∀ t, (f t).2.mem = t.mem) :
    (countAll s l).2.mem = s.mem := by
  induction l generalizing s with
  | nil => rfl
  | cons f fs ih =>
    unfold countAll
    dsimp only
    split
    · exact hl f (by simp) s
    · rw [ih _ (fun g hg => hl g (by simp [hg])), hl f (by simp)]

@[simp] theorem State.rowReads_mem (s : State) (c : Core) (j : VecJob) (r : ℕ) : (s.rowReads c j r).2.mem = s.mem := by
  unfold State.rowReads
  dsimp only
  (repeat' split) <;> simp

@[simp] theorem State.stopVec_mem (s : State) (c : Core) : (s.stopVec c).mem = s.mem := rfl

@[simp] theorem State.runVec_memOk (s : State) (c : Core) (j : VecJob) (hm : MemOk s) : MemOk (s.runVec c j) := by
  unfold State.runVec
  extract_lets op s1 len u tiled r
  have hs1 : s1.mem = s.mem := by simp only [s1]; split <;> simp
  have hu : MemOk u.2 := by
    refine memOk_of_mem_eq ((countAll_mem _ _ fun f hf t => ?_).trans hs1) hm
    rcases List.mem_append.mp hf with hf | hf <;> split at hf <;> simp_all
  have hr : MemOk r.2.1 := by
    refine List.foldlRecOn (motive := fun acc : Bool × State × TileRows => MemOk acc.2.1) _ _ hu fun acc h i _ => ?_
    extract_lets rd o t w
    have hrd : MemOk rd.2 := by simp [rd, MemOk, h]
    have ht : MemOk t := by
      have ho : MemOk o.s := rd.2.vecRow_memOk c j i hrd
      simp [t, MemOk, ho]
    split
    · exact h
    · split
      · exact hrd
      · split
        · exact memOk_of_mem_eq (t.writeW_mem _ _ _) ht
        · split
          · exact memOk_of_mem_eq (t.collectRow_mem _ _ _ _ _) ht
          · exact t.writeUntiled_memOk _ _ _ _ ht
  split
  · simp [MemOk, hu]
  · split
    · simp [MemOk, hr]
    · split <;> simp [MemOk, hr]

@[simp] theorem State.vecAdvance_memOk (s : State) (c : Core) (fuel : ℕ) (hm : MemOk s) : MemOk (s.vecAdvance c fuel) := by
  induction fuel generalizing s with
  | zero => exact hm
  | succ fuel ih =>
    unfold State.vecAdvance
    dsimp only
    split
    · exact hm
    · split
      · exact ih _ (State.runVec_memOk _ _ _ hm)
      · exact hm

@[simp] theorem State.vecReject_mem (s : State) (c : Core) : (s.vecReject c).mem = s.mem := by simp [State.vecReject]

theorem State.vecOperandBad_mem {s : State} {c : Core} {d : Desc} {turn : Bool} {t : State} (ht : s.vecOperandBad c d turn = some t) :
    t.mem = s.mem := by
  unfold State.vecOperandBad at ht
  split at ht
  · split at ht <;> simp at ht
    subst ht; simp
  · split at ht
    · next h => exact State.operandBad_mem (h.trans ht)
    · split at ht <;> simp at ht
      subst ht; simp

theorem State.vecDestBad_mem {s : State} {c : Core} {d : Desc} {t : State} (ht : s.vecDestBad c d = some t) : t.mem = s.mem := by
  unfold State.vecDestBad at ht
  split at ht
  · simp only [Option.map_eq_some_iff] at ht
    obtain ⟨_, _, rfl⟩ := ht
    simp
  · simp at ht; subst ht; simp

theorem State.vecRefusal_mem {s : State} {c : Core} {j : VecJob} {t : State} (ht : s.vecRefusal c j = some t) : t.mem = s.mem := by
  unfold State.vecRefusal at ht
  dsimp only at ht
  split at ht
  · simp at ht; subst ht; simp
  · refine firstRefusal_mem (fun u hu v hv => ?_) ht
    rcases List.mem_append.mp hu with hu | hu <;> obtain ⟨_, _, rfl⟩ := List.mem_map.mp hu
    · exact State.vecOperandBad_mem hv
    · exact State.vecDestBad_mem hv

@[simp] theorem State.vecEnqueue_memOk (s : State) (c : Core) (j : VecJob) (hm : MemOk s) : MemOk (s.vecEnqueue c j) := by
  simp [State.vecEnqueue, MemOk, hm]

theorem issueVector_formed (c : Core) (w : StepWord) (s : State) (hm : MemOk s) : (issueVector c w s).Formed := by
  unfold issueVector
  split
  · trivial
  · dsimp only
    split
    · next h => exact Issue.formed_of_mem_eq (State.vecRefusal_mem h) hm
    · split
      · trivial
      · exact State.readScales_formed _ _ _ (fun t ht => State.vecEnqueue_memOk _ _ _ ht) (fun t ht => ht) hm

/-! ### Settle -/

@[simp] theorem State.endCheck_mem (s : State) (c : Core) : (s.endCheck c).mem = s.mem := by unfold State.endCheck; (repeat' split) <;> simp

@[simp] theorem State.settle_memOk (s : State) (c : Core) (hm : MemOk s) : MemOk (s.settle c) := by simp [State.settle, MemOk, hm]

@[simp] theorem State.settleAll_mem (s : State) : (s.settleAll).mem = s.mem := by simp [State.settleAll]

/-! ### StreamBase -/

@[simp] theorem State.setRun_mem (s : State) (c : Core) (e : Eng) (r : StrRun) : (s.setRun c e r).mem = s.mem := rfl

@[simp] theorem State.strForget_mem (s : State) (c : Core) (e : Eng) (p : ℕ → Bool → Bool) : (s.strForget c e p).mem = s.mem := rfl

@[simp] theorem State.strFinish_memOk (s : State) (c : Core) (e : Eng) (r : StrRun) (status : ℕ) (hm : MemOk s) :
    MemOk (s.strFinish c e r status) := by
  unfold State.strFinish
  extract_lets waiting r1 reason first r2 rec64 s1 s2 s3 s4 s5 x s6
  have h1 : MemOk s1 := by
    simp only [s1]
    split
    · split
      · exact s.put_memOk _ _ _ hm
      · exact hm
    · exact hm
  have h2 : s2.mem = s1.mem := by simp only [s2]; split <;> simp
  have h6 : s6.mem = s1.mem := by simp [s6, s5, s4, s3, h2]
  split
  · exact memOk_of_mem_eq (by rw [State.guardDone_mem, h6]) h1
  · exact memOk_of_mem_eq h6 h1

@[simp] theorem State.strAbort_memOk (s : State) (c : Core) (e : Eng) (hm : MemOk s) : MemOk (s.strAbort c e) := by
  unfold State.strAbort
  split <;> simp [MemOk, hm]

/-! ### Control -/

@[simp] theorem State.advancePc_mem (s : State) (c : Core) (pc : BitVec 20) (issued : Bool) : (s.advancePc c pc issued).mem = s.mem := rfl

@[simp] theorem State.dropStep_mem (s : State) (c : Core) (w : StepWord) : (s.dropStep c w).mem = s.mem := by
  unfold State.dropStep
  split <;> simp

@[simp] theorem State.dropStalled_mem (s : State) (c : Core) : (s.dropStalled c).mem = s.mem := by unfold State.dropStalled; split <;> simp

@[simp] theorem State.belayAbort_mem (s : State) (c : Core) (n : Fin 8) : (s.belayAbort c n).mem = s.mem := by simp [State.belayAbort]

@[simp] theorem State.coreAbort_mem (s : State) (c : Core) : (s.coreAbort c).mem = s.mem := by simp [State.coreAbort]

@[simp] theorem State.unitAbort_memOk (s : State) (c : Core) (u : Fin 13) (hm : MemOk s) : MemOk (s.unitAbort c u) := by
  unfold State.unitAbort
  (repeat' split) <;> simp [MemOk, hm]

@[simp] theorem State.enUnit_memOk (s : State) (c : Core) (v : W64) (u : Fin 13) (hm : MemOk s) : MemOk (s.enUnit c v u) := by
  simp [State.enUnit, MemOk, hm]

@[simp] theorem State.coreEnWrite_memOk (s : State) (c : Core) (v : W64) (hm : MemOk s) : MemOk (s.coreEnWrite c v) := by
  unfold State.coreEnWrite
  split
  · exact hm
  · have h := foldl_memOk (fun t u h => t.enUnit_memOk c v u h) (List.finRange 13) hm
    exact State.settle_memOk _ _ (by simpa [MemOk] using h)

theorem execUnitDisable_nextOk (c : Core) (v : W64) (s : State) (hm : MemOk s) : NextOk (execUnitDisable c v s) := by
  unfold execUnitDisable
  refine State.live_nextOk hm ?_
  refine State.ifOn_nextOk _ ?_ hm
  simp [MemOk, hm]

theorem execAbort_nextOk (c : Core) (v : W64) (s : State) (hm : MemOk s) : NextOk (execAbort c v s) := by
  unfold execAbort
  refine State.live_nextOk hm ?_
  refine State.ifOn_nextOk _ ?_ hm
  simp [MemOk, hm]

theorem execUnitEnable_nextOk (c : Core) (v : W64) (s : State) (hm : MemOk s) : NextOk (execUnitEnable c v s) := by
  unfold execUnitEnable
  refine State.live_nextOk hm ?_
  refine State.ifOn_nextOk _ ?_ hm
  simp [MemOk, hm]

theorem execDrainDone_nextOk (c : Core) (unit : Fin 13) (s : State) (hm : MemOk s) : NextOk (execDrainDone c unit s) := by
  unfold execDrainDone
  refine State.live_nextOk hm ?_
  (repeat' split) <;> simp [MemOk, hm]

theorem execStartTake_nextOk (c : Core) (s : State) (hm : MemOk s) : NextOk (execStartTake c s) := by
  unfold execStartTake
  refine State.live_nextOk hm ?_
  dsimp only
  (repeat' split) <;> simp [MemOk, hm]

@[simp] theorem State.seqCtlWrite_mem (s : State) (c : Core) (v : W64) : (s.seqCtlWrite c v).mem = s.mem := by simp [State.seqCtlWrite]

theorem execClearFault_nextOk (c : Core) (v : W64) (s : State) (hm : MemOk s) : NextOk (execClearFault c v s) := by
  unfold execClearFault
  refine State.live_nextOk hm ?_
  refine State.ifOn_nextOk _ ?_ hm
  simp [MemOk, hm]

@[simp] theorem State.flagSet_mem (s : State) (c : Core) (v : W64) : (s.flagSet c v).mem = s.mem := rfl

@[simp] theorem State.flagClr_mem (s : State) (c : Core) (v : W64) : (s.flagClr c v).mem = s.mem := rfl

theorem execSeqFlagset_nextOk (c : Core) (v : W64) (s : State) (hm : MemOk s) : NextOk (execSeqFlagset c v s) := by
  unfold execSeqFlagset
  refine State.live_nextOk hm ?_
  refine State.ifOn_nextOk _ ?_ hm
  simp [MemOk, hm]

theorem execSeqFlagclr_nextOk (c : Core) (v : W64) (s : State) (hm : MemOk s) : NextOk (execSeqFlagclr c v s) := by
  unfold execSeqFlagclr
  refine State.live_nextOk hm ?_
  refine State.ifOn_nextOk _ ?_ hm
  simp [MemOk, hm]

/-! ### ExecArray -/

theorem execLoadBegin_nextOk (c : Core) (a : Arr) (waited : ℕ) (s : State) (hm : MemOk s) : NextOk (execLoadBegin c a waited s) := by
  unfold execLoadBegin
  refine State.live_nextOk hm ?_
  dsimp only
  (repeat' split) <;> simp [MemOk, hm]

theorem execLoadDone_nextOk (c : Core) (a : Arr) (s : State) (hm : MemOk s) : NextOk (execLoadDone c a s) := by
  unfold execLoadDone
  refine State.live_nextOk hm ?_
  dsimp only
  (repeat' split) <;> simp [MemOk, hm]

theorem execPlaneSwap_nextOk (c : Core) (a : Arr) (s : State) (hm : MemOk s) : NextOk (execPlaneSwap c a s) := by
  unfold execPlaneSwap
  refine State.live_nextOk hm ?_
  simp [MemOk, hm]

theorem execFeedStart_nextOk (c : Core) (f : Arr) (starve : ℕ) (s : State) (hm : MemOk s) : NextOk (execFeedStart c f starve s) := by
  unfold execFeedStart
  refine State.live_nextOk hm ?_
  (repeat' split) <;> simp [MemOk, hm]

theorem execFillDeadline_nextOk (c : Core) (g : Ctx) (s : State) (hm : MemOk s) : NextOk (execFillDeadline c g s) := by
  unfold execFillDeadline
  refine State.live_nextOk hm ?_
  simp [MemOk, hm]

theorem execFillWatchdog_nextOk (c : Core) (g : Ctx) (f : Fin 2) (s : State) (hm : MemOk s) : NextOk (execFillWatchdog c g f s) := by
  unfold execFillWatchdog
  refine State.live_nextOk hm ?_
  dsimp only
  (repeat' split) <;> simp [MemOk, hm]

theorem execCoreFgctxWrite_nextOk (c : Core) (g : Ctx) (v : W64) (s : State) (hm : MemOk s) : NextOk (execCoreFgctxWrite c g v s) := by
  unfold execCoreFgctxWrite
  refine State.live_nextOk hm ?_
  refine State.ifOn_nextOk _ ?_ hm
  simp [MemOk, hm]

@[simp] theorem State.panInval_mem (s : State) (c : Core) (v : W64) : (s.panInval c v).mem = s.mem := by simp [State.panInval]

theorem execPanInvalGo_nextOk (c : Core) (v : W64) (s : State) (hm : MemOk s) : NextOk (execPanInvalGo c v s) := by
  unfold execPanInvalGo
  refine State.live_nextOk hm ?_
  refine State.ifOn_nextOk _ ?_ hm
  simp [MemOk, hm]

end Sys2Proof.Machine
end

section
/-! The form of memory (O5): gather engines, the events of memory and queues, the larder, the pair, and the events of links. -/
namespace Sys2Proof.Machine

/-! ### Nmg -/

@[simp] theorem State.rowRead_mem (s : State) (n : Nreq) (h r : ℕ) : (s.rowRead n h r).mem = s.mem := by
  unfold State.rowRead
  refine foldl_mem_of_eq (fun t w u hu => ?_) _ s
  dsimp only at hu
  split at hu <;> subst hu <;> simp

@[simp] theorem State.nmgReads_mem (s : State) (n : Nreq) (h' : ℕ) (lim : ℕ) : (s.nmgReads n h' lim).mem = s.mem := by simp [State.nmgReads]

@[simp] theorem State.nmgWrite_memOk (s : State) (n : Nreq) (j : ℕ) (vs : List Fv) (hm : MemOk s) : MemOk (s.nmgWrite n j vs) := by
  simp [State.nmgWrite, MemOk, hm]

@[simp] theorem State.nmgGo_memOk (s : State) (h : ℕ) (r : BitVec 512) (hm : MemOk s) : MemOk (s.nmgGo h r) := by
  generalize hf : @State.nmgGo = f
  delta State.nmgGo at hf
  have ht := congrFun (congrFun (congrFun hf s) h) r
  generalize f s h r = t at ht ⊢
  extract_lets n rd pre s1 ee lim drops reason bad s0 s2 s3 s4 run s5 at ht
  have h1 : MemOk s1 := by
    rw [MemOk, State.readWords_mem]
    exact hm
  have h3 : MemOk s3 := by
    rw [MemOk, State.bumpHi_mem, State.bumpLo_mem, State.bumpLo_mem, State.nmgReads_mem]
    exact h1
  clear_value s3
  have h4 : MemOk s4 := by
    refine foldl_memOk_of_eq (fun t p u h hu => ?_) _ h3
    split at hu
    · exact hu ▸ h
    · rw [← hu]
      exact t.nmgWrite_memOk _ _ _ h
  clear_value s4
  rw [← ht, MemOk, State.setNmgRun_mem]
  generalize hs : s5 = v
  unfold s5 at hs
  clear_value bad
  cases bad with
  | nil => exact hs ▸ h4
  | cons b l =>
    rw [← hs, State.raise_mem]
    exact h4

theorem execNmgRun_nextOk (h : Stack) (ecc : List (BitVec 48 × Ecc)) (s : State) (hm : MemOk s) : NextOk (execNmgRun h ecc s) := by
  unfold execNmgRun
  refine State.live_nextOk hm ?_
  dsimp only
  (repeat' split) <;> simp [MemOk, hm]

theorem execNmgDone_nextOk (h : Stack) (s : State) (hm : MemOk s) : NextOk (execNmgDone h s) := by
  unfold execNmgDone
  refine State.live_nextOk hm ?_
  split
  · exact (nextOk_next s).mpr hm
  · next x _ =>
    extract_lets n s1 s2
    have h2 : MemOk s2 := by
      generalize hs : s2 = v
      unfold s2 at hs
      split at hs
      · refine ite_elim hs (fun hs => hs ▸ hm) (fun hs => ?_)
        extract_lets s3 at hs
        have h3 : MemOk s3 := State.wrLocal_memOk _ _ _ hm
        clear_value s3
        refine ite_elim hs (fun hs => ?_) (fun hs => hs ▸ h3)
        rw [← hs, MemOk, State.setFlag_mem]
        exact h3
      · exact hs ▸ hm
    clear_value s2
    refine (nextOk_next _).mpr ?_
    rw [MemOk, ite_mem, State.raise_mem, State.bumpHi_mem, ite_self]
    exact h2

theorem execHbmNmgreq_nextOk (h : Stack) (r : BitVec 512) (s : State) (hm : MemOk s) : NextOk (execHbmNmgreq h r s) := by
  unfold execHbmNmgreq
  refine State.live_nextOk hm ?_
  refine State.ifOn_nextOk _ ?_ hm
  simp [MemOk, hm]

/-! ### ExecMem -/

theorem execMemRequest_nextOk (m : MemCtl) (r : MemReq) (s : State) (hm : MemOk s) : NextOk (execMemRequest m r s) := by
  unfold execMemRequest
  refine State.live_nextOk hm ?_
  (repeat' split) <;> simp [MemOk, hm]

@[simp] theorem State.ready_mem (s : State) (m : MemCtl) (n : ℕ) (l : List MemReq) : (s.ready m n l).2.mem = s.mem := by
  induction n generalizing s l with
  | zero => rfl
  | succ n ih =>
    unfold State.ready
    split
    · rfl
    · dsimp only
      split <;> simp [ih]

@[simp] theorem State.readyReq_mem (s : State) (m : MemCtl) : (s.readyReq m).2.mem = s.mem := by simp [State.readyReq]

@[simp] theorem State.grant_memOk (s : State) (m : MemCtl) (r : MemReq) (n : ℕ) (ecc : Ecc) (hm : MemOk s) : MemOk (s.grant m r n ecc) := by
  simp [State.grant, MemOk, hm]

@[simp] theorem State.grantRest_memOk (s : State) (m : MemCtl) (lane : ℕ) (r : MemReq) (ecc : Ecc) (hm : MemOk s) :
    MemOk (s.grantRest m lane r ecc) := by
  simp [State.grantRest, MemOk, hm]

theorem execMemGrant_nextOk (m : MemCtl) (ecc : Ecc) (s : State) (hm : MemOk s) : NextOk (execMemGrant m ecc s) := by
  have hr {o : Option MemReq} {t : State} (h : s.readyReq m = (o, t)) : MemOk t := memOk_of_mem_eq (mem_of_eq h (s.readyReq_mem m)) hm
  unfold execMemGrant
  refine State.live_nextOk hm (nextOk_ite ?_ ((nextOk_next s).mpr hm))
  split
  · next h =>
    extract_lets +onlyGivenNames lane
    split
    · exact (nextOk_next _).mpr (State.grantRest_memOk _ _ _ _ _ (hr h))
    · exact (nextOk_next _).mpr (State.grant_memOk _ _ _ _ _ (memOk_of_mem_eq (State.setMemReqs_mem _ _ _) (hr h)))
  · next h =>
    split
    · exact (nextOk_next _).mpr (State.grantRest_memOk _ _ _ _ _ (hr h))
    · exact (nextOk_next _).mpr (hr h)

theorem execMemPreempt_nextOk (m : MemCtl) (words : ℕ) (s : State) (hm : MemOk s) : NextOk (execMemPreempt m words s) := by
  have hr {o : Option MemReq} {t : State} (h : s.readyReq m = (o, t)) : MemOk t := memOk_of_mem_eq (mem_of_eq h (s.readyReq_mem m)) hm
  unfold execMemPreempt
  refine State.live_nextOk hm (nextOk_ite ?_ ((nextOk_next s).mpr hm))
  split
  · next h =>
    dsimp only
    refine nextOk_ite (nextOk_of_mem_eq ((State.countPreempt_mem _ _).trans (State.setMemStopped_mem _ _ _)) ?_)
      ((nextOk_next _).mpr (hr h))
    exact State.grant_memOk _ _ _ _ _ (memOk_of_mem_eq (State.setMemReqs_mem _ _ _) (hr h))
  · next h => exact (nextOk_next _).mpr (hr h)

theorem execHbmPeriodicCal_nextOk (_pc : Fin 256) (s : State) (hm : MemOk s) : NextOk (execHbmPeriodicCal _pc s) := by
  unfold execHbmPeriodicCal
  refine State.live_nextOk hm ?_
  simp [MemOk, hm]

@[simp] theorem State.tierGo_mem (s : State) (inTier : ℕ → Bool) : (s.tierGo inTier).mem = s.mem := (s.tierGo_recorded inTier).mem

@[simp] theorem State.fillDone_memOk (s : State) (t : Tier) (hm : MemOk s) : MemOk (s.fillDone t) := by
  unfold State.fillDone
  split
  · exact hm
  · split <;> split
    · exact hm
    · rw [MemOk, State.tierGo_mem]; exact Memory.wf_filter _ hm
    · exact hm
    · rw [MemOk, State.tierGo_mem]; exact Memory.wf_filter _ hm

@[simp] theorem State.hbmCommit_mem (s : State) (v : W64) : (s.hbmCommit v).mem = s.mem := by simp [State.hbmCommit]

@[simp] theorem State.lpCommit_mem (s : State) (v : W64) : (s.lpCommit v).mem = s.mem := by simp [State.lpCommit]

@[simp] theorem State.mprioCommit_mem (s : State) (v : W64) : (s.mprioCommit v).mem = s.mem := by simp [State.mprioCommit]

theorem execHbmPriocommit_nextOk (v : W64) (s : State) (hm : MemOk s) : NextOk (execHbmPriocommit v s) := by
  unfold execHbmPriocommit
  refine State.live_nextOk hm ?_
  simp [MemOk, hm]

theorem execLpPriocommit_nextOk (v : W64) (s : State) (hm : MemOk s) : NextOk (execLpPriocommit v s) := by
  unfold execLpPriocommit
  refine State.live_nextOk hm ?_
  simp [MemOk, hm]

theorem execCoreMpriocommit_nextOk (v : W64) (s : State) (hm : MemOk s) : NextOk (execCoreMpriocommit v s) := by
  unfold execCoreMpriocommit
  refine State.live_nextOk hm ?_
  simp [MemOk, hm]

theorem execPacketPush_nextOk (q : QueueNo) (port : Fin 40) (data : List Byte) (written : ℕ) (s : State) (hm : MemOk s) :
    NextOk (execPacketPush q port data written s) := by
  unfold execPacketPush
  refine State.live_nextOk hm ?_
  extract_lets d prod
  refine (nextOk_next _).mpr ?_
  split
  · exact hm
  · rcases h : s.morePkt q.val prod data written with _ | t
    · exact memOk_of_mem_eq (s.pushPkt_mem _ _ _ _) hm
    · exact memOk_of_mem_eq (State.morePkt_mem h) hm

theorem execPacketPop_nextOk (q : QueueNo) (pop : PopCmd) (s : State) (hm : MemOk s) : NextOk (execPacketPop q pop s) := by
  unfold execPacketPop
  refine State.live_nextOk hm ?_
  (repeat' split) <;> simp [MemOk, hm]

theorem execPacketBreak_nextOk (q : QueueNo) (s : State) (hm : MemOk s) : NextOk (execPacketBreak q s) := by
  unfold execPacketBreak
  refine State.live_nextOk hm ?_
  simp [MemOk, hm]

theorem execQpQcfgWrite_nextOk (q : QueueNo) (v : W64) (s : State) (hm : MemOk s) : NextOk (execQpQcfgWrite q v s) := by
  unfold execQpQcfgWrite
  refine State.live_nextOk hm ?_
  refine State.ifOn_nextOk _ ?_ hm
  simp [MemOk, hm]

theorem execQpFlush_nextOk (q : QueueNo) (v : W64) (s : State) (hm : MemOk s) : NextOk (execQpFlush q v s) := by
  unfold execQpFlush
  refine State.live_nextOk hm ?_
  refine State.ifOn_nextOk _ ?_ hm
  simp [MemOk, hm]

/-! ### Larder -/

@[simp] theorem State.lardRead_mem (s : State) (n : ℕ) : (s.lardRead n).2.mem = s.mem := (s.lardRead_recorded n).mem

@[simp] theorem State.lardQueue_mem (s : State) (n : ℕ) (v : W64) : (s.lardQueue n v).mem = s.mem := rfl

@[simp] theorem State.lardQueueAll_mem (s : State) (l : List (ℕ × W64)) : (s.lardQueueAll l).mem = s.mem := by simp [State.lardQueueAll]

@[simp] theorem State.lardDeny_mem (s : State) (n : ℕ) (w : Writer) : (s.lardDeny n w).mem = s.mem := by simp [State.lardDeny]

@[simp] theorem State.lardWrite_mem (s : State) (n : ℕ) (v : W64) (w : Writer) : (s.lardWrite n v w).mem = s.mem := by
  simp [State.lardWrite]

@[simp] theorem State.lardStore_mem (s : State) (n : ℕ) (v : W64) : (s.lardStore n v).mem = s.mem := rfl

@[simp] theorem State.enrolled_mem (s : State) : (s.enrolled).mem = s.mem := by simp [State.enrolled]

theorem execLardWrite_nextOk (n : LardNo) (v : W64) (who : Writer) (s : State) (hm : MemOk s) : NextOk (execLardWrite n v who s) := by
  unfold execLardWrite
  refine State.live_nextOk hm ?_
  simp [MemOk, hm]

theorem execLardWriteDone_nextOk (s : State) (hm : MemOk s) : NextOk (execLardWriteDone s) := by
  unfold execLardWriteDone
  (repeat' split) <;> simp [MemOk, hm]

/-! ### Pair -/

@[simp] theorem State.onPair_mem (s : State) (f : PairSt → PairSt) : (s.onPair f).mem = s.mem := rfl

@[simp] theorem State.pairSend_mem (s : State) (ptype : ℕ) (body : List Byte) : (s.pairSend ptype body).mem = s.mem := by
  simp [State.pairSend]

@[simp] theorem State.sendAttach_mem (s : State) : (s.sendAttach).mem = s.mem := by simp [State.sendAttach]

@[simp] theorem State.noticePkt_mem (s : State) (v : ℕ) : (s.noticePkt v).mem = s.mem := by simp [State.noticePkt]

@[simp] theorem State.enterSolo_mem (s : State) (full : Bool) : (s.enterSolo full).mem = s.mem := by simp [State.enterSolo]

@[simp] theorem State.unpair_mem (s : State) : (s.unpair).mem = s.mem := rfl

@[simp] theorem State.twinLost_mem (s : State) : (s.twinLost).mem = s.mem := by unfold State.twinLost; split <;> simp

@[simp] theorem State.resyncFail_mem (s : State) (link : ℕ) (addr : ℕ) : (s.resyncFail link addr).mem = s.mem := by simp [State.resyncFail]

@[simp] theorem State.resyncSend_mem (s : State) (l : Link) (p : ℕ × ℕ × ℕ) : (s.resyncSend l p).mem = s.mem := by simp [State.resyncSend]

@[simp] theorem State.resyncPump_mem (s : State) (n : ℕ) : (s.resyncPump n).mem = s.mem := by
  induction n generalizing s with
  | zero => rfl
  | succ n ih =>
    unfold State.resyncPump
    dsimp only
    split
    · split <;> simp [ih]
    · rfl

@[simp] theorem State.pairPump_mem (s : State) : (s.pairPump).mem = s.mem := by simp [State.pairPump]

@[simp] theorem State.resyncGo_mem (s : State) : (s.resyncGo).mem = s.mem := by simp [State.resyncGo]

@[simp] theorem State.soloMeet_mem (s : State) (epoch : W64) : (s.soloMeet epoch).mem = s.mem := by simp [State.soloMeet]

@[simp] theorem State.attachOutcome_mem (s : State) (m : AttachMsg) : (s.attachOutcome m).mem = s.mem := by simp [State.attachOutcome]

@[simp] theorem State.attachTry_mem (s : State) : (s.attachTry).mem = s.mem := by simp [State.attachTry]

theorem execHeartbeatReceive_nextOk (l : Link) (hb : Heartbeat) (s : State) (hm : MemOk s) : NextOk (execHeartbeatReceive l hb s) := by
  unfold execHeartbeatReceive
  refine State.live_nextOk hm ?_
  dsimp only
  (repeat' split) <;> simp [MemOk, hm]

theorem execAttachWaitExpiry_nextOk (s : State) (hm : MemOk s) : NextOk (execAttachWaitExpiry s) := by
  unfold execAttachWaitExpiry
  refine State.live_nextOk hm ?_
  (repeat' split) <;> simp [MemOk, hm]

theorem execAttachMsg_nextOk (l : Link) (m : AttachMsg) (s : State) (hm : MemOk s) : NextOk (execAttachMsg l m s) := by
  unfold execAttachMsg
  refine State.live_nextOk hm ?_
  (repeat' split) <;> simp [MemOk, hm]

theorem execResyncDone_nextOk (s : State) (hm : MemOk s) : NextOk (execResyncDone s) := by
  unfold execResyncDone
  refine State.live_nextOk hm ?_
  dsimp only
  (repeat' split) <;> simp [MemOk, hm]

theorem execRejoinPitch_nextOk (s : State) (hm : MemOk s) : NextOk (execRejoinPitch s) := by
  unfold execRejoinPitch
  refine State.live_nextOk hm ?_
  (repeat' split) <;> simp [MemOk, hm]

@[simp] theorem State.detach_mem (s : State) : (s.detach).mem = s.mem := by unfold State.detach; split <;> simp

theorem execDetach_nextOk (s : State) (hm : MemOk s) : NextOk (execDetach s) := by
  unfold execDetach
  refine State.live_nextOk hm ?_
  simp [MemOk, hm]

theorem execAttach_nextOk (s : State) (hm : MemOk s) : NextOk (execAttach s) := by
  unfold execAttach
  refine State.live_nextOk hm ?_
  simp [MemOk, hm]

theorem execDetachAck_nextOk (s : State) (hm : MemOk s) : NextOk (execDetachAck s) := by
  unfold execDetachAck
  refine State.live_nextOk hm ?_
  (repeat' split) <;> simp [MemOk, hm]

theorem execPairDetach_nextOk (s : State) (hm : MemOk s) : NextOk (execPairDetach s) := by
  unfold execPairDetach
  refine State.live_nextOk hm ?_
  (repeat' split) <;> simp [MemOk, hm]

theorem execReleasePitch_nextOk (s : State) (hm : MemOk s) : NextOk (execReleasePitch s) := by
  unfold execReleasePitch
  refine State.live_nextOk hm ?_
  (repeat' split) <;> simp [MemOk, hm]

@[simp] theorem State.pairPkt_memOk (s : State) (p : Pkt) (hm : MemOk s) : MemOk (s.pairPkt p) := by
  generalize ht : s.pairPkt p = t
  unfold State.pairPkt at ht
  extract_lets kind arg link bs w _ _ r r2 at ht
  have hw : MemOk w.2 := memOk_of_mem_eq (by simp [w]) hm
  have hr : MemOk r.2 := w.2.wrFull_memOk _ _ _ hw
  have h2 : MemOk r2.2 := memOk_of_mem_eq (State.cohDone_mem _ _ _) hr
  clear_value r2
  split at ht
  · exact ht ▸ hm
  · split at ht
    · rw [← ht, MemOk, State.onPair_mem, State.pairSend_mem]; exact hm
    · split at ht
      · rw [← ht, MemOk, State.onPair_mem]; exact hm
      · split at ht
        · split at ht
          · rw [← ht]; exact hw
          · split at ht
            · exact ht ▸ h2
            · rw [← ht, MemOk, State.resyncFail_mem, State.pairSend_mem]; exact h2
        · split at ht <;> rw [← ht]
          · rw [MemOk, State.resyncFail_mem]; exact hm
          · exact hm

/-! ### Weights -/

@[simp] theorem State.wlAsk_mem (s : State) (kind : ℕ) (a : ℕ) : (s.wlAsk kind a).mem = s.mem := by simp [State.wlAsk]

@[simp] theorem State.wlPump_mem (s : State) : (s.wlPump).mem = s.mem := by unfold State.wlPump; split <;> simp

/-! ### ExecLinks -/

@[simp] theorem State.linkGone_memOk (old s : State) (l : Link) (hm : MemOk s) : MemOk (old.linkGone s l) := by
  simp [State.linkGone, MemOk, hm]

@[simp] theorem State.linkCheck_memOk (old s : State) (l : Link) (hm : MemOk s) : MemOk (old.linkCheck s l) := by
  unfold State.linkCheck
  split <;> simp [MemOk, hm]

theorem execLinkDown_nextOk (l : Link) (reason : BitVec 4) (s : State) (hm : MemOk s) : NextOk (execLinkDown l reason s) := by
  unfold execLinkDown
  refine State.live_nextOk hm ?_
  (repeat' split) <;> simp [MemOk, hm]

@[simp] theorem State.closeReceived_memOk (s : State) (l : Link) (flit : BitVec 2048) (hm : MemOk s) : MemOk (s.closeReceived l flit) := by
  refine State.linkCheck_memOk _ _ _ ?_
  exact memOk_of_mem_eq ((foldl_mem (by simp) _ _).trans (s.sealRecord_mem l flit)) hm

theorem execFlitReceive_nextOk (l : Link) (flit : BitVec 2048) (s : State) (hm : MemOk s) : NextOk (execFlitReceive l flit s) := by
  unfold execFlitReceive
  refine State.live_nextOk hm ?_
  dsimp only
  (repeat' split) <;> simp [MemOk, hm]

theorem execSealReceive_nextOk (l : Link) (flit : BitVec 2048) (s : State) (hm : MemOk s) : NextOk (execSealReceive l flit s) := by
  unfold execSealReceive
  refine State.live_nextOk hm ?_
  (repeat' split) <;> simp [MemOk, hm]

theorem execRetryRequest_nextOk (l : Link) (seq : BitVec 10) (s : State) (hm : MemOk s) : NextOk (execRetryRequest l seq s) := by
  unfold execRetryRequest
  refine State.live_nextOk hm ?_
  (repeat' split) <;> simp [MemOk, hm]

theorem execAckTimeout_nextOk (l : Link) (s : State) (hm : MemOk s) : NextOk (execAckTimeout l s) := by
  unfold execAckTimeout
  refine State.live_nextOk hm ?_
  extract_lets x
  split
  · split
    · next ht =>
      refine nextOk_ite ((nextOk_next _).mpr (State.linkCheck_memOk _ _ _ ?_)) ((nextOk_next s).mpr hm)
      exact memOk_of_mem_eq ((State.resend_mem _ _ _).trans (State.setLink_mem _ _ _)) (State.reachBy_memOk hm ht)
    · exact (nextOk_next s).mpr hm
  · exact (nextOk_next s).mpr hm

@[simp] theorem State.linkRecord_memOk (s : State) (l : Link) (hm : MemOk s) : MemOk (s.linkRecord l) := by
  unfold State.linkRecord
  split
  · exact State.linkCheck_memOk _ _ _ (memOk_of_mem_eq ((State.autoRekey_mem _ _).trans (s.sendRecord_mem l)) hm)
  · exact hm

@[simp] theorem State.countDeny_mem (s : State) : (s.countDeny).mem = s.mem := rfl

@[simp] theorem State.deliver_memOk (s : State) (p : Pkt) (hm : MemOk s) : MemOk (s.deliver p) := by simp [State.deliver, MemOk, hm]

theorem execPacketForward_nextOk (p : Pkt) (s : State) (hm : MemOk s) : NextOk (execPacketForward p s) := by
  unfold execPacketForward
  refine State.live_nextOk hm ?_
  dsimp only
  (repeat' split) <;> simp [MemOk, hm]

@[simp] theorem State.linkTimer_mem (s : State) (l : Link) : (s.linkTimer l).mem = s.mem := by
  unfold State.linkTimer
  dsimp only
  split
  · split
    · next ht => rw [State.setLink_mem, State.linkOver_mem ht]
    · rfl
  · rfl

@[simp] theorem State.linkTrained_mem (s : State) (l : Link) (x4 : Bool) (laneHi : Bool) (half : Bool) :
    (s.linkTrained l x4 laneHi half).mem = s.mem := by
  simp [State.linkTrained]

@[simp] theorem State.linkTimeout_mem (s : State) (l : Link) : (s.linkTimeout l).mem = s.mem := by
  unfold State.linkTimeout
  dsimp only
  split
  · split
    · next ht => rw [State.linkDown_mem, State.linkOver_mem ht]
    · rfl
  · rfl

@[simp] theorem State.enrol_mem (s : State) (l : Link) (peer : PeerOffer) : (s.enrol l peer).mem = s.mem := by simp [State.enrol]

@[simp] theorem State.pairCheck_mem (s : State) (l : Link) (peer : PeerOffer) : (s.pairCheck l peer).mem = s.mem := by
  simp [State.pairCheck]

@[simp] theorem State.linkUpGo_mem (s : State) (l : Link) : (s.linkUpGo l).mem = s.mem := by simp [State.linkUpGo]

theorem execLinkKeying_nextOk (l : Link) (peer : PeerOffer) (s : State) (hm : MemOk s) : NextOk (execLinkKeying l peer s) := by
  unfold execLinkKeying
  refine State.live_nextOk hm ?_
  dsimp only
  (repeat' split) <;> simp [MemOk, hm]

@[simp] theorem State.rekeyLink_memOk (s : State) (l : Link) (hm : MemOk s) : MemOk (s.rekeyLink l) := by
  unfold State.rekeyLink
  split
  · exact State.linkCheck_memOk _ _ _ (by simp [MemOk, hm])
  · exact hm

theorem execRekey_nextOk (l : Link) (s : State) (hm : MemOk s) : NextOk (execRekey l s) := by
  unfold execRekey
  refine State.live_nextOk hm ?_
  refine State.ifOn_nextOk _ ?_ hm
  simp [MemOk, hm]

@[simp] theorem State.retrainLink_memOk (s : State) (l : Link) (hm : MemOk s) : MemOk (s.retrainLink l) := by
  have hd : MemOk ((s.linkDrop l).setLink l { (s.linkDrop l).link l with st := 2 }) :=
    memOk_of_mem_eq ((State.setLink_mem _ _ _).trans (s.linkDrop_mem l)) hm
  unfold State.retrainLink
  dsimp only
  split
  · exact hm
  · refine memOk_of_mem_eq (State.setLink_mem _ _ _) ?_
    split
    · exact State.linkGone_memOk _ _ _ hd
    · exact hm

theorem execRetrain_nextOk (l : Link) (s : State) (hm : MemOk s) : NextOk (execRetrain l s) := by
  unfold execRetrain
  refine State.live_nextOk hm ?_
  refine State.ifOn_nextOk _ ?_ hm
  simp [MemOk, hm]

theorem execWakeTx_nextOk (l : Link) (s : State) (hm : MemOk s) : NextOk (execWakeTx l s) := by
  unfold execWakeTx
  refine State.live_nextOk hm ?_
  refine State.ifOn_nextOk _ ?_ hm
  simp [MemOk, hm]

@[simp] theorem State.linkStart_mem (s : State) (l : Link) : (s.linkStart l).mem = s.mem := by simp [State.linkStart]

@[simp] theorem State.halfStart_mem (s : State) (h : Half) : (s.halfStart h).mem = s.mem := by simp [State.halfStart]

end Sys2Proof.Machine
end

section
/-! The form of memory (O5): power, the events of the sieve engine and the vector unit, the governor, and the states of a half. -/
namespace Sys2Proof.Machine

/-! ### Power -/

@[simp] theorem State.onPwr_mem (s : State) (f : PwrSt → PwrSt) : (s.onPwr f).mem = s.mem := rfl

@[simp] theorem State.pwrRefuse_mem (s : State) (dom : ℕ) (reason : ℕ) : (s.pwrRefuse dom reason).mem = s.mem := by simp [State.pwrRefuse]

@[simp] theorem State.pwrReject_mem (s : State) : (s.pwrReject).mem = s.mem := by simp [State.pwrReject]

@[simp] theorem State.pwrTake_mem (s : State) (goal : ℕ) (save : Bool) (len : ℕ) (mask : NSet) :
    (s.pwrTake goal save len mask).mem = s.mem := by
  simp [State.pwrTake]

@[simp] theorem State.bistRefuse_mem (s : State) (c : Core) (a : Arr) : (s.bistRefuse c a).mem = s.mem := by simp [State.bistRefuse]

@[simp] theorem State.bistRefuseAll_mem (s : State) (doms : NSet) : (s.bistRefuseAll doms).mem = s.mem := by simp [State.bistRefuseAll]

@[simp] theorem State.saveCheck_mem (s : State) (c : Core) : (s.saveCheck c).2.mem = s.mem := by simp [State.saveCheck]

@[simp] theorem State.saveCore_memOk (s : State) (c : Core) (hm : MemOk s) : MemOk (s.saveCore c) :=
  Memory.wf_copy (m := (s.saveCheck c).2.mem) _ _ _ (memOk_of_mem_eq (s.saveCheck_mem c) hm)

@[simp] theorem State.linkOff_memOk (s : State) (l : Link) (hm : MemOk s) : MemOk (s.linkOff l) := by
  unfold State.linkOff
  extract_lets t x u
  have ht : t.mem = s.mem := by simp only [t]; split <;> simp
  have hu : MemOk u := memOk_of_mem_eq ((State.setLink_mem _ _ _).trans ht) hm
  split
  · exact State.linkGone_memOk _ _ _ hu
  · exact hu

@[simp] theorem State.domOff_memOk (s : State) (goal : ℕ) (d : ℕ) (hm : MemOk s) : MemOk (s.domOff goal d) := by
  unfold State.domOff
  extract_lets s1 keep
  have h1 : MemOk s1 := memOk_of_mem_eq (State.onPwr_mem _ _) hm
  clear_value s1
  split
  · simp [MemOk, h1]
  · split
    · exact h1
    · split
      · exact foldl_memOk (fun t l h => t.linkOff_memOk l h) _ (memOk_of_mem_eq (State.onPwr_mem _ _) h1)
      · split
        · simp [MemOk, h1]
        · split
          · exact h1
          · split <;> exact h1

@[simp] theorem State.wakeBegin_mem (s : State) (doms : NSet) (source : ℕ) (link : ℕ) (half : ℕ) (replay : Bool) (restore : Bool) :
    (s.wakeBegin doms source link half replay restore).mem = s.mem :=
  rfl

@[simp] theorem State.wakeNow_mem (s : State) (source : ℕ) (link : ℕ) (half : ℕ) (replay : Bool) :
    (s.wakeNow source link half replay).mem = s.mem := by
  simp [State.wakeNow]

@[simp] theorem State.wakeFire_mem (s : State) (source : ℕ) (link : ℕ) (half : ℕ) : (s.wakeFire source link half).mem = s.mem := by
  unfold State.wakeFire
  split <;> simp

@[simp] theorem State.entryDone_mem (s : State) (r : PwrReq) : (s.entryDone r).mem = s.mem := by
  unfold State.entryDone
  dsimp only
  split <;> simp

@[simp] theorem State.avsDrained_mem (s : State) : (s.avsDrained).mem = s.mem := by
  unfold State.avsDrained
  dsimp only
  (repeat' split) <;> simp

@[simp] theorem State.offDone_mem (s : State) (r : PwrReq) : (s.offDone r).mem = s.mem := by simp [State.offDone]

@[simp] theorem State.pwrCommitted_mem (s : State) (r : PwrReq) : (s.pwrCommitted r).mem = s.mem := by simp [State.pwrCommitted]

@[simp] theorem State.domBack_mem (s : State) (d : ℕ) : (s.domBack d).mem = s.mem := by simp [State.domBack]

@[simp] theorem State.coreBack_memOk (s : State) (c : Core) (hm : MemOk s) : MemOk (s.coreBack c) := by
  unfold State.coreBack
  dsimp only
  rw [MemOk, State.setRf_mem, State.setGen_mem, State.freshEcc_mem]
  exact Memory.wf_clear _ _ hm

@[simp] theorem State.poolBack_mem (s : State) (d : ℕ) : (s.poolBack d).mem = s.mem := by simp [State.poolBack]

@[simp] theorem State.wakeDone_memOk (s : State) (w : PwrWake) (hm : MemOk s) : MemOk (s.wakeDone w) := by
  unfold State.wakeDone
  extract_lets was s1 s2 s3 s4 s5 held _ s6 cores s7
  have h2 : MemOk s2 := foldl_memOk (fun t c h => t.coreBack_memOk c h) _ (memOk_of_mem_eq (State.onPwr_mem _ _) hm)
  clear_value s2
  have h5 : s5.mem = s2.mem := by simp [s5, s4, s3]
  have h6 : s6.mem = s5.mem := by simp [s6]
  have h7 : s7.mem = s6.mem := by simp [s7]
  exact memOk_of_mem_eq (by rw [State.noticePkt_mem, h7, h6, h5]) h2

@[simp] theorem State.wakeStep_memOk (s : State) (w : PwrWake) (hm : MemOk s) : MemOk (s.wakeStep w) := by simp [State.wakeStep, MemOk, hm]

@[simp] theorem State.restoreCore_memOk (s : State) (c : Core) (failed : List ℕ) (hm : MemOk s) : MemOk (s.restoreCore c failed) :=
  Memory.wf_copy _ _ _ hm

@[simp] theorem State.opMove_mem (s : State) : (s.opMove).mem = s.mem := by simp [State.opMove]

@[simp] theorem State.padRelease_mem (s : State) (v : W64) : (s.padRelease v).mem = s.mem := by simp [State.padRelease]

/-! ### ExecPower -/

@[simp] theorem State.pwrActive_mem (s : State) (who : Writer) : (s.pwrActive who).mem = s.mem := by
  unfold State.pwrActive
  (repeat' split) <;> simp

@[simp] theorem State.pwrWrite_mem (s : State) (v : W64) (who : Writer) : (s.pwrWrite v who).mem = s.mem := by simp [State.pwrWrite]

theorem execPwrReqActive_nextOk (who : Writer) (s : State) (hm : MemOk s) : NextOk (execPwrReqActive who s) := by
  unfold execPwrReqActive
  refine State.live_nextOk hm ?_
  simp [MemOk, hm]

theorem execPwrReqIdle_nextOk (s : State) (hm : MemOk s) : NextOk (execPwrReqIdle s) := by
  unfold execPwrReqIdle
  refine State.live_nextOk hm ?_
  simp [MemOk, hm]

theorem execPwrReqNap_nextOk (len : W32) (s : State) (hm : MemOk s) : NextOk (execPwrReqNap len s) := by
  unfold execPwrReqNap
  refine State.live_nextOk hm ?_
  simp [MemOk, hm]

theorem execPwrReqBivouac_nextOk (save : Bool) (len : W32) (s : State) (hm : MemOk s) : NextOk (execPwrReqBivouac save len s) := by
  unfold execPwrReqBivouac
  refine State.live_nextOk hm ?_
  simp [MemOk, hm]

theorem execPwrReqWatch_nextOk (save : Bool) (len : W32) (s : State) (hm : MemOk s) : NextOk (execPwrReqWatch save len s) := by
  unfold execPwrReqWatch
  refine State.live_nextOk hm ?_
  simp [MemOk, hm]

theorem execDomainQuery_nextOk (s : State) (hm : MemOk s) : NextOk (execDomainQuery s) := by
  unfold execDomainQuery
  refine State.live_nextOk hm ?_
  (repeat' split) <;> simp [MemOk, hm]

theorem execDelayLimExpiry_nextOk (s : State) (hm : MemOk s) : NextOk (execDelayLimExpiry s) := by
  unfold execDelayLimExpiry
  refine State.live_nextOk hm ?_
  split
  · split
    · next ht =>
      split
      · exact nextOk_of_mem_eq (State.pwrRefuse_mem _ _ _) (State.reachBy_memOk hm ht)
      · exact (nextOk_next _).mpr (State.reachBy_memOk hm ht)
    · exact (nextOk_next s).mpr hm
  · exact (nextOk_next s).mpr hm

theorem execPwrCommit_nextOk (s : State) (hm : MemOk s) : NextOk (execPwrCommit s) := by
  unfold execPwrCommit
  refine State.live_nextOk hm ?_
  (repeat' split) <;> simp [MemOk, hm]

theorem execSaveDone_nextOk (s : State) (hm : MemOk s) : NextOk (execSaveDone s) := by
  have hf : MemOk ((List.finRange 48).foldl (fun s c => s.saveCore c) s) :=
    foldl_memOk_of_eq (fun t c u h hu => hu ▸ t.saveCore_memOk c h) _ hm
  unfold execSaveDone
  refine State.live_nextOk hm ?_
  split
  · refine nextOk_ite ?_ ((nextOk_next s).mpr hm)
    generalize (List.finRange 48).foldl (fun s c => s.saveCore c) s = t at hf
    refine (nextOk_next _).mpr ?_
    rw [MemOk, ite_mem, State.offDone_mem, State.onPwr_mem, ite_self]
    exact hf
  · exact (nextOk_next s).mpr hm

theorem execOffStep_nextOk (s : State) (hm : MemOk s) : NextOk (execOffStep s) := by
  unfold execOffStep
  refine State.live_nextOk hm ?_
  split
  · split
    · extract_lets s1
      have h1 : MemOk s1 := foldl_memOk_of_eq (fun t d u h hu => hu ▸ t.domOff_memOk _ d h) _ hm
      clear_value s1
      refine (nextOk_next _).mpr ?_
      rw [MemOk, ite_mem, State.offDone_mem, State.onPwr_mem, ite_self]
      exact h1
    · exact (nextOk_next s).mpr hm
  · exact (nextOk_next s).mpr hm

theorem execAvsAck_nextOk (s : State) (hm : MemOk s) : NextOk (execAvsAck s) := by
  unfold execAvsAck
  refine State.live_nextOk hm ?_
  (repeat' split) <;> simp [MemOk, hm]

@[simp] theorem State.avsGiveUp_mem (s : State) (q : AvsReq) (rest : List AvsReq) : (s.avsGiveUp q rest).mem = s.mem := by
  unfold State.avsGiveUp
  dsimp only
  split <;> simp

theorem execAvsTimeout_nextOk (s : State) (hm : MemOk s) : NextOk (execAvsTimeout s) := by
  unfold execAvsTimeout
  refine State.live_nextOk hm ?_
  split
  · exact (nextOk_next _).mpr (State.reachBy_elim_memOk _ (fun t h => memOk_of_mem_eq (t.avsGiveUp_mem _ _) h) hm)
  · exact (nextOk_next s).mpr hm

theorem execWakeDet_nextOk (l : Link) (s : State) (hm : MemOk s) : NextOk (execWakeDet l s) := by
  unfold execWakeDet
  refine State.live_nextOk hm ?_
  (repeat' split) <;> simp [MemOk, hm]

theorem execWakeNLow_nextOk (s : State) (hm : MemOk s) : NextOk (execWakeNLow s) := by
  unfold execWakeNLow
  refine State.live_nextOk hm ?_
  (repeat' split) <;> simp [MemOk, hm]

theorem execNzIdleExit_nextOk (h : Half) (s : State) (hm : MemOk s) : NextOk (execNzIdleExit h s) := by
  unfold execNzIdleExit
  refine State.live_nextOk hm ?_
  (repeat' split) <;> simp [MemOk, hm]

theorem execWakePitch_nextOk (s : State) (hm : MemOk s) : NextOk (execWakePitch s) := by
  unfold execWakePitch
  refine State.live_nextOk hm ?_
  dsimp only
  (repeat' split) <;> simp [MemOk, hm]

theorem execTempWake_nextOk (temp : BitVec 16) (s : State) (hm : MemOk s) : NextOk (execTempWake temp s) := by
  unfold execTempWake
  refine State.live_nextOk hm ?_
  (repeat' split) <;> simp [MemOk, hm]

theorem execRailWake_nextOk (aon vio : BitVec 16) (s : State) (hm : MemOk s) : NextOk (execRailWake aon vio s) := by
  unfold execRailWake
  refine State.live_nextOk hm ?_
  (repeat' split) <;> simp [MemOk, hm]

@[simp] theorem State.watchLook_mem (s : State) (smp : Sample) : (s.watchLook smp).mem = s.mem := by
  unfold State.watchLook
  dsimp only
  split <;> simp

theorem execWatchSample_nextOk (smp : Sample) (s : State) (hm : MemOk s) : NextOk (execWatchSample smp s) := by
  unfold execWatchSample
  refine State.live_nextOk hm (nextOk_ite ((nextOk_next _).mpr ?_) ((nextOk_next s).mpr hm))
  exact State.reachBy_elim_memOk _ (fun t h => memOk_of_mem_eq (t.watchLook_mem _) h) hm

theorem execWakeStep_nextOk (s : State) (hm : MemOk s) : NextOk (execWakeStep s) := by
  unfold execWakeStep
  refine State.live_nextOk hm ?_
  (repeat' split) <;> simp [MemOk, hm]

theorem execRestoreDone_nextOk (failed : List (Core × ℕ)) (s : State) (hm : MemOk s) : NextOk (execRestoreDone failed s) := by
  unfold execRestoreDone
  refine State.live_nextOk hm ?_
  split
  · refine nextOk_ite ?_ ((nextOk_next s).mpr hm)
    extract_lets lost s1 s2 s3 s4
    have h1 : MemOk s1 := foldl_memOk_of_eq (fun t a u h hu => hu ▸ memOk_of_mem_eq (t.memEcc_mem a) h) _ hm
    clear_value s1
    have h2 : MemOk s2 := foldl_memOk_of_eq (fun t c u h hu => hu ▸ t.restoreCore_memOk c _ h) _ h1
    clear_value s2
    have h3 : MemOk s3 := memOk_of_mem_eq (State.bumpHi_mem _ _ _) h2
    clear_value s3
    have h4 : MemOk s4 := by
      generalize hs : s4 = v
      unfold s4 at hs
      clear_value lost
      split at hs
      · rw [← hs, MemOk, State.raise_mem]
        exact h3
      · exact hs ▸ h3
    clear_value s4
    exact nextOk_of_mem_eq (State.onPwr_mem _ _) h4
  · exact (nextOk_next s).mpr hm

theorem execPwrPadRelease_nextOk (v : W64) (s : State) (hm : MemOk s) : NextOk (execPwrPadRelease v s) := by
  unfold execPwrPadRelease
  refine State.live_nextOk hm ?_
  simp [MemOk, hm]

theorem execUngate_nextOk (d : Dom) (s : State) (hm : MemOk s) : NextOk (execUngate d s) := by
  unfold execUngate
  refine State.live_nextOk hm ?_
  (repeat' split) <;> simp [MemOk, hm]

theorem execOpChange_nextOk (op : BitVec 2) (s : State) (hm : MemOk s) : NextOk (execOpChange op s) := by
  unfold execOpChange
  refine State.live_nextOk hm ?_
  simp [MemOk, hm]

theorem execThermalStep_nextOk (temp : BitVec 16) (s : State) (hm : MemOk s) : NextOk (execThermalStep temp s) := by
  unfold execThermalStep
  refine State.live_nextOk hm ?_
  dsimp only
  (repeat' split) <;> simp [MemOk, hm]

/-! ### ExecSieve -/

theorem execDispResume_nextOk (c : Core) (waited : ℕ) (s : State) (hm : MemOk s) : NextOk (execDispResume c waited s) := by
  unfold execDispResume
  refine State.live_nextOk hm ?_
  split
  · refine (nextOk_next _).mpr (State.settle_memOk _ _ (State.sieveAdvance_memOk _ _ _ (State.dispRun_memOk _ _ _ _ ?_)))
    exact memOk_of_mem_eq (State.bumpLo_mem _ _ _) hm
  · exact (nextOk_next s).mpr hm

theorem execSieveJobStart_nextOk (c : Core) (dealWait bankWait resWait : ℕ) (s : State) (hm : MemOk s) :
    NextOk (execSieveJobStart c dealWait bankWait resWait s) := by
  unfold execSieveJobStart
  refine State.live_nextOk hm ?_
  extract_lets +onlyGivenNames v
  refine nextOk_ite ?_ ((nextOk_next s).mpr hm)
  split
  · extract_lets s1
    have h1 : MemOk s1 := memOk_of_mem_eq ((State.bumpHi_mem _ _ _).trans ((State.bumpLo_mem _ _ _).trans (State.bumpHi_mem _ _ _))) hm
    clear_value s1
    exact (nextOk_next _).mpr (State.settle_memOk _ _ (State.sieveAdvance_memOk _ _ _ (State.runSieveJob_memOk _ _ _ h1)))
  · exact (nextOk_next s).mpr hm

theorem execMergeTileClose_nextOk (c : Core) (waited : ℕ) (s : State) (hm : MemOk s) : NextOk (execMergeTileClose c waited s) := by
  unfold execMergeTileClose
  refine State.live_nextOk hm ?_
  extract_lets +onlyGivenNames v
  split
  · extract_lets +onlyGivenNames s1
    have h1 : MemOk s1 := by
      refine memOk_of_mem_eq (State.mergeFill_mem _ _) (State.closeMerge_memOk _ _ _ ?_)
      exact memOk_of_mem_eq ((State.setSieve_mem _ _ _).trans (State.bumpLo_mem _ _ _)) hm
    clear_value s1
    refine nextOk_ite ?_ ((nextOk_next _).mpr h1)
    extract_lets v1 s2
    have h2 : MemOk s2 := by
      generalize hs : s2 = u
      unfold s2 at hs
      split at hs
      · rw [← hs, MemOk, State.guardDone_mem, State.setSieve_mem]
        exact h1
      · exact hs ▸ h1
    clear_value s2
    exact (nextOk_next _).mpr (State.settle_memOk _ _ (State.sieveAdvance_memOk _ _ _ h2))
  · exact (nextOk_next s).mpr hm

theorem execTileOutputWrite_nextOk (c : Core) (s : State) (hm : MemOk s) : NextOk (execTileOutputWrite c s) := by
  unfold execTileOutputWrite
  refine State.live_nextOk hm ?_
  extract_lets +onlyGivenNames x
  split
  · extract_lets s1 s2
    have h1 : MemOk s1 := State.put_memOk _ _ _ _ (State.put_memOk _ _ _ _ hm)
    clear_value s1
    have h2 : MemOk s2 := by
      generalize hs : s2 = v
      unfold s2 at hs
      split at hs
      · rw [← hs, MemOk, State.setFlag_mem]
        exact h1
      · exact hs ▸ h1
    clear_value s2
    exact (nextOk_next _).mpr (s2.settle_memOk c h2)
  · exact (nextOk_next s).mpr hm

theorem execVecAmaxWrite_nextOk (c : Core) (n : Fin 4) (v : W64) (s : State) (hm : MemOk s) : NextOk (execVecAmaxWrite c n v s) := by
  unfold execVecAmaxWrite
  refine State.live_nextOk hm ?_
  refine State.ifOn_nextOk _ ?_ hm
  simp [MemOk, hm]

/-! ### Governor -/

@[simp] theorem State.setGovQueue_mem (s : State) (d : ℕ) (l : List W64) : (s.setGovQueue d l).mem = s.mem := rfl

@[simp] theorem State.govRequest_mem (s : State) (d : Die) (v : W64) : (s.govRequest d v).mem = s.mem := by simp [State.govRequest]

@[simp] theorem State.govFlag_mem (s : State) (v : W64) : (s.govFlag v).mem = s.mem := by unfold State.govFlag; split <;> simp

@[simp] theorem State.govClear_mem (s : State) (d : Die) (v : W64) (r : GovRec) : (s.govClear d v r).mem = s.mem := by
  unfold State.govClear
  (repeat' split) <;> simp

@[simp] theorem State.govRun_memOk (s : State) (d : Die) (v : W64) (hm : MemOk s) : MemOk (s.govRun d v) := by
  unfold State.govRun
  extract_lets base w u s1 r bad
  have hu : MemOk u.2 := by simp only [u]; split <;> simp [MemOk, hm]
  have h1 : MemOk s1 := hu
  clear_value s1
  split
  · exact hu
  · split
    · exact memOk_of_mem_eq (by simp) h1
    · split
      · exact h1
      · dsimp only
        refine memOk_of_mem_eq (s := (s1.bumpLo (rGovCnt d.val 0) 1).wrLocal base _)
          ((State.govClear_mem _ _ _ _).trans (State.govFlag_mem _ _)) ?_
        exact State.wrLocal_memOk _ _ _ (memOk_of_mem_eq (State.bumpLo_mem _ _ _) h1)

theorem execMonGovrun_nextOk (d : Die) (v : W64) (s : State) (hm : MemOk s) : NextOk (execMonGovrun d v s) := by
  unfold execMonGovrun
  refine State.live_nextOk hm ?_
  refine State.ifOn_nextOk _ ?_ hm
  simp [MemOk, hm]

theorem execGovernorRun_nextOk (d : Die) (s : State) (hm : MemOk s) : NextOk (execGovernorRun d s) := by
  unfold execGovernorRun
  refine State.live_nextOk hm ?_
  (repeat' split) <;> simp [MemOk, hm]

/-! ### NzLink -/

@[simp] theorem State.halfGone_memOk (s : State) (h : Half) (hm : MemOk s) : MemOk (s.halfGone h) := by simp [State.halfGone, MemOk, hm]

@[simp] theorem State.nzAskRekey_memOk (s : State) (h : Half) (hm : MemOk s) : MemOk (s.nzAskRekey h) := by
  simp [State.nzAskRekey, MemOk, hm]

@[simp] theorem State.halfRecord_memOk (s : State) (h : Half) (hm : MemOk s) : MemOk (s.halfRecord h) := by
  simp [State.halfRecord, MemOk, hm]

@[simp] theorem State.nzResend_memOk (s : State) (h : Half) (hm : MemOk s) : MemOk (s.nzResend h) := by simp [State.nzResend, MemOk, hm]

@[simp] theorem State.nzRetrain_memOk (s : State) (h : Half) (hm : MemOk s) : MemOk (s.nzRetrain h) := by simp [State.nzRetrain, MemOk, hm]

@[simp] theorem State.nzRekey_memOk (s : State) (h : Half) (hm : MemOk s) : MemOk (s.nzRekey h) := by simp [State.nzRekey, MemOk, hm]

theorem execNzRetrain_nextOk (h : Half) (s : State) (hm : MemOk s) : NextOk (execNzRetrain h s) := by
  unfold execNzRetrain
  refine State.live_nextOk hm ?_
  refine State.ifOn_nextOk _ ?_ hm
  simp [MemOk, hm]

theorem execNzRekey_nextOk (h : Half) (s : State) (hm : MemOk s) : NextOk (execNzRekey h s) := by
  unfold execNzRekey
  refine State.live_nextOk hm ?_
  refine State.ifOn_nextOk _ ?_ hm
  simp [MemOk, hm]

theorem execHalfDown_nextOk (h : Half) (s : State) (hm : MemOk s) : NextOk (execHalfDown h s) := by
  unfold execHalfDown
  refine State.live_nextOk hm ?_
  (repeat' split) <;> simp [MemOk, hm]

theorem execNzKeying_nextOk (h : Half) (compKey compSig : List Byte) (s : State) (hm : MemOk s) :
    NextOk (execNzKeying h compKey compSig s) := by
  unfold execNzKeying
  refine State.live_nextOk hm ?_
  dsimp only
  (repeat' split) <;> simp [MemOk, hm]

theorem execRecordClose_nextOk (e : LinkEnd) (s : State) (hm : MemOk s) : NextOk (execRecordClose e s) := by
  unfold execRecordClose
  refine State.live_nextOk hm ?_
  (repeat' split) <;> simp [MemOk, hm]

theorem execLinkRetrainTimer_nextOk (e : LinkEnd) (s : State) (hm : MemOk s) : NextOk (execLinkRetrainTimer e s) := by
  unfold execLinkRetrainTimer
  refine State.live_nextOk hm ?_
  split
  · exact nextOk_of_mem_eq (s.linkTimer_mem _) hm
  · refine (nextOk_next _).mpr ?_
    split
    · exact State.linkOver_elim_memOk _ _ (fun t h => memOk_of_mem_eq (t.halfTo_mem _ _) h) hm
    · exact hm

theorem execTrainingDone_nextOk (e : LinkEnd) (x4 laneHi half : Bool) (s : State) (hm : MemOk s) :
    NextOk (execTrainingDone e x4 laneHi half s) := by
  unfold execTrainingDone
  refine State.live_nextOk hm ?_
  (repeat' split) <;> simp [MemOk, hm]

theorem execTrainingTimeout_nextOk (e : LinkEnd) (s : State) (hm : MemOk s) : NextOk (execTrainingTimeout e s) := by
  unfold execTrainingTimeout
  refine State.live_nextOk hm ?_
  split
  · exact nextOk_of_mem_eq (s.linkTimeout_mem _) hm
  · refine (nextOk_next _).mpr ?_
    split
    · exact State.linkOver_elim_memOk _ _ (fun t h => memOk_of_mem_eq (t.halfTo_mem _ _) h) hm
    · exact hm

end Sys2Proof.Machine
end

section
/-! The form of memory (O5): time, resets and flash, the enclave, self-test and monitors. -/
namespace Sys2Proof.Machine

/-! ### Time -/

@[simp] theorem State.stepTime_mem (s : State) (t : ℕ) : (s.stepTime t).mem = s.mem := rfl

@[simp] theorem State.tbBad_mem (s : State) : (s.tbBad).mem = s.mem := by simp [State.tbBad]

@[simp] theorem State.timeset_mem (s : State) (v : W64) : (s.timeset v).mem = s.mem := by unfold State.timeset; (repeat' split) <;> simp

theorem execTbTimeset_nextOk (v : W64) (s : State) (hm : MemOk s) : NextOk (execTbTimeset v s) := by
  unfold execTbTimeset
  refine State.live_nextOk hm ?_
  simp [MemOk, hm]

@[simp] theorem State.refLost_mem (s : State) : (s.refLost).mem = s.mem := by simp [State.refLost]

theorem execSyncInEdge_nextOk (now : W64) (s : State) (hm : MemOk s) : NextOk (execSyncInEdge now s) := by
  unfold execSyncInEdge
  refine State.live_nextOk hm ?_
  dsimp only
  (repeat' split) <;> simp [MemOk, hm]

theorem execTimeLock_nextOk (s : State) (hm : MemOk s) : NextOk (execTimeLock s) := by
  unfold execTimeLock
  refine State.live_nextOk hm ?_
  dsimp only
  (repeat' split) <;> simp [MemOk, hm]

theorem execRefLost_nextOk (why : RefLoss) (s : State) (hm : MemOk s) : NextOk (execRefLost why s) := by
  unfold execRefLost
  refine State.live_nextOk hm ?_
  (repeat' split) <;> simp [MemOk, hm]

theorem execHoldoverExpiry_nextOk (s : State) (hm : MemOk s) : NextOk (execHoldoverExpiry s) := by
  unfold execHoldoverExpiry
  refine State.live_nextOk hm (nextOk_ite ?_ ((nextOk_next s).mpr hm))
  split
  · next t ht => exact nextOk_of_mem_eq ((State.raise_mem _ _ _ _ _).trans (State.onTb_mem _ _)) (State.reachBy_memOk hm ht)
  · exact (nextOk_next s).mpr hm

@[simp] theorem State.sendTime_mem (s : State) (l : Link) (body : List Byte) : (s.sendTime l body).mem = s.mem := rfl

theorem execTimeRequest_nextOk (t1 : W64) (s : State) (hm : MemOk s) : NextOk (execTimeRequest t1 s) := by
  unfold execTimeRequest
  refine State.live_nextOk hm ?_
  (repeat' split) <;> simp [MemOk, hm]

theorem execTimeRequestReceive_nextOk (l : Link) (t2 t3 : W64) (s : State) (hm : MemOk s) : NextOk (execTimeRequestReceive l t2 t3 s) := by
  unfold execTimeRequestReceive
  refine State.live_nextOk hm ?_
  (repeat' split) <;> simp [MemOk, hm]

@[simp] theorem State.monOffset_mem (s : State) (v : ℤ) : (s.monOffset v).mem = s.mem := by simp [State.monOffset]

theorem execTimeReply_nextOk (t1 t2 t3 t4 : W64) (state : BitVec 3) (depth : BitVec 4) (s : State) (hm : MemOk s) :
    NextOk (execTimeReply t1 t2 t3 t4 state depth s) := by
  unfold execTimeReply
  refine State.live_nextOk hm ?_
  (repeat' split) <;> simp [MemOk, hm]

theorem execSyncOutPulse_nextOk (s : State) (hm : MemOk s) : NextOk (execSyncOutPulse s) := by
  unfold execSyncOutPulse
  refine State.live_nextOk hm (nextOk_ite ?_ ((nextOk_next s).mpr hm))
  split
  · next t ht => exact nextOk_of_mem_eq (State.onTb_mem _ _) (State.reachBy_memOk hm ht)
  · exact (nextOk_next s).mpr hm

/-! ### Flash -/

@[simp] theorem State.onBoot_mem (s : State) (f : BootSt → BootSt) : (s.onBoot f).mem = s.mem := rfl

@[simp] theorem State.onSec_mem (s : State) (f : SecSt → SecSt) : (s.onSec f).mem = s.mem := rfl

@[simp] theorem State.flashPut_mem (s : State) (a : ℕ) (bs : List Byte) : (s.flashPut a bs).mem = s.mem := by
  rw [State.flashPut, State.onBoot_mem]

@[simp] theorem State.flashErase_mem (s : State) (a : ℕ) (n : ℕ) : (s.flashErase a n).mem = s.mem := rfl

@[simp] theorem State.flashSmear_mem (s : State) (a : ℕ) (n : ℕ) : (s.flashSmear a n).mem = s.mem := by
  rw [State.flashSmear, State.tick_mem, State.flashPut_mem]

@[simp] theorem State.imageCheck_mem (s : State) (key : List Byte) (digest : List Byte) (sig : List Byte) (version : ℕ) :
    (s.imageCheck key digest sig version).2.mem = s.mem :=
  (s.imageCheck_recorded key digest sig version).mem

@[simp] theorem State.flashReset_mem (s : State) : (s.flashReset).mem = s.mem := by unfold State.flashReset; split <;> simp

@[simp] theorem State.clearAll_memOk (s : State) : MemOk s.clearAll := Memory.wf_nil

@[simp] theorem State.resetN_memOk (s : State) : MemOk s.resetN := s.clearAll_memOk

theorem execPorNAssert_nextOk (s : State) : NextOk (execPorNAssert s) := (nextOk_next _).mpr s.clearAll_memOk

theorem execResetNAssert_nextOk (s : State) : NextOk (execResetNAssert s) := (nextOk_next _).mpr s.resetN_memOk

@[simp] theorem State.disableAll_mem (s : State) : (s.disableAll).mem = s.mem := by simp [State.disableAll]

@[simp] theorem State.recover_memOk (s : State) (hm : MemOk s) : MemOk s.recover := by
  unfold State.recover
  extract_lets s1 s2 s3
  have h2 : MemOk s2 := by
    rw [MemOk, State.onTb_mem, State.onBoot_mem, State.disableAll_mem]
    exact hm
  clear_value s2
  have h3 : MemOk s3 := foldl_memOk_of_eq (fun t l u h hu => hu ▸ t.linkOff_memOk l h) _ h2
  clear_value s3
  exact foldl_memOk_of_eq (fun t h u ht hu => hu ▸ memOk_of_mem_eq (t.halfStart_mem h) ht) _ h3

@[simp] theorem State.slotReason_mem (s : State) (k : ℕ) (reason : ℕ) : (s.slotReason k reason).mem = s.mem := rfl

@[simp] theorem State.bootFail_memOk (s : State) (hm : MemOk s) : MemOk (s.bootFail) := by simp [State.bootFail, MemOk, hm]

@[simp] theorem State.flashRefuse_mem (s : State) : (s.flashRefuse).mem = s.mem := by simp [State.flashRefuse]

@[simp] theorem State.flashCmd_mem (s : State) (code : ℕ) : (s.flashCmd code).mem = s.mem := by simp [State.flashCmd]

@[simp] theorem State.flashAt_mem (s : State) (paddr : BitVec 30) (code : ℕ) : (s.flashAt paddr code).mem = s.mem := by simp [State.flashAt]

theorem execErase_nextOk (paddr : BitVec 30) (s : State) (hm : MemOk s) : NextOk (execErase paddr s) := by
  unfold execErase
  refine State.live_nextOk hm ?_
  simp [MemOk, hm]

theorem execProgram_nextOk (paddr : BitVec 30) (s : State) (hm : MemOk s) : NextOk (execProgram paddr s) := by
  unfold execProgram
  refine State.live_nextOk hm ?_
  simp [MemOk, hm]

theorem execBootRead_nextOk (paddr : BitVec 30) (s : State) (hm : MemOk s) : NextOk (execBootRead paddr s) := by
  unfold execBootRead
  refine State.live_nextOk hm ?_
  simp [MemOk, hm]

theorem execVerify_nextOk (paddr : BitVec 30) (s : State) (hm : MemOk s) : NextOk (execVerify paddr s) := by
  unfold execVerify
  refine State.live_nextOk hm ?_
  simp [MemOk, hm]

@[simp] theorem State.verifySlot_mem (s : State) (k : ℕ) : (s.verifySlot k).2.mem = s.mem := by
  unfold State.verifySlot
  dsimp only
  (repeat' split) <;> simp

@[simp] theorem State.flashEnd_mem (s : State) (c : FlashRun) : (s.flashEnd c).mem = s.mem := by
  unfold State.flashEnd
  split
  · simp
  · simp
  · rw [State.tick_mem]; exact foldl_mem (by simp) _ s
  · simp

theorem execFlashCmdDone_nextOk (ok : Bool) (s : State) (hm : MemOk s) : NextOk (execFlashCmdDone ok s) := by
  unfold execFlashCmdDone
  refine State.live_nextOk hm ?_
  (repeat' split) <;> simp [MemOk, hm]

@[simp] theorem State.bootReset_memOk (s : State) (hm : MemOk s) : MemOk (s.bootReset) := by
  unfold State.bootReset
  split <;> simp [MemOk, hm]

theorem execBootReset_nextOk (s : State) (hm : MemOk s) : NextOk (execBootReset s) := by
  unfold execBootReset
  refine State.live_nextOk hm ?_
  simp [MemOk, hm]

/-! ### Security -/

@[simp] theorem State.secStore_mem (s : State) (a : ℕ) (bs : List Byte) : (s.secStore a bs).mem = s.mem := rfl

@[simp] theorem State.secRefuse_mem (s : State) (result : ℕ) : (s.secRefuse result).mem = s.mem := rfl

@[simp] theorem State.secCmd_mem (s : State) (p : SecPath) (code : ℕ) (arg : ℕ) : (s.secCmd p code arg).mem = s.mem := by
  simp [State.secCmd]

theorem execGetId_nextOk (p : SecPath) (s : State) (hm : MemOk s) : NextOk (execGetId p s) := by
  unfold execGetId
  refine State.live_nextOk hm ?_
  simp [MemOk, hm]

theorem execAttest_nextOk (p : SecPath) (s : State) (hm : MemOk s) : NextOk (execAttest p s) := by
  unfold execAttest
  refine State.live_nextOk hm ?_
  simp [MemOk, hm]

theorem execChallenge_nextOk (p : SecPath) (s : State) (hm : MemOk s) : NextOk (execChallenge p s) := by
  unfold execChallenge
  refine State.live_nextOk hm ?_
  simp [MemOk, hm]

theorem execDebugOpen_nextOk (p : SecPath) (s : State) (hm : MemOk s) : NextOk (execDebugOpen p s) := by
  unfold execDebugOpen
  refine State.live_nextOk hm ?_
  simp [MemOk, hm]

theorem execPwTry_nextOk (p : SecPath) (arg : BitVec 5) (s : State) (hm : MemOk s) : NextOk (execPwTry p arg s) := by
  unfold execPwTry
  refine State.live_nextOk hm ?_
  simp [MemOk, hm]

theorem execPwSet_nextOk (p : SecPath) (arg : BitVec 5) (s : State) (hm : MemOk s) : NextOk (execPwSet p arg s) := by
  unfold execPwSet
  refine State.live_nextOk hm ?_
  simp [MemOk, hm]

theorem execPwClear_nextOk (p : SecPath) (s : State) (hm : MemOk s) : NextOk (execPwClear p s) := by
  unfold execPwClear
  refine State.live_nextOk hm ?_
  simp [MemOk, hm]

theorem execCommitVersion_nextOk (p : SecPath) (s : State) (hm : MemOk s) : NextOk (execCommitVersion p s) := by
  unfold execCommitVersion
  refine State.live_nextOk hm ?_
  simp [MemOk, hm]

theorem execOwnSet_nextOk (p : SecPath) (s : State) (hm : MemOk s) : NextOk (execOwnSet p s) := by
  unfold execOwnSet
  refine State.live_nextOk hm ?_
  simp [MemOk, hm]

theorem execOwnClear_nextOk (p : SecPath) (s : State) (hm : MemOk s) : NextOk (execOwnClear p s) := by
  unfold execOwnClear
  refine State.live_nextOk hm ?_
  simp [MemOk, hm]

theorem execDebugClose_nextOk (p : SecPath) (s : State) (hm : MemOk s) : NextOk (execDebugClose p s) := by
  unfold execDebugClose
  refine State.live_nextOk hm ?_
  simp [MemOk, hm]

theorem execNever_nextOk (p : SecPath) (s : State) (hm : MemOk s) : NextOk (execNever p s) := by
  unfold execNever
  refine State.live_nextOk hm ?_
  simp [MemOk, hm]

@[simp] theorem State.authFail_mem (s : State) (c : SecRun) : (s.authFail c).1.mem = s.mem := by simp [State.authFail]

@[simp] theorem State.ownKeep_mem (s : State) : (s.ownKeep).mem = s.mem := rfl

@[simp] theorem State.secEnd_mem (s : State) (c : SecRun) : (s.secEnd c).1.mem = s.mem := by unfold State.secEnd; (repeat' split) <;> simp

theorem State.secEnds_mem {s : State} {c : SecRun} {t : State} (ht : s.secEnds c = some t) : t.mem = s.mem := by
  unfold State.secEnds at ht
  split at ht
  · exact State.reachBy_mem ht
  · simp at ht; rw [ht]

theorem execSecCmdDone_nextOk (s : State) (hm : MemOk s) : NextOk (execSecCmdDone s) := by
  unfold execSecCmdDone
  refine State.live_nextOk hm ?_
  split
  · exact (nextOk_next s).mpr hm
  · next c t ht =>
    obtain ⟨d, _, hd⟩ := Option.bind_eq_some_iff.mp ht
    obtain ⟨u, hu, he⟩ := Option.map_eq_some_iff.mp hd
    cases he
    exact nextOk_of_mem_eq ((State.onSec_mem _ _).trans ((State.secEnd_mem _ _).trans (State.secEnds_mem hu))) hm

theorem execNonceExpiry_nextOk (s : State) (hm : MemOk s) : NextOk (execNonceExpiry s) := by
  unfold execNonceExpiry
  refine State.live_nextOk hm ?_
  split
  · next ht =>
    obtain ⟨a, _, ha⟩ := Option.bind_eq_some_iff.mp ht
    exact nextOk_of_mem_eq (State.onSec_mem _ _) (State.reachBy_memOk hm ha)
  · exact (nextOk_next s).mpr hm

theorem execTrngFail_nextOk (s : State) (hm : MemOk s) : NextOk (execTrngFail s) := by
  unfold execTrngFail
  refine State.live_nextOk hm ?_
  (repeat' split) <;> simp [MemOk, hm]

@[simp] theorem State.secBufWrite_mem (s : State) (a : ℕ) (v : W64) : (s.secBufWrite a v).mem = s.mem := by simp [State.secBufWrite]

/-! ### SelfTest -/

@[simp] theorem State.bistReq_mem (s : State) (v : W64) : (s.bistReq v).mem = s.mem := by unfold State.bistReq; split <;> simp

theorem execFltBistreq_nextOk (v : W64) (s : State) (hm : MemOk s) : NextOk (execFltBistreq v s) := by
  unfold execFltBistreq
  refine State.live_nextOk hm ?_
  simp [MemOk, hm]

theorem execBistStart_nextOk (c : Core) (a : Arr) (s : State) (hm : MemOk s) : NextOk (execBistStart c a s) := by
  unfold execBistStart
  refine State.live_nextOk hm ?_
  simp [MemOk, hm]

@[simp] theorem State.bistFail_mem (s : State) (c : Core) (a : Arr) : (s.bistFail c a).mem = s.mem := by simp [State.bistFail]

theorem execBistDone_nextOk (c : Core) (a : Arr) (pass : Bool) (s : State) (hm : MemOk s) : NextOk (execBistDone c a pass s) := by
  unfold execBistDone
  refine State.live_nextOk hm ?_
  dsimp only
  (repeat' split) <;> simp [MemOk, hm]

theorem execBistRefuse_nextOk (c : Core) (a : Arr) (s : State) (hm : MemOk s) : NextOk (execBistRefuse c a s) := by
  unfold execBistRefuse
  refine State.live_nextOk hm ?_
  simp [MemOk, hm]

@[simp] theorem State.calReq_mem (s : State) (v : W64) : (s.calReq v).mem = s.mem := rfl

theorem execFltCalreq_nextOk (v : W64) (s : State) (hm : MemOk s) : NextOk (execFltCalreq v s) := by
  unfold execFltCalreq
  refine State.live_nextOk hm ?_
  simp [MemOk, hm]

theorem execSerdesCalDone_nextOk (links : BitVec 24) (halves : BitVec 2) (s : State) (hm : MemOk s) :
    NextOk (execSerdesCalDone links halves s) := by
  unfold execSerdesCalDone
  refine State.live_nextOk hm ?_
  simp [MemOk, hm]

theorem execFieldRestore_nextOk (f : FieldAddr) (copyOk : Bool) (s : State) (hm : MemOk s) : NextOk (execFieldRestore f copyOk s) := by
  unfold execFieldRestore
  refine State.live_nextOk hm ?_
  (repeat' split) <;> simp [MemOk, hm]

@[simp] theorem State.monCfgWrite_mem (s : State) (m : ℕ) (v : W64) : (s.monCfgWrite m v).mem = s.mem := by simp [State.monCfgWrite]

theorem execMonCfgWrite_nextOk (m : MonNo) (v : W64) (s : State) (hm : MemOk s) : NextOk (execMonCfgWrite m v s) := by
  unfold execMonCfgWrite
  refine State.live_nextOk hm ?_
  refine State.ifOn_nextOk _ ?_ hm
  simp [MemOk, hm]

theorem execMonClr_nextOk (m : MonNo) (s : State) (hm : MemOk s) : NextOk (execMonClr m s) := by
  unfold execMonClr
  refine State.live_nextOk hm ?_
  refine State.ifOn_nextOk _ ?_ hm
  simp [MemOk, hm]

theorem execMonWindowEnd_nextOk (m : MonNo) (s : State) (hm : MemOk s) : NextOk (execMonWindowEnd m s) := by
  unfold execMonWindowEnd
  refine State.live_nextOk hm ?_
  simp [MemOk, hm]

theorem execMonSample_nextOk (m : MonNo) (v : W32) (s : State) (hm : MemOk s) : NextOk (execMonSample m v s) := by
  unfold execMonSample
  refine State.live_nextOk hm ?_
  (repeat' split) <;> simp [MemOk, hm]

theorem execThermtrip_nextOk (temp : BitVec 16) (s : State) (hm : MemOk s) : NextOk (execThermtrip temp s) := by
  unfold execThermtrip
  (repeat' split) <;> simp [MemOk, hm]

theorem execVddAonLow_nextOk (s : State) : NextOk (execVddAonLow s) :=
  nextOk_of_mem_eq (State.onPwr_mem _ _) s.clearAll_memOk

theorem execRailUndervolt_nextOk (s : State) (hm : MemOk s) : NextOk (execRailUndervolt s) := by
  unfold execRailUndervolt
  refine State.live_nextOk hm ?_
  simp [MemOk]

end Sys2Proof.Machine
end

section
/-! The form of memory (O5): token dispatch, the topo, register writes, and boot. -/
namespace Sys2Proof.Machine

/-! ### XDispatch -/

@[simp] theorem State.xdBad_mem (s : State) (c : Core) (items : List ℕ) : (s.xdBad c items).mem = s.mem := by simp [State.xdBad]

@[simp] theorem State.xdFlag_mem (s : State) (c : Core) (r : BitVec 512) : (s.xdFlag c r).mem = s.mem := by simp [State.xdFlag]

@[simp] theorem State.xdSend_mem (s : State) (dev : ℕ) (head : ℕ → List Byte) (row : List Byte) : (s.xdSend dev head row).mem = s.mem := by
  simp [State.xdSend]

@[simp] theorem State.xdTaken_mem (s : State) (src : BitVec 16) (head : List Byte) : (s.xdTaken src head).mem = s.mem := rfl

@[simp] theorem State.xdRead_mem (s : State) (c : Core) (addrs : List ℕ) : (s.xdRead c addrs).2.mem = s.mem := by
  unfold State.xdRead
  dsimp only
  split <;> simp

@[simp] theorem State.xdComplete_mem (s : State) (c : Core) (g : Ctx) : (s.xdComplete c g).mem = s.mem := by
  unfold State.xdComplete
  dsimp only
  split <;> simp

@[simp] theorem State.xdReserve_mem (s : State) (c : Core) (g : Ctx) (n : ℕ) (acc : List (ℕ × ℕ)) (bad : Bool) :
    (s.xdReserve c g n acc bad).2.2.mem = s.mem := by
  induction n generalizing s acc bad with
  | zero => rfl
  | succ n ih =>
    have h := s.reservePlace_mem c g
    unfold State.xdReserve
    split <;> next ht => rw [ih]; exact mem_of_eq ht h

@[simp] theorem State.xdBegin_mem (s : State) (c : Core) (g : Ctx) : (s.xdBegin c g).mem = s.mem := by simp [State.xdBegin]

@[simp] theorem State.xdTry_mem (s : State) (c : Core) (g : Ctx) : (s.xdTry c g).mem = s.mem := by simp [State.xdTry]

@[simp] theorem State.xdStart_mem (s : State) (c : Core) (g : Ctx) : (s.xdStart c g).mem = s.mem := by simp [State.xdStart]

@[simp] theorem State.xdZero_mem (s : State) (c : Core) (g : Ctx) (p : ℕ) (busy : Bool) : (s.xdZero c g p busy).mem = s.mem := by
  simp [State.xdZero]

@[simp] theorem State.xdCount_memOk (s : State) (c : Core) (w : ℕ) (hm : MemOk s) : MemOk (s.xdCount c w) := by
  generalize hf : @State.xdCount = f
  delta State.xdCount at hf
  have ht := congrFun (congrFun (congrFun hf s) c) w
  generalize f s c w = t at ht ⊢
  extract_lets a r x n y s1 walk gone bits heads counts s2 s3 s4 at ht
  have hx : MemOk x.2 := by
    rw [MemOk, State.xdRead_mem]
    exact hm
  have h1 : MemOk s1 := by
    rw [MemOk, State.xdRead_mem]
    exact hx
  have h2 : MemOk s2 := by
    rw [MemOk, State.bumpLo_mem, State.bumpLo_mem]
    exact s1.put_memOk _ _ _ h1
  clear_value s2
  have h3 : MemOk s3 := by
    generalize hs : s3 = v
    unfold s3 at hs
    generalize walk.bad = l at hs
    cases l with
    | nil => exact hs ▸ h2
    | cons b l =>
      rw [← hs, MemOk, State.raise_mem]
      exact h2
  clear_value s3
  have h4 : MemOk s4 := by
    refine foldl_memOk_of_eq (fun t p u h hu => ?_) _ h3
    rw [← hu, MemOk, State.xdSend_mem]
    exact h
  clear_value s4
  split at ht
  · exact ht ▸ hx
  · split at ht
    · rw [← ht, MemOk, State.xdBad_mem]
      exact hx
    · split at ht
      · exact ht ▸ h1
      · rw [← ht, MemOk, State.xdFlag_mem, State.onCore_mem]
        exact h4

@[simp] theorem State.countTaken_mem (s : State) (c : Core) (g : Ctx) (rank : ℕ) : (s.countTaken c g rank).mem = s.mem := rfl

theorem execXdCountReceive_nextOk (c : Core) (g : Ctx) (rank : BitVec 16) (m : XdCount) (s : State) (hm : MemOk s) :
    NextOk (execXdCountReceive c g rank m s) := by
  unfold execXdCountReceive
  refine State.live_nextOk hm ?_
  dsimp only
  (repeat' split) <;> simp [MemOk, hm]

@[simp] theorem State.xdSendRow_mem (s : State) (c : Core) (r : BitVec 512) (pitch : ℕ) (e : ℕ × ℕ × ℕ) :
    (s.xdSendRow c r pitch e).mem = s.mem := by
  simp [State.xdSendRow]

@[simp] theorem State.xdRows_mem (s : State) (c : Core) : (s.xdRows c).mem = s.mem := by simp [State.xdRows]

theorem execXdispRows_nextOk (c : Core) (s : State) (hm : MemOk s) : NextOk (execXdispRows c s) := by
  unfold execXdispRows
  refine State.live_nextOk hm ?_
  simp [MemOk, hm]

@[simp] theorem State.xdDropRow_mem (s : State) (c : Core) : (s.xdDropRow c).mem = s.mem := rfl

@[simp] theorem State.xdLateRow_mem (s : State) (c : Core) (g : Ctx) (rank : ℕ) (link : ℕ) : (s.xdLateRow c g rank link).mem = s.mem := by
  simp [State.xdLateRow]

@[simp] theorem State.xdPut_memOk (s : State) (c : Core) (at' : ℕ → ℕ) (row : List Byte) (hm : MemOk s) : MemOk (s.xdPut c at' row) := by
  unfold State.xdPut
  refine foldl_memOk_of_eq (fun t q u h hu => ?_) _ hm
  rw [← hu]
  exact t.put_memOk _ _ _ h

@[simp] theorem State.xdLand_memOk (s : State) (c : Core) (g : Ctx) (x : XdRecv) (o : ℕ) (row : List Byte) (hm : MemOk s) :
    MemOk (s.xdLand c g x o row) := by
  unfold State.xdLand
  (repeat' split) <;> simp [MemOk, hm]

theorem execXdRowReceive_nextOk (c : Core) (g : Ctx) (rank : BitVec 16) (j : ℕ) (srcDev : BitVec 16) (srcCore : BitVec 6)
    (entry : BitVec 20) (row : List Byte) (s : State) (hm : MemOk s) : NextOk (execXdRowReceive c g rank j srcDev srcCore entry row s) := by
  unfold execXdRowReceive
  refine State.live_nextOk hm ?_
  extract_lets +onlyGivenNames head link taken
  have htk : MemOk taken := memOk_of_mem_eq (State.xdTaken_mem _ _ _) hm
  clear_value taken
  refine nextOk_ite (nextOk_of_mem_eq (State.xdDropRow_mem _ _) htk) ?_
  extract_lets +onlyGivenNames t x
  have ht : MemOk t := memOk_of_mem_eq (State.xdStart_mem _ _ _) htk
  clear_value t
  have hl : NextOk (.next (t.xdLateRow c g rank.toNat link)) := nextOk_of_mem_eq (State.xdLateRow_mem _ _ _ _ _) ht
  split
  · extract_lets +onlyGivenNames o
    refine nextOk_ite ((nextOk_next _).mpr ht) ?_
    extract_lets item u
    generalize hu : u = v
    unfold u at hu
    have hv : MemOk v := by
      rw [← hu]
      exact State.put_memOk _ _ _ _ (State.xdLand_memOk _ _ _ _ _ _ ht)
    exact (nextOk_next _).mpr (State.settle_memOk _ _ (memOk_of_mem_eq ((State.xdComplete_mem _ _ _).trans (State.onCore_mem _ _ _)) hv))
  · exact nextOk_ite ((nextOk_next _).mpr hm) hl
  · exact hl

@[simp] theorem State.onXsrc_mem (s : State) (c : Core) (w : ℕ) (f : XdSrc → XdSrc) : (s.onXsrc c w f).mem = s.mem := rfl

@[simp] theorem State.xdOver_mem (s : State) (c : Core) (x : XdSrc) : (s.xdOver c x).mem = s.mem := by simp [State.xdOver]

@[simp] theorem State.xdRetEnd_mem (s : State) (c : Core) (w : ℕ) : (s.xdRetEnd c w).mem = s.mem := by unfold State.xdRetEnd; split <;> simp

@[simp] theorem State.xdSendBack_mem (s : State) (c : Core) (g : Ctx) (rw : ℕ) (o : ℕ) : (s.xdSendBack c g rw o).mem = s.mem := by
  simp [State.xdSendBack]

theorem State.xdSendBacks_mem (s : State) (c : Core) (g : Ctx) (rw : ℕ) (l : List ℕ) :
    (l.foldl (fun s o => s.xdSendBack c g rw o) s).mem = s.mem := by
  refine foldl_mem_of_eq (fun t o u hu => ?_) _ _
  rw [← hu, State.xdSendBack_mem]

theorem State.xdZeros_memOk {s : State} (r : BitVec 512) (l : List ℕ) (zero : List Byte) (hm : MemOk s) :
    MemOk (l.foldl (fun s n => s.put 14 (Xd.ret r + 64 * n * Xd.pitch r) zero) s) := by
  refine foldl_memOk_of_eq (fun t n u h hu => ?_) _ hm
  rw [← hu]
  exact t.put_memOk _ _ _ h

@[simp] theorem State.xdReturn_memOk (s : State) (c : Core) (w : ℕ) (hm : MemOk s) : MemOk (s.xdReturn c w) := by
  generalize hf : @State.xdReturn = f
  delta State.xdReturn at hf
  have ht := congrFun (congrFun (congrFun hf s) c) w
  generalize f s c w = t at ht ⊢
  extract_lets a r rd s1 at ht
  have h1 : MemOk s1 := by
    refine foldl_memOk_of_eq (fun t g u h hu => ?_) _ ?_
    · extract_lets x n lim s2 at hu
      have h2 : s2.mem = t.mem := by
        generalize hs : s2 = v
        unfold s2 at hs
        split at hs <;> rw [← hs]
        rw [State.xdSendBacks_mem]
      clear_value s2
      rw [← hu, MemOk, State.onCore_mem, h2]
      exact h
    · rw [MemOk, State.onCore_mem, State.xdRead_mem]
      exact hm
  clear_value s1
  generalize (s1.core c).xsrc.find? (fun x => x.word == w) = o at ht
  cases o with
  | none => exact ht ▸ h1
  | some x =>
    rw [← ht, MemOk, State.xdRetEnd_mem, State.onXsrc_mem]
    exact State.xdZeros_memOk _ _ _ h1

@[simp] theorem State.returnTaken_mem (s : State) (c : Core) (entry : ℕ) (rank : ℕ) (pitch : ℕ) :
    (s.returnTaken c entry rank pitch).mem = s.mem :=
  rfl

theorem execXdReturnReceive_nextOk (c : Core) (e : XdEntry) (row : List Byte) (s : State) (hm : MemOk s) :
    NextOk (execXdReturnReceive c e row s) := by
  unfold execXdReturnReceive
  refine State.live_nextOk hm ?_
  dsimp only
  (repeat' split) <;> simp [MemOk, hm]

@[simp] theorem State.xdRetExpire_mem (s : State) (c : Core) : (s.xdRetExpire c).mem = s.mem := by simp [State.xdRetExpire]

@[simp] theorem State.xrxWrite_mem (s : State) (c : Core) (g : Ctx) (b : Bool) (v : W64) : (s.xrxWrite c g b v).mem = s.mem := by
  simp [State.xrxWrite]

theorem execCoreXrxWrite_nextOk (c : Core) (g : Ctx) (b : Bool) (v : W64) (s : State) (hm : MemOk s) :
    NextOk (execCoreXrxWrite c g b v s) := by
  unfold execCoreXrxWrite
  refine State.live_nextOk hm ?_
  refine State.ifOn_nextOk _ ?_ hm
  simp [MemOk, hm]

/-! ### Topo -/

@[simp] theorem State.topoCheck_mem (s : State) : (s.topoCheck).mem = s.mem := by simp [State.topoCheck]

@[simp] theorem State.buildDue_mem (s : State) : (s.buildDue).mem = s.mem := by unfold State.buildDue; dsimp only; split <;> simp

@[simp] theorem State.shiftWins_mem (s : State) (n : ℕ) : (s.shiftWins n).mem = s.mem := rfl

@[simp] theorem State.takeEpoch_mem (s : State) : (s.takeEpoch).mem = s.mem := by unfold State.takeEpoch; split <;> simp

@[simp] theorem State.monResends_mem (s : State) : (s.monResends).mem = s.mem := by simp [State.monResends]

@[simp] theorem State.pitchOpen_mem (s : State) : (s.pitchOpen).mem = s.mem := by simp [State.pitchOpen]

theorem execPitchStart_nextOk (s : State) (hm : MemOk s) : NextOk (execPitchStart s) := by
  unfold execPitchStart
  refine State.live_nextOk hm ?_
  (repeat' split) <;> simp [MemOk, hm]

@[simp] theorem State.topoPop_mem (s : State) : (s.topoPop).mem = s.mem := rfl

@[simp] theorem State.topoMiss_mem (s : State) (n : ℕ) : (s.topoMiss n).mem = s.mem := by simp [State.topoMiss]

theorem State.onCores_memOk {s : State} (n : ℕ) (e : BitVec 1024) {f : Core → State → State} (hf : ∀ c t, MemOk t → MemOk (f c t))
    (hm : MemOk s) : MemOk (s.onCores n e f) := by
  refine foldl_memOk (fun t c h => ?_) _ hm
  split
  · exact hf c t h
  · simp [MemOk, h]

/-- An event of the topo acts on each core it names that can take it, by a step whose result has a name. -/
theorem State.onCores_nextOk {s : State} (n : ℕ) (e : BitVec 1024) {f : Core → State → State} (hf : ∀ c t u, MemOk t → f c t = u → MemOk u)
    (hm : MemOk s) : NextOk (.next (s.onCores n e f)) := (nextOk_next _).mpr (State.onCores_memOk n e (fun c t h => hf c t _ h rfl) hm)

theorem execTopoStart_nextOk (s : State) (hm : MemOk s) : NextOk (execTopoStart s) := by
  unfold execTopoStart
  refine State.live_nextOk hm ?_
  split
  · exact (nextOk_next _).mpr (State.onCores_memOk _ _ (fun c t h => memOk_of_mem_eq (State.requestStart_mem _ _ _ _) h)
      (memOk_of_mem_eq s.topoPop_mem hm))
  · exact (nextOk_next s).mpr hm

theorem execTopoSwap_nextOk (s : State) (hm : MemOk s) : NextOk (execTopoSwap s) := by
  unfold execTopoSwap
  refine State.live_nextOk hm ?_
  split
  · exact (nextOk_next _).mpr (State.onCores_memOk _ _ (fun c t h => memOk_of_mem_eq (State.setFlag_mem _ _ _ _) h)
      (memOk_of_mem_eq s.topoPop_mem hm))
  · exact (nextOk_next s).mpr hm

@[simp] theorem State.openWin_mem (s : State) (w : TopoWin) : (s.openWin w).mem = s.mem := by simp [State.openWin]

theorem execTopoLinkwin_nextOk (s : State) (hm : MemOk s) : NextOk (execTopoLinkwin s) := by
  unfold execTopoLinkwin
  refine State.live_nextOk hm ?_
  (repeat' split) <;> simp [MemOk, hm]

theorem execLinkwinEnd_nextOk (l : Link) (s : State) (hm : MemOk s) : NextOk (execLinkwinEnd l s) := by
  unfold execLinkwinEnd
  refine State.live_nextOk hm ?_
  split
  · split
    · next ht => exact nextOk_of_mem_eq (State.onTb_mem _ _) (State.reachBy_memOk hm ht)
    · exact (nextOk_next s).mpr hm
  · exact (nextOk_next s).mpr hm

theorem execTopoColl_nextOk (s : State) (hm : MemOk s) : NextOk (execTopoColl s) := by
  unfold execTopoColl
  refine State.live_nextOk hm ?_
  split
  · refine State.onCores_nextOk _ _ (fun c t u h hu => ?_) (memOk_of_mem_eq s.topoPop_mem hm)
    rw [← hu]
    exact State.settle_memOk _ _ (State.collStart_memOk _ _ _ _ h)
  · exact (nextOk_next s).mpr hm

theorem execTopoXdispCount_nextOk (s : State) (hm : MemOk s) : NextOk (execTopoXdispCount s) := by
  unfold execTopoXdispCount
  refine State.live_nextOk hm ?_
  split
  · refine nextOk_ite (State.onCores_nextOk _ _ (fun c t u h hu => ?_) (memOk_of_mem_eq s.topoPop_mem hm)) ((nextOk_next s).mpr hm)
    rw [← hu]
    exact State.xdCount_memOk _ _ _ h
  · exact (nextOk_next s).mpr hm

theorem execTopoXdispReturn_nextOk (s : State) (hm : MemOk s) : NextOk (execTopoXdispReturn s) := by
  unfold execTopoXdispReturn
  refine State.live_nextOk hm ?_
  split
  · refine nextOk_ite (State.onCores_nextOk _ _ (fun c t u h hu => ?_) (memOk_of_mem_eq s.topoPop_mem hm)) ((nextOk_next s).mpr hm)
    rw [← hu]
    exact State.xdReturn_memOk _ _ _ h
  · exact (nextOk_next s).mpr hm

theorem execTopoCalwin_nextOk (s : State) (hm : MemOk s) : NextOk (execTopoCalwin s) := by
  unfold execTopoCalwin
  refine State.live_nextOk hm ?_
  (repeat' split) <;> simp [MemOk, hm]

theorem execTopoDeadline_nextOk (s : State) (hm : MemOk s) : NextOk (execTopoDeadline s) := by
  unfold execTopoDeadline
  refine State.live_nextOk hm ?_
  split
  · refine (nextOk_next _).mpr (State.onCores_memOk _ _ (fun c t h => ?_) (memOk_of_mem_eq s.topoPop_mem hm))
    exact foldl_memOk_of_eq (fun t g u h hu => hu ▸ memOk_of_mem_eq (State.closeTime_mem _ _ _) h) _ h
  · exact (nextOk_next s).mpr hm

theorem execTopoSleep_nextOk (s : State) (hm : MemOk s) : NextOk (execTopoSleep s) := by
  unfold execTopoSleep
  refine State.live_nextOk hm ?_
  (repeat' split) <;> simp [MemOk, hm]

theorem execTopoHeart_nextOk (s : State) (hm : MemOk s) : NextOk (execTopoHeart s) := by
  unfold execTopoHeart
  refine State.live_nextOk hm ?_
  dsimp only
  (repeat' split) <;> simp [MemOk, hm]

theorem execTopoEpoch_nextOk (s : State) (hm : MemOk s) : NextOk (execTopoEpoch s) := by
  unfold execTopoEpoch
  refine State.live_nextOk hm ?_
  (repeat' split) <;> simp [MemOk, hm]

/-! ### RegMap -/

@[simp] theorem State.regRead_mem (s : State) (a : ℕ) (a' : RegPlace) : (s.regRead a a').2.mem = s.mem := by
  unfold State.regRead
  (repeat' split) <;> simp

@[simp] theorem State.pwrCfgWrite_mem (s : State) (v : W64) : (s.pwrCfgWrite v).mem = s.mem := by simp [State.pwrCfgWrite]

@[simp] theorem State.strCtlWrite_mem (s : State) (c : Core) (v : W64) : (s.strCtlWrite c v).mem = s.mem := by simp [State.strCtlWrite]

@[simp] theorem State.pairGenWrite_mem (s : State) (who : Writer) (v : W64) : (s.pairGenWrite who v).mem = s.mem := by
  unfold State.pairGenWrite
  split <;> simp

@[simp] theorem State.regSpecial_memOk (s : State) (who : Writer) (v : W64) (a : RegPlace) (hm : MemOk s) :
    MemOk (s.regSpecial who v a) := by
  unfold State.regSpecial
  (repeat' split) <;> simp [MemOk, hm]

@[simp] theorem State.regWrite_memOk (s : State) (who : Writer) (a : ℕ) (v : W64) (p : RegPlace) (hm : MemOk s) :
    MemOk (s.regWrite who a v p) := by
  unfold State.regWrite
  (repeat' split) <;> simp [MemOk, hm]

@[simp] theorem State.imageWrite_memOk (s : State) (a : ℕ) (v : W64) (p : RegPlace) (hm : MemOk s) : MemOk (s.imageWrite a v p) := by
  unfold State.imageWrite
  (repeat' split) <;> simp [MemOk, hm]

/-! ### Boot -/

@[simp] theorem State.slotHeader_mem (s : State) (k : ℕ) : (s.slotHeader k).2.mem = s.mem := rfl

@[simp] theorem State.nextSlot_memOk (s : State) (hm : MemOk s) : MemOk (s.nextSlot) := by unfold State.nextSlot; split <;> simp [MemOk, hm]

theorem lardReads_mem (n : ℕ) (s : State) : (forN n (fun n s => (s.lardRead n).2) s).mem = s.mem := by simp

@[simp] theorem State.bootStart_memOk (s : State) (devid : BitVec 16) (hm : MemOk s) : MemOk (s.bootStart devid) := by
  unfold State.bootStart
  extract_lets +onlyGivenNames s1 ok s2 s3 s4
  have h3 : MemOk s3 := by
    rw [MemOk, State.onSec_mem, State.tick_mem, State.drawKeys_mem]
    exact hm
  clear_value s3
  have h4 : MemOk s4 := memOk_ite h3 (memOk_of_mem_eq (State.raise_mem _ _ _ _ _) h3)
  clear_value s4
  extract_lets +onlyGivenNames s5
  have h5 : MemOk s5 := memOk_of_mem_eq (lardReads_mem 512 s4) h4
  clear_value s5
  extract_lets +onlyGivenNames owned s6 m s7 read s8
  have h8 : MemOk s8 := by
    rw [MemOk, State.tick_mem]
    exact memOk_of_mem_eq (show s6.mem = s5.mem from State.onSec_mem _ _) h5
  clear_value s8
  refine memOk_ite (State.bootFail_memOk _ (memOk_of_mem_eq (State.onBoot_mem _ _) h8)) ?_
  extract_lets a b s9 s10
  have hb : MemOk b.2 := by
    rw [MemOk, State.slotHeader_mem, State.slotHeader_mem]
    exact h8
  clear_value b
  have h9 : MemOk s9 := memOk_ite hb (memOk_of_mem_eq (State.slotReason_mem _ _ _) hb)
  clear_value s9
  have h10 : MemOk s10 := memOk_ite h9 (memOk_of_mem_eq (State.slotReason_mem _ _ _) h9)
  clear_value s10
  exact State.nextSlot_memOk _ (memOk_of_mem_eq (State.onBoot_mem _ _) h10)

theorem execResetRelease_nextOk (devid : BitVec 16) (s : State) (hm : MemOk s) : NextOk (execResetRelease devid s) := by
  unfold execResetRelease
  refine State.live_nextOk hm ?_
  (repeat' split) <;> simp [MemOk, hm]

theorem execImageRead_nextOk (s : State) (hm : MemOk s) : NextOk (execImageRead s) := by
  unfold execImageRead
  refine State.live_nextOk hm (nextOk_ite ?_ ((nextOk_next s).mpr hm))
  extract_lets base n img
  exact nextOk_of_mem_eq ((State.onBoot_mem _ _).trans (State.freshEcc_mem _ _ _)) (State.wrBytes_memOk _ _ hm)

@[simp] theorem State.stagedRead_mem (s : State) : (s.stagedRead).2.mem = s.mem := by simp [State.stagedRead]

@[simp] theorem State.unstage_memOk (s : State) (hm : MemOk s) : MemOk s.unstage := Memory.wf_clear _ _ hm

@[simp] theorem State.slotFails_memOk (s : State) (reason : ℕ) (hm : MemOk s) : MemOk (s.slotFails reason) := by
  simp [State.slotFails, MemOk, hm]

@[simp] theorem State.applyConfig_memOk (s : State) (r : ℕ × W64) (hm : MemOk s) : MemOk (s.applyConfig r) := by
  unfold State.applyConfig
  split <;> simp [MemOk, hm]

@[simp] theorem State.checkWindow_mem (s : State) (w : ℕ) : (s.checkWindow w).mem = s.mem := by simp [State.checkWindow]

@[simp] theorem State.loadTopo_mem (s : State) (bs : List Byte) : (s.loadTopo bs).mem = s.mem := by
  unfold State.loadTopo
  dsimp only
  split <;> simp

@[simp] theorem State.applyImage_memOk (s : State) (img : List Byte) (hm : MemOk s) : MemOk (s.applyImage img) := by
  unfold State.applyImage
  extract_lets s1 s2 s3 s4 s5
  have h1 : MemOk s1 := foldl_memOk (fun t r h => t.applyConfig_memOk r h) _ hm
  have h5 : s5.mem = s1.mem := by simp [s5, s4, s3, s2]
  exact foldl_memOk (fun t p h => t.wrLocal_memOk p.1 p.2 h) _ (memOk_of_mem_eq h5 h1)

@[simp] theorem State.wlFail_memOk (s : State) (n : ℕ) (e : List Byte) (hm : MemOk s) : MemOk (s.wlFail n e) := by
  simp [State.wlFail, MemOk, hm]

@[simp] theorem State.bootRun_memOk (s : State) (hm : MemOk s) : MemOk (s.bootRun) := by simp [State.bootRun, MemOk, hm]

@[simp] theorem State.wlCopy_memOk (s : State) (e : List Byte) (hm : MemOk s) : MemOk (s.wlCopy e) := by
  refine foldl_memOk (fun t p h => ?_) _ hm
  have hr := memOk_of_mem_eq (t.wordRead_mem 14 p.1 p.2) h
  dsimp only
  split
  · exact State.wrLocal_memOk _ _ _ hr
  · exact hr

@[simp] theorem State.wlRun_memOk (s : State) (l : List (ℕ × List Byte)) (hm : MemOk s) : MemOk (s.wlRun l) := by
  induction l generalizing s with
  | nil => exact s.bootRun_memOk hm
  | cons p l ih =>
    unfold State.wlRun
    split
    · exact ih _ (s.wlFail_memOk _ _ hm)
    · split
      · simp [MemOk, hm]
      · exact ih _ (s.wlCopy_memOk _ hm)

@[simp] theorem State.bootLoad_memOk (s : State) (img : List Byte) (hm : MemOk s) : MemOk (s.bootLoad img) := by
  simp [State.bootLoad, MemOk, hm]

theorem execImageReadDone_nextOk (s : State) (hm : MemOk s) : NextOk (execImageReadDone s) := by
  have hf {t : State} (n : ℕ) (h : MemOk t) : NextOk (.next (t.slotFails n)) := (nextOk_next _).mpr (t.slotFails_memOk n h)
  unfold execImageReadDone
  refine State.live_nextOk hm (nextOk_ite ((nextOk_next s).mpr hm) ?_)
  extract_lets +onlyGivenNames ok s1
  have h1 : MemOk s1 := memOk_of_mem_eq s.tick_mem hm
  clear_value s1
  refine nextOk_ite (hf _ h1) ?_
  have hr {o : Option (List Byte)} {t : State} (h : s1.stagedRead = (o, t)) : MemOk t := memOk_of_mem_eq (mem_of_eq h s1.stagedRead_mem) h1
  split
  · next h => exact hf _ (hr h)
  · next h =>
    extract_lets r
    have h2 : MemOk r.2 := memOk_of_mem_eq (State.imageCheck_mem _ _ _ _ _) (hr h)
    clear_value r
    refine nextOk_ite (hf _ h2) (nextOk_ite (hf _ h2) ((nextOk_next _).mpr ?_))
    exact State.bootLoad_memOk _ _ (State.applyImage_memOk _ _ (memOk_of_mem_eq (State.onBoot_mem _ _) h2))

theorem execWeightLoadDone_nextOk (entry : ℕ) (s : State) (hm : MemOk s) : NextOk (execWeightLoadDone entry s) := by
  unfold execWeightLoadDone
  refine State.live_nextOk hm ?_
  (repeat' split) <;> simp [MemOk, hm]

theorem execLoadWaitExpiry_nextOk (s : State) (hm : MemOk s) : NextOk (execLoadWaitExpiry s) := by
  unfold execLoadWaitExpiry
  refine State.live_nextOk hm ((nextOk_next _).mpr ?_)
  split
  · exact hm
  · split
    · next ht => exact State.wlRun_memOk _ _ (State.wlFail_memOk _ _ _ (State.reachBy_memOk hm ht))
    · exact hm

theorem execZeroFillDone_nextOk (t : Tier) (s : State) (hm : MemOk s) : NextOk (execZeroFillDone t s) := by
  unfold execZeroFillDone
  refine State.live_nextOk hm ?_
  extract_lets held s1
  have h1 : MemOk s1 := s.fillDone_memOk t hm
  clear_value s1
  refine nextOk_of_mem_eq (State.pairPump_mem _) (State.collAll_memOk _ ?_)
  exact memOk_ite (State.wlRun_memOk _ _ h1) h1

end Sys2Proof.Machine
end

section
/-! The form of memory (O5): the bus, accesses of other devices, the events of the belay chain and of the Nimzen link. -/
namespace Sys2Proof.Machine

/-! ### Bus -/

@[simp] theorem State.regRead8_mem (s : State) (a : ℕ) : (s.regRead8 a).2.2.mem = s.mem := by
  unfold State.regRead8
  (repeat' split) <;> simp

@[simp] theorem State.regWrite8_memOk (s : State) (who : Writer) (a : ℕ) (v : W64) (hm : MemOk s) : MemOk (s.regWrite8 who a v).2 := by
  unfold State.regWrite8
  (repeat' split) <;> simp [MemOk, hm]

@[simp] theorem State.regAccRead_mem (s : State) (a : ℕ) (n : ℕ) : (s.regAccRead a n).2.mem = s.mem := by
  unfold State.regAccRead
  split <;> simp

@[simp] theorem State.regPut_memOk (s : State) (who : Writer) (a : ℕ) (bs : List Byte) (hm : MemOk s) : MemOk (s.regPut who a bs).2 := by
  unfold State.regPut
  split
  · split <;> simp [MemOk, hm]
  · split
    · refine foldl_snd_memOk (fun r k h => ?_) (List.range (bs.length / 8)) hm
      exact r.2.regWrite8_memOk _ _ _ h
    · simp [MemOk, hm]

@[simp] theorem State.regAccWrite_memOk (s : State) (who : Writer) (a : ℕ) (bs : List Byte) (hm : MemOk s) :
    MemOk (s.regAccWrite who a bs).2 := by
  simp [State.regAccWrite, apply_ite Prod.snd, MemOk, hm]

@[simp] theorem State.readKeep_mem (s : State) (w : NzWho) (who : ℕ) (a : ℕ) (n : ℕ) : (s.readKeep w who a n).2.mem = s.mem := by
  unfold State.readKeep
  split
  · simp
  · split
    · next q o _ =>
      have h := s.queueRead_mem q o n
      split
      · rfl
      · split <;> simp_all
    · split
      · next c _ _ =>
        have h := (s.portWaits c).accRead_mem c who a n
        split
        · rfl
        · split <;> simp_all
      · dsimp only
        split <;> simp

@[simp] theorem State.leave_mem (w : NzWho) (a : ℕ) (n : ℕ) (r : BusRes × State) : (State.leave w a n r).2.mem = r.2.mem := by
  unfold State.leave
  split <;> simp

@[simp] theorem State.busRead_mem (s : State) (w : NzWho) (who : ℕ) (a : ℕ) (n : ℕ) : (s.busRead w who a n).2.mem = s.mem := by
  rw [State.busRead, State.leave_mem, State.readKeep_mem]

@[simp] theorem State.writeKeep_memOk (s : State) (w : NzWho) (wr : Writer) (who : ℕ) (prod : ℕ) (a : ℕ) (bs : List Byte) (hm : MemOk s) :
    MemOk (s.writeKeep w wr who prod a bs).2 := by
  unfold State.writeKeep
  dsimp only
  (repeat' split) <;> simp [MemOk, hm]

@[simp] theorem State.busWrite_memOk (s : State) (w : NzWho) (wr : Writer) (who : ℕ) (prod : ℕ) (a : ℕ) (bs : List Byte) (hm : MemOk s) :
    MemOk (s.busWrite w wr who prod a bs).2 := by
  rw [State.busWrite, MemOk, State.leave_mem]
  exact s.writeKeep_memOk w wr who prod a bs hm

theorem State.undone_memOk {s t : State} (a : ℕ) (hm : MemOk s) : MemOk (s.undone t a) := by
  unfold State.undone
  split <;> exact hm

@[simp] theorem State.goOn_memOk (s : State) (hm : MemOk s) : MemOk (s.goOn) := by simp [State.goOn, MemOk, hm]

@[simp] theorem State.access_memOk (s : State) (x : Access) (hm : MemOk s) : MemOk (s.access x) := by
  unfold State.access
  split <;> simp [MemOk, hm]

theorem execAccWindowAccess_nextOk (who : Writer) (addr : W64) (op : AccessOp) (s : State) (hm : MemOk s) :
    NextOk (execAccWindowAccess who addr op s) := by
  unfold execAccWindowAccess
  refine State.live_nextOk hm ?_
  (repeat' split) <;> simp [MemOk, hm]

theorem execMeshPantryAccess_nextOk (a : Access) (ecc : Ecc) (s : State) (hm : MemOk s) : NextOk (execMeshPantryAccess a ecc s) := by
  unfold execMeshPantryAccess
  refine State.live_nextOk hm ?_
  (repeat' split) <;> simp [MemOk, hm]

@[simp] theorem State.remoteDeny_mem (s : State) : (s.remoteDeny).mem = s.mem := rfl

@[simp] theorem State.takePkt_mem (s : State) (p : Pkt) : (s.takePkt p).mem = s.mem := by simp [State.takePkt]

theorem State.flagPkt_mem {s : State} {p : Pkt} {b : Bool} {t : State} (ht : s.flagPkt p = some (b, t)) : t.mem = s.mem := by
  unfold State.flagPkt at ht
  dsimp only at ht
  split at ht
  · simp at ht
  · obtain ⟨c, _, hc⟩ := Option.map_eq_some_iff.mp ht
    split at hc <;> cases hc
    · split <;> simp
    · rfl

@[simp] theorem State.wack_mem (s : State) (p : Pkt) : (s.wack p).mem = s.mem := rfl

@[simp] theorem State.pktMessage_mem (s : State) (p : Pkt) : (s.pktMessage p).mem = s.mem := by unfold State.pktMessage; split <;> simp

theorem execPktWrite_nextOk (p : Pkt) (s : State) (hm : MemOk s) : NextOk (execPktWrite p s) := by
  have htk {t : State} (h : MemOk t) : MemOk (t.takePkt p) := memOk_of_mem_eq (State.takePkt_mem _ _) h
  have hn {t : State} (r l : ℕ) (h : MemOk t) : MemOk ((t.takePkt p).nack p r l) := memOk_of_mem_eq (State.nack_mem _ _ _ _) (htk h)
  unfold execPktWrite
  refine State.live_nextOk hm (nextOk_ite ((nextOk_next s).mpr hm) (nextOk_ite (nextOk_of_mem_eq (State.countDeny_mem _) (hn _ _ hm)) ?_))
  split
  · next ht => exact nextOk_of_mem_eq (State.wack_mem _ _) (htk (memOk_of_mem_eq (State.flagPkt_mem ht) hm))
  · next ht => exact (nextOk_next _).mpr (hn _ _ (memOk_of_mem_eq (State.flagPkt_mem ht) hm))
  · extract_lets +onlyGivenNames a
    refine nextOk_ite (nextOk_of_mem_eq (State.pktMessage_mem _ _) hm) (nextOk_ite ((nextOk_next s).mpr hm)
      (nextOk_ite (nextOk_of_mem_eq (State.remoteDeny_mem _) (hn _ _ hm)) ?_))
    extract_lets r
    have hr : MemOk r.2 := State.writeKeep_memOk _ _ _ _ _ _ _ hm
    clear_value r
    refine (nextOk_next _).mpr ?_
    split
    · exact hr
    · exact State.goOn_memOk _ (hn _ _ (State.undone_memOk _ hm))
    · exact State.goOn_memOk _ (memOk_of_mem_eq (State.wack_mem _ _) (htk hr))

theorem execPktRead_nextOk (p : Pkt) (s : State) (hm : MemOk s) : NextOk (execPktRead p s) := by
  have htk {t : State} (h : MemOk t) : MemOk (t.takePkt p) := memOk_of_mem_eq (State.takePkt_mem _ _) h
  have hn {t : State} (r l : ℕ) (h : MemOk t) : MemOk ((t.takePkt p).nack p r l) := memOk_of_mem_eq (State.nack_mem _ _ _ _) (htk h)
  unfold execPktRead
  refine State.live_nextOk hm (nextOk_ite ((nextOk_next s).mpr hm) (nextOk_ite (nextOk_of_mem_eq (State.countDeny_mem _) (hn _ _ hm)) ?_))
  extract_lets +onlyGivenNames a n
  refine nextOk_ite ((nextOk_next _).mpr (hn _ _ hm)) (nextOk_ite (nextOk_of_mem_eq (State.remoteDeny_mem _) (hn _ _ hm)) ?_)
  have hb {r : BusRes} {t : State} (h : s.busRead (.pkt p.src p.txid) 15 a n = (r, t)) : MemOk t :=
    memOk_of_mem_eq (mem_of_eq h (s.busRead_mem _ _ _ _)) hm
  split
  · next h => exact (nextOk_next _).mpr (hb h)
  · next h => exact (nextOk_next _).mpr (State.goOn_memOk _ (hn _ _ (hb h)))
  · next h => exact (nextOk_next _).mpr (State.goOn_memOk _ (memOk_of_mem_eq (State.sendPkt_mem _ _) (htk (hb h))))
  · next h => exact (nextOk_next _).mpr (hb h)

theorem execPktResponse_nextOk (p : Pkt) (s : State) (hm : MemOk s) : NextOk (execPktResponse p s) := by
  unfold execPktResponse
  refine State.live_nextOk hm ?_
  (repeat' split) <;> simp [MemOk, hm]

theorem execRegisterWrite_nextOk (who : Writer) (addr : W64) (data : List Byte) (s : State) (hm : MemOk s) :
    NextOk (execRegisterWrite who addr data s) := by
  unfold execRegisterWrite
  refine State.live_nextOk hm ?_
  dsimp only
  (repeat' split) <;> simp [MemOk, hm]

/-! ### ExecBelay -/

theorem execBelayStageReady_nextOk (c : Core) (n : Fin 8) (s : State) (hm : MemOk s) : NextOk (execBelayStageReady c n s) := by
  unfold execBelayStageReady
  refine State.live_nextOk hm ?_
  (repeat' split) <;> simp [MemOk, hm]

theorem execBelayCreditGrant_nextOk (c : Core) (n : Fin 8) (src : BelaySrc) (s : State) (hm : MemOk s) :
    NextOk (execBelayCreditGrant c n src s) := by
  unfold execBelayCreditGrant
  refine State.live_nextOk hm ?_
  dsimp only
  (repeat' split) <;> simp [MemOk, hm]

theorem execBelayRowReceive_nextOk (c : Core) (n : Fin 8) (src : BelaySrc) (row : BelayRow) (s : State) (hm : MemOk s) :
    NextOk (execBelayRowReceive c n src row s) := by
  unfold execBelayRowReceive
  refine State.live_nextOk hm ?_
  dsimp only
  (repeat' split) <;> simp [MemOk, hm]

theorem execBelayTimeout_nextOk (c : Core) (n : Fin 8) (s : State) (hm : MemOk s) : NextOk (execBelayTimeout c n s) := by
  unfold execBelayTimeout
  refine State.live_nextOk hm ?_
  dsimp only
  (repeat' split) <;> simp [MemOk, hm]

/-! ### ExecNz -/

theorem State.nzUp_memOk {s : State} (h : Half) {f : State → State} (hf : MemOk (f s)) (hm : MemOk s) : MemOk (s.nzUp h f) := by
  unfold State.nzUp
  split <;> assumption

theorem State.nzUp_nextOk {s : State} (h : Half) {f : State → State} (hf : MemOk (f s)) (hm : MemOk s) : NextOk (.next (s.nzUp h f)) :=
  (nextOk_next _).mpr (State.nzUp_memOk h hf hm)

@[simp] theorem State.nzAnswer_mem (h : Half) (op txid : ℕ) (r : BusRes × State) : (State.nzAnswer h op txid r).mem = r.2.mem := by
  unfold State.nzAnswer
  split <;> simp

@[simp] theorem State.popWait_mem (s : State) (h : Half) (op : ℕ) (txid : ℕ) (q : ℕ) (n : ℕ) : (s.popWait h op txid q n).mem = s.mem := by
  simp [State.popWait]

@[simp] theorem State.nzRead_mem (s : State) (h : Half) (op : ℕ) (txid : ℕ) (a : ℕ) (n : ℕ) : (s.nzRead h op txid a n).mem = s.mem := by
  unfold State.nzRead
  dsimp only
  split <;> simp

theorem execRdNc_nextOk (h : Half) (txid : BitVec 10) (addr : BitVec 48) (lines : ℕ) (s : State) (hm : MemOk s) :
    NextOk (execRdNc h txid addr lines s) := by
  unfold execRdNc
  refine State.live_nextOk hm ?_
  dsimp only
  refine State.nzUp_nextOk _ ?_ hm
  (repeat' split) <;> simp [MemOk, hm]

@[simp] theorem State.nzWrite_memOk (s : State) (h : Half) (txid : ℕ) (a : ℕ) (bs : List Byte) (hm : MemOk s) :
    MemOk (s.nzWrite h txid a bs).2 := by
  simp [State.nzWrite, MemOk, hm]

theorem execWrNc_nextOk (h : Half) (txid : BitVec 10) (addr : BitVec 48) (data : List Byte) (s : State) (hm : MemOk s) :
    NextOk (execWrNc h txid addr data s) := by
  unfold execWrNc
  refine State.live_nextOk hm ?_
  dsimp only
  refine State.nzUp_nextOk _ ?_ hm
  (repeat' split) <;> simp [MemOk, hm]

@[simp] theorem State.nzRuns_memOk (s : State) (h : Half) (txid : ℕ) (a : ℕ) (l : List (ℕ × List Byte)) (hm : MemOk s) :
    MemOk (s.nzRuns h txid a l).2 := by
  induction l generalizing s with
  | nil => exact hm
  | cons p l ih =>
    unfold State.nzRuns
    extract_lets r
    have hr : MemOk r.2 := s.nzWrite_memOk _ _ _ _ hm
    split
    · exact hr
    · exact ih _ hr
    · exact ih _ hr

@[simp] theorem State.nzMerge_memOk (s : State) (h : Half) (txid : ℕ) (a : ℕ) (data : List Byte) (mask : W64) (hm : MemOk s) :
    MemOk (s.nzMerge h txid a data mask).2 := by
  unfold State.nzMerge
  extract_lets w r
  have hw : MemOk w.2 := memOk_of_mem_eq (by simp [w]) hm
  have hr : MemOk r.2 := by simp only [r]; split <;> simp [MemOk, hw]
  split
  · exact hw
  · rw [MemOk, State.leave_mem]
    split
    · exact hr
    · exact r.2.wordWrite_memOk _ _ _ hr

@[simp] theorem State.nzPart_memOk (s : State) (h : Half) (txid : ℕ) (a : ℕ) (data : List Byte) (mask : W64) (hm : MemOk s) :
    MemOk (s.nzPart h txid a data mask).2 := by
  simp [State.nzPart, apply_ite Prod.snd, MemOk, hm]

theorem execWrPart_nextOk (h : Half) (txid : BitVec 10) (addr : BitVec 48) (data : List Byte) (mask : W64) (s : State) (hm : MemOk s) :
    NextOk (execWrPart h txid addr data mask s) := by
  unfold execWrPart
  refine State.live_nextOk hm ?_
  dsimp only
  refine State.nzUp_nextOk _ ?_ hm
  (repeat' split) <;> simp [MemOk, hm]

@[simp] theorem State.nzCoherent_mem (s : State) (h : Half) (op : ℕ) (txid : BitVec 10) (addr : BitVec 48) (own : Bool) :
    (s.nzCoherent h op txid addr own).mem = s.mem := by
  simp [State.nzCoherent]

theorem execRdShared_nextOk (h : Half) (txid : BitVec 10) (addr : BitVec 48) (s : State) (hm : MemOk s) :
    NextOk (execRdShared h txid addr s) :=
  State.live_nextOk hm (State.nzUp_nextOk h (memOk_of_mem_eq (State.nzCoherent_mem _ _ _ _ _ _) hm) hm)

theorem execRdOwn_nextOk (h : Half) (txid : BitVec 10) (addr : BitVec 48) (s : State) (hm : MemOk s) : NextOk (execRdOwn h txid addr s) :=
  State.live_nextOk hm (State.nzUp_nextOk h (memOk_of_mem_eq (State.nzCoherent_mem _ _ _ _ _ _) hm) hm)

@[simp] theorem State.staleWb_mem (s : State) (h : Half) : (s.staleWb h).mem = s.mem := rfl

@[simp] theorem State.markStale_mem (s : State) (h : Half) (p : Option NzSnoop) : (s.markStale h p).mem = s.mem := rfl

theorem execWbDirty_nextOk (h : Half) (txid : BitVec 10) (addr : BitVec 48) (data : List Byte) (s : State) (hm : MemOk s) :
    NextOk (execWbDirty h txid addr data s) := by
  unfold execWbDirty
  refine State.live_nextOk hm ?_
  refine State.nzUp_nextOk _ ?_ hm
  dsimp only
  (repeat' split) <;> simp [MemOk, hm]

theorem execEvict_nextOk (h : Half) (txid : BitVec 10) (addr : BitVec 48) (s : State) (hm : MemOk s) :
    NextOk (execEvict h txid addr s) := by
  unfold execEvict
  refine State.live_nextOk hm ?_
  refine State.nzUp_nextOk _ ?_ hm
  dsimp only
  (repeat' split) <;> simp [MemOk, hm]

theorem execSnpRsp_nextOk (h : Half) (tag : NzTag) (data : Option (List Byte)) (s : State) (hm : MemOk s) :
    NextOk (execSnpRsp h tag data s) := by
  unfold execSnpRsp
  refine State.live_nextOk hm ?_
  refine State.nzUp_nextOk _ ?_ hm
  dsimp only
  (repeat' split) <;> simp [MemOk, hm]

theorem execSnoopTimeout_nextOk (h : Half) (addr : BitVec 48) (s : State) (hm : MemOk s) : NextOk (execSnoopTimeout h addr s) := by
  unfold execSnoopTimeout
  refine State.live_nextOk hm ?_
  extract_lets line
  refine (nextOk_next _).mpr ?_
  split
  · split
    · exact hm
    · split
      · next ht =>
        refine State.goOn_memOk _ (State.snoopDone_memOk _ _ _ _ (memOk_of_mem_eq ?_ (State.reachBy_memOk hm ht)))
        exact (State.markStale_mem _ _ _).trans ((State.raise_mem _ _ _ _ _).trans (State.bumpLo_mem _ _ _))
      · exact hm
  · exact hm

@[simp] theorem State.nzPush_mem (s : State) (h : Half) (txid : ℕ) (q : ℕ) (bs : List Byte) : (s.nzPush h txid q bs).mem = s.mem := by
  simp [State.nzPush]

theorem execMenuReq_nextOk (h : Half) (txid : BitVec 10) (entry : BitVec 16) (data : List Byte) (s : State) (hm : MemOk s) :
    NextOk (execMenuReq h txid entry data s) := by
  unfold execMenuReq
  refine State.live_nextOk hm ?_
  refine State.nzUp_nextOk _ ?_ hm
  dsimp only
  (repeat' split) <;> simp [MemOk, hm]

theorem execDoorbell_nextOk (h : Half) (txid : BitVec 10) (queue : BitVec 11) (data : List Byte) (s : State) (hm : MemOk s) :
    NextOk (execDoorbell h txid queue data s) := by
  unfold execDoorbell
  refine State.live_nextOk hm ?_
  refine State.nzUp_nextOk _ ?_ hm
  dsimp only
  (repeat' split) <;> simp [MemOk, hm]

theorem execPopWaitExpiry_nextOk (h : Half) (s : State) (hm : MemOk s) : NextOk (execPopWaitExpiry h s) := by
  unfold execPopWaitExpiry
  refine State.live_nextOk hm ((nextOk_next _).mpr ?_)
  split
  · exact hm
  · split
    · exact hm
    · split
      · next ht => exact memOk_of_mem_eq ((State.nzNack_mem _ _ _ _).trans (State.onHalf_mem _ _ _)) (State.reachBy_memOk hm ht)
      · exact hm

@[simp] theorem State.lineCome_mem (s : State) (h : Half) (r : NzReq) (v : BitVec 512) : (s.lineCome h r v).mem = s.mem := by
  unfold State.lineCome
  (repeat' split) <;> simp

theorem execCData_nextOk (h : Half) (txid : BitVec 10) (reason : BitVec 4) (data : List Byte) (s : State) (hm : MemOk s) :
    NextOk (execCData h txid reason data s) := by
  unfold execCData
  refine State.live_nextOk hm ?_
  refine State.nzUp_nextOk _ ?_ hm
  dsimp only
  (repeat' split) <;> simp [MemOk, hm]

@[simp] theorem State.msgDrop_mem (s : State) (h : Half) : (s.msgDrop h).mem = s.mem := by simp [State.msgDrop]

theorem execCCmp_nextOk (h : Half) (txid : BitVec 10) (reason : BitVec 4) (s : State) (hm : MemOk s) :
    NextOk (execCCmp h txid reason s) := by
  unfold execCCmp
  refine State.live_nextOk hm ?_
  refine State.nzUp_nextOk _ ?_ hm
  dsimp only
  (repeat' split) <;> simp [MemOk, hm]

theorem execCInv_nextOk (h : Half) (txid : BitVec 10) (addr : BitVec 48) (s : State) (hm : MemOk s) : NextOk (execCInv h txid addr s) := by
  unfold execCInv
  refine State.live_nextOk hm ?_
  dsimp only
  refine State.nzUp_nextOk _ ?_ hm
  simp [MemOk, hm]

@[simp] theorem State.newMsg_mem (s : State) (h : Half) (q : ℕ) (data : List Byte) (level : Bool) : (s.newMsg h q data level).mem = s.mem :=
  rfl

@[simp] theorem State.sendQueued_mem (s : State) (h : Half) : (s.sendQueued h).mem = s.mem := by
  have hp := s.popPkt_mem (msgQueue h) 4096
  unfold State.sendQueued
  dsimp only
  split
  · rfl
  · split
    · next ht =>
      split
      · exact mem_of_eq ht hp
      · rw [State.newMsg_mem]; exact mem_of_eq ht hp
    · next ht => exact mem_of_eq ht hp

theorem execMsgSend_nextOk (h : Half) (s : State) (hm : MemOk s) : NextOk (execMsgSend h s) := by
  unfold execMsgSend
  refine State.live_nextOk hm ?_
  refine State.nzUp_nextOk _ ?_ hm
  dsimp only
  (repeat' split) <;> simp [MemOk, hm]

theorem execMsgResend_nextOk (h : Half) (s : State) (hm : MemOk s) : NextOk (execMsgResend h s) := by
  unfold execMsgResend
  refine State.live_nextOk hm (State.nzUp_nextOk h ?_ hm)
  split
  · split
    · next ht => exact memOk_of_mem_eq ((State.nzSend_mem _ _ _).trans (State.onHalf_mem _ _ _)) (State.reachBy_memOk hm ht)
    · exact hm
  · exact hm

@[simp] theorem State.nzHeadBad_mem (s : State) (h : Half) : (s.nzHeadBad h).mem = s.mem := by simp [State.nzHeadBad]

@[simp] theorem State.nzArrive_mem (s : State) (h : Half) (m : NzMsg) : (s.nzArrive h m).mem = s.mem := by simp [State.nzArrive]

@[simp] theorem State.nzPlace_mem (s : State) (h : Half) (bs : List Byte) : (s.nzPlace h bs).mem = s.mem := by
  unfold State.nzPlace
  dsimp only
  (repeat' split) <;> simp

@[simp] theorem State.nzSlot_mem (s : State) (h : Half) (d : List Byte) : (s.nzSlot h d).mem = s.mem := by
  unfold State.nzSlot
  split <;> simp

@[simp] theorem State.nzContent_mem (s : State) (h : Half) (bs : List Byte) : (s.nzContent h bs).mem = s.mem := by simp [State.nzContent]

@[simp] theorem State.nzAgain_mem (s : State) (h : Half) : (s.nzAgain h).mem = s.mem := rfl

@[simp] theorem State.nzCtrl_memOk (s : State) (h : Half) (b : List Byte) (hm : MemOk s) : MemOk (s.nzCtrl h b) := by
  unfold State.nzCtrl
  split <;> simp [MemOk, hm]

@[simp] theorem State.nzSeal_memOk (s : State) (h : Half) (tag : List Byte) (hm : MemOk s) : MemOk (s.nzSeal h tag) := by
  unfold State.nzSeal
  dsimp only
  split
  · split <;> simp [MemOk, hm]
  · refine foldl_memOk (fun t p ht => ?_) _ (memOk_of_mem_eq (foldl_mem (by simp) _ _) (memOk_of_mem_eq (State.setHalf_mem _ _ _) hm))
    split
    · exact State.nzUp_memOk h (t.nzCtrl_memOk h _ ht) ht
    · exact ht

theorem execNzFlitReceive_nextOk (h : Half) (body : BitVec 1888) (s : State) (hm : MemOk s) : NextOk (execNzFlitReceive h body s) := by
  unfold execNzFlitReceive
  refine State.live_nextOk hm ?_
  refine State.nzUp_nextOk _ ?_ hm
  dsimp only
  (repeat' split) <;> simp [MemOk, hm]

end Sys2Proof.Machine
end

section
/-! The form of memory (O5): stream programs, their transfers, and the trickle path. -/
namespace Sys2Proof.Machine

/-! ### StreamCheck -/

@[simp] theorem State.strEnqueue_mem (s : State) (c : Core) (e : Eng) (r : StrRun) : (s.strEnqueue c e r).mem = s.mem := rfl

@[simp] theorem State.strHead_mem (s : State) (c : Core) (e : Eng) (r : StrRun) (i : ℕ) : (s.strHead c e r i).mem = s.mem := by
  unfold State.strHead
  split <;> simp

@[simp] theorem State.strReject_mem (s : State) (c : Core) (j : StrJob) (k : StrCheck) : (s.strReject c j k).mem = s.mem := by
  unfold State.strReject
  split <;> simp

@[simp] theorem State.strUnread_mem (s : State) (c : Core) (e : Eng) (j : StrJob) (reason : ℕ) :
    (s.strUnread c e j reason).mem = s.mem := by
  simp [State.strUnread]

@[simp] theorem State.strBegin_mem (s : State) (c : Core) (e : Eng) : (s.strBegin c e).mem = s.mem := by
  unfold State.strBegin
  dsimp only
  (repeat' split) <;> simp

theorem execStreamBegin_nextOk (c : Core) (e : Eng) (s : State) (hm : MemOk s) : NextOk (execStreamBegin c e s) := by
  unfold execStreamBegin
  refine State.live_nextOk hm ?_
  (repeat' split) <;> simp [MemOk, hm]

theorem execStreamAdmit_nextOk (c : Core) (e : Eng) (waited : ℕ) (s : State) (hm : MemOk s) : NextOk (execStreamAdmit c e waited s) := by
  unfold execStreamAdmit
  refine State.live_nextOk hm ?_
  (repeat' split) <;> simp [MemOk, hm]

theorem State.strWord_mem {s : State} (c : Core) (e : Eng) (op : ℕ) {f : StrRun → W64 → State} (hf : ∀ r w, (f r w).mem = s.mem) :
    (s.strWord c e op f).mem = s.mem := by
  unfold State.strWord
  split
  · split
    · split
      · exact hf _ _
      · rfl
    · rfl
  · rfl

theorem State.strWord_memOk {s : State} (c : Core) (e : Eng) (op : ℕ) {f : StrRun → W64 → State} (hf : ∀ r w, MemOk (f r w))
    (hm : MemOk s) : MemOk (s.strWord c e op f) := by
  unfold State.strWord
  split
  · split
    · split
      · exact hf _ _
      · exact hm
    · exact hm
  · exact hm

@[simp] theorem State.strField_mem (s : State) (c : Core) (e : Eng) (op : ℕ) : (s.strField c e op).mem = s.mem :=
  State.strWord_mem c e op (fun r w => by simp)

theorem execStreamAddr_nextOk (c : Core) (e : Eng) (s : State) (hm : MemOk s) : NextOk (execStreamAddr c e s) := by
  unfold execStreamAddr
  refine State.live_nextOk hm ?_
  simp [MemOk, hm]

theorem execStreamDesc_nextOk (c : Core) (e : Eng) (s : State) (hm : MemOk s) : NextOk (execStreamDesc c e s) := by
  unfold execStreamDesc
  refine State.live_nextOk hm ?_
  simp [MemOk, hm]

theorem execStreamLoop_nextOk (c : Core) (e : Eng) (s : State) (hm : MemOk s) : NextOk (execStreamLoop c e s) := by
  unfold execStreamLoop
  refine State.live_nextOk hm ?_
  simp [MemOk, hm]

theorem execStreamStride_nextOk (c : Core) (e : Eng) (s : State) (hm : MemOk s) : NextOk (execStreamStride c e s) := by
  unfold execStreamStride
  refine State.live_nextOk hm ?_
  simp [MemOk, hm]

theorem execStreamIdx_nextOk (c : Core) (e : Eng) (s : State) (hm : MemOk s) : NextOk (execStreamIdx c e s) := by
  unfold execStreamIdx
  refine State.live_nextOk hm ?_
  simp [MemOk, hm]

theorem execStreamFill_nextOk (c : Core) (e : Eng) (s : State) (hm : MemOk s) : NextOk (execStreamFill c e s) := by
  unfold execStreamFill
  refine State.live_nextOk hm ?_
  simp [MemOk, hm]

theorem execStreamCvt_nextOk (c : Core) (e : Eng) (s : State) (hm : MemOk s) : NextOk (execStreamCvt c e s) := by
  unfold execStreamCvt
  refine State.live_nextOk hm ?_
  simp [MemOk, hm]

theorem execStreamWina_nextOk (c : Core) (e : Eng) (s : State) (hm : MemOk s) : NextOk (execStreamWina c e s) := by
  unfold execStreamWina
  refine State.live_nextOk hm ?_
  simp [MemOk, hm]

theorem execStreamWinb_nextOk (c : Core) (e : Eng) (s : State) (hm : MemOk s) : NextOk (execStreamWinb c e s) := by
  unfold execStreamWinb
  refine State.live_nextOk hm ?_
  simp [MemOk, hm]

@[simp] theorem State.strNext_mem (s : State) (c : Core) (e : Eng) (r : StrRun) : (s.strNext c e r).mem = s.mem := by simp [State.strNext]

theorem execStreamCred_nextOk (c : Core) (e : Eng) (s : State) (hm : MemOk s) : NextOk (execStreamCred c e s) := by
  unfold execStreamCred
  refine State.live_nextOk hm ?_
  (repeat' split) <;> simp [MemOk, hm]

theorem execStreamWait_nextOk (c : Core) (e : Eng) (s : State) (hm : MemOk s) : NextOk (execStreamWait c e s) := by
  unfold execStreamWait
  refine State.live_nextOk hm ?_
  (repeat' split) <;> simp [MemOk, hm]

theorem execStreamWaitTimeout_nextOk (c : Core) (e : Eng) (s : State) (hm : MemOk s) : NextOk (execStreamWaitTimeout c e s) := by
  unfold execStreamWaitTimeout
  refine State.live_nextOk hm ?_
  (repeat' split) <;> simp [MemOk, hm]

/-! ### StreamGo -/

@[simp] theorem Go.rdAs_mem (g : Go) (v : GoEnv) (key : ℕ) (a : ℕ) (n : ℕ) (part : ℕ) : (g.rdAs v key a n part).2.s.mem = g.s.mem := by
  have h := g.s.readKeep_mem v.who (4 + v.e.val) (localOf a) n
  unfold Go.rdAs
  dsimp only
  split
  · rfl
  · rfl
  · rfl
  · split
    · rfl
    · split <;> simp_all

@[simp] theorem Go.rd_mem (g : Go) (v : GoEnv) (a : ℕ) (n : ℕ) (part : ℕ) : (g.rd v a n part).2.s.mem = g.s.mem := by simp [Go.rd]

@[simp] theorem Go.popFar_mem (g : Go) (v : GoEnv) (a : ℕ) (n : ℕ) (part : ℕ) : (g.popFar v a n part).2.s.mem = g.s.mem := by
  simp [Go.popFar]

@[simp] theorem Go.rdWords_mem (g : Go) (v : GoEnv) (part : ℕ) (l : List ℕ) : (g.rdWords v part l).2.s.mem = g.s.mem := by
  induction l generalizing g with
  | nil => rfl
  | cons a as ih => exact (ih _).trans (g.rd_mem v a 64 part)

@[simp] theorem Go.rdRow_mem (g : Go) (v : GoEnv) (part : ℕ) (as : List ℕ) : (g.rdRow v part as).2.s.mem = g.s.mem := by
  unfold Go.rdRow
  split
  · next a l =>
    have h : (if g.s.farAddr a then g.popFar v a (64 * (a :: l).length) part
        else g.rd v a (64 * (a :: l).length) part).2.s.mem = g.s.mem := by
      split <;> simp
    split
    · split <;> simp_all
    · simp
  · rfl

@[simp] theorem Go.countRow_mem (g : Go) (as : List ℕ) : (g.countRow as).s.mem = g.s.mem := by simp [Go.countRow]

@[simp] theorem Go.flush_mem (g : Go) : (g.flush).s.mem = g.s.mem := by simp [Go.flush]

@[simp] theorem Go.countTurn_mem (g : Go) (t : EType) (rows : List (List ℕ)) : (g.countTurn t rows).s.mem = g.s.mem := by
  simp [Go.countTurn]

@[simp] theorem Go.part_mem (g : Go) (u : ℕ) : (g.part u).2.s.mem = g.s.mem := by simp [Go.part, apply_ite Prod.snd]

@[simp] theorem Go.touch_mem (g : Go) (p : ℕ) : (g.touch p).s.mem = g.s.mem := by simp [Go.touch]

@[simp] theorem Go.fail_mem (g : Go) (p : ℕ) (x : StrErr) : (g.fail p x).s.mem = g.s.mem := by simp [Go.fail]

@[simp] theorem Go.failAll_mem (g : Go) (ps : List ℕ) (x : StrErr) : (g.failAll ps x).s.mem = g.s.mem := by simp [Go.failAll]

@[simp] theorem Go.partsOf_mem (g : Go) (us : List ℕ) : (g.partsOf us).2.s.mem = g.s.mem := by simp [Go.partsOf]

@[simp] theorem Go.running_mem (g : Go) (ps : List ℕ) : (g.running ps).2.s.mem = g.s.mem := by simp [Go.running]

@[simp] theorem Go.emit_mem (g : Go) (w : StrWrite) : (g.emit w).s.mem = g.s.mem := by simp [Go.emit]

@[simp] theorem Go.emitRow_mem (g : Go) (own : Bool) (w : StrWrite) : (g.emitRow own w).s.mem = g.s.mem := by simp [Go.emitRow]

@[simp] theorem Go.convRow_mem (g : Go) (v : GoEnv) (ts : EType) (td : EType) (sr : Bool) (n : ℕ) (ws : List ℕ) :
    (g.convRow v ts td sr n ws).2.s.mem = g.s.mem := by
  simp [Go.convRow, apply_ite Prod.snd]

@[simp] theorem Go.convElts_mem (g : Go) (v : GoEnv) (td : EType) (sr : Bool) (es : List Elt) :
    (g.convElts v td sr es).2.2.s.mem = g.s.mem := by
  simp [Go.convElts]

@[simp] theorem Go.writeElts_mem (g : Go) (v : GoEnv) (td : EType) (sr : Bool) (word : ℕ → ℕ) (es : List Elt) :
    (g.writeElts v td sr word es).s.mem = g.s.mem := by
  simp [Go.writeElts]

@[simp] theorem Go.index_mem (g : Go) (v : GoEnv) (f : StrFields) (n : ℕ) : (g.index v f n).2.s.mem = g.s.mem := by
  unfold Go.index
  extract_lets k a words u bytes
  have hu : u.s.mem = g.s.mem := by
    refine foldl_s_mem (fun t w => ?_) words g
    have h := t.rd_mem v w 64 64
    dsimp only
    split
    · rfl
    · split <;> simp_all
  split <;> exact hu

@[simp] theorem Go.window_mem (g : Go) (n : ℕ) : (g.window n).s.mem = g.s.mem := by simp [Go.window]

@[simp] theorem Go.serve_mem (g : Go) (v : GoEnv) (ix : ℤ) (n : ℕ) : (g.serve v ix n).s.mem = g.s.mem := by simp [Go.serve]

@[simp] theorem Go.fetch_mem (g : Go) (v : GoEnv) (gather : Bool) (count : Bool) (part : ℕ) (as : List ℕ) :
    (g.fetch v gather count part as).2.s.mem = g.s.mem := by
  unfold Go.fetch
  dsimp only
  split <;> simp

@[simp] theorem Go.fillTo_mem (g : Go) (v : GoEnv) (td : EType) (pat : ℕ) (n : ℕ) (always : Bool) (dst : ℕ → List ℕ) :
    (g.fillTo v td pat n always dst).s.mem = g.s.mem := by
  unfold Go.fillTo
  dsimp only
  split <;> simp

@[simp] theorem Go.source_mem (g : Go) (v : GoEnv) (f : StrFields) (win : Bool) (ns : List ℕ) (cs : List ℕ) :
    (g.source v f win ns cs).2.s.mem = g.s.mem := by
  unfold Go.source
  dsimp only
  (repeat' split) <;> simp

@[simp] theorem Go.target_mem (g : Go) (v : GoEnv) (f : StrFields) (ns : List ℕ) (cs : List ℕ) :
    (g.target v f ns cs).2.s.mem = g.s.mem := by
  unfold Go.target
  dsimp only
  (repeat' split) <;> simp

@[simp] theorem Go.begins_mem (g : Go) (v : GoEnv) (x : Source) : (g.begins v x).s.mem = g.s.mem := by unfold Go.begins; split <;> simp

@[simp] theorem Go.yields_mem (g : Go) (a : ℕ) : (g.yields a).s.mem = g.s.mem := rfl

@[simp] theorem Go.row_mem (v : GoEnv) (f : StrFields) (win : Bool) (ns : List ℕ) (g : Go) (cs : List ℕ) :
    (Go.row v f win ns g cs).s.mem = g.s.mem := by
  unfold Go.row
  split
  · rfl
  · extract_lets ts td n gather scatter g1
    have hg : (g1.target v f ns cs).2.s.mem = g.s.mem := by simp only [g1]; split <;> simp
    split
    · simp_all
    · next ix g2 h2 =>
      rw [h2] at hg
      extract_lets r g3 dst
      have h3 : g3.s.mem = g.s.mem := by simpa [g3, r] using hg
      split
      · exact h3
      · simp [h3]
      · simp [h3]
      · next src _ =>
        extract_lets u strided g4
        have h4 : g4.s.mem = g.s.mem := by simp [g4, u, h3]
        split
        · split <;> simp [u, h3]
        · have h5 : ((if strided then { g4 with strip := g4.strip ++ src } else g4).fetch v gather (!strided) u.1 src).2.s.mem
              = g.s.mem := by
            split <;> simp [h4]
          split <;> simp_all

@[simp] theorem Go.eltUnits_mem (g : Go) (v : GoEnv) (srcs : List Source) (dsts : List EltDst) :
    (g.eltUnits v srcs dsts).s.mem = g.s.mem := by
  simp [Go.eltUnits]

@[simp] theorem Go.elements_mem (g : Go) (v : GoEnv) (ts : EType) (td : EType) (sr : Bool) (gather : Bool) (n : ℕ) (srcs : List Source)
    (dsts : List EltDst) (turns : List (List ℕ)) : (g.elements v ts td sr gather n srcs dsts turns).s.mem = g.s.mem := by
  generalize hf : @Go.elements = F
  delta Go.elements at hf
  have ht := congrFun (congrFun (congrFun (congrFun (congrFun (congrFun (congrFun (congrFun (congrFun (congrFun
    hf g) v) ts) td) sr) gather) n) srcs) dsts) turns
  clear hf
  generalize F g v ts td sr gather n srcs dsts turns = t at ht ⊢
  extract_lets +onlyGivenNames g1 src k needs users rows g2 elt later at ht
  have h1 : rows.2.s.mem = g.s.mem := by
    refine (foldl_snd_s_mem_of_eq (fun acc p u hu => ?_) _ _).trans (g.eltUnits_mem v srcs dsts)
    split at hu
    · extract_lets +onlyGivenNames run at hu
      have hr : run.2.s.mem = acc.2.s.mem := by rw [Go.running_mem]
      clear_value run
      refine ite_elim hu (fun hu => by rw [← hu, hr]) (fun hu => ?_)
      extract_lets f at hu
      have hx : f.2.s.mem = acc.2.s.mem := by
        rw [Go.fetch_mem, Go.begins_mem, ite_s, ite_mem, Go.window_mem, ite_self, hr]
      clear_value f
      split at hu
      · rw [← hu, hx]
      · rw [← hu, Go.failAll_mem, hx]
    · rw [← hu]
  clear_value rows
  have h2 : g2.s.mem = rows.2.s.mem := by
    refine foldl_s_mem_of_eq (fun w l u hu => ?_) _ _
    rw [← hu, Go.countTurn_mem]
  clear_value g2
  rw [← ht, ← h1, ← h2]
  refine foldl_s_mem_of_eq (fun w l u hu => ?_) _ _
  rw [← hu, Go.writeElts_mem]

@[simp] theorem Go.xin_mem (v : GoEnv) (f : StrFields) (win : Bool) (ns : List ℕ) (g : Go) : (Go.xin v f win ns g).s.mem = g.s.mem := by
  unfold Go.xin
  extract_lets ts td n ns2 n1 nd at1 no srcs dsts
  have hs : srcs.2.s.mem = g.s.mem := by simp [srcs]
  have hd : dsts.2.s.mem = g.s.mem := by
    refine (foldl_snd_s_mem (fun acc cs => ?_) (nest nd) ([], srcs.2)).trans hs
    have h := acc.2.target_mem v f nd cs
    dsimp only
    split
    · rfl
    · split <;> simp_all
  simp [hd]

@[simp] theorem Go.tile_mem (g : Go) (v : GoEnv) (part : ℕ) (hdrAddr : ℕ) : (g.tile v part hdrAddr).2.s.mem = g.s.mem := by
  have h := g.rd_mem v hdrAddr 64 part
  unfold Go.tile
  split
  · simp_all
  · next bs t ht =>
    rw [ht] at h
    extract_lets raw u n t' n'
    have h' (l) : (t'.rdWords v part l).2.s.mem = g.s.mem := by simpa [t', n] using h
    split
    · exact h
    · split <;> next ht => exact s_mem_of_eq ht (h' _)

@[simp] theorem Go.expand_mem (g : Go) (v : GoEnv) (t : StrTile) : (g.expand v t).2.2.s.mem = g.s.mem := by
  simp [Go.expand, apply_ite Prod.snd]

@[simp] theorem Go.putTile_mem (g : Go) (v : GoEnv) (part : ℕ) (o : OutTile) (target : Bool) (pol : Bool) (hdrAddr : ℕ) :
    (g.putTile v part o target pol hdrAddr).s.mem = g.s.mem := by
  simp [Go.putTile]

@[simp] theorem Go.collect_mem (g : Go) (v : GoEnv) (td : EType) (sr : Bool) (lines : List (List Elt)) :
    (g.collect v td sr lines).2.2.s.mem = g.s.mem := by
  simp [Go.collect]

@[simp] theorem Go.lines_mem (g : Go) (v : GoEnv) (part : ℕ) (srcs : List (List ℕ)) : (g.lines v part srcs).2.s.mem = g.s.mem := by
  simp [Go.lines]

@[simp] theorem Go.newTile_mem (g : Go) (v : GoEnv) (units : List ℕ) (read : ℕ → Go → Except StrErr (List (List ℕ)) × Go)
    (make : List (List ℕ) → Go → OutTile × Go) (target : Bool) (pol : Bool) (hdrAddr : ℕ)
    (hread : ∀ p t, (read p t).2.s.mem = t.s.mem) (hmake : ∀ rows t, (make rows t).2.s.mem = t.s.mem) :
    (g.newTile v units read make target pol hdrAddr).s.mem = g.s.mem := by
  unfold Go.newTile
  dsimp only
  split
  · simp
  · split
    · simp [hread]
    · split <;> simp [hread, hmake]

@[simp] theorem Go.tileDst_mem (v : GoEnv) (f : StrFields) (ns : List ℕ) (g : Go) (k : ℕ) (up : List ℕ) :
    (Go.tileDst v f ns g k up).s.mem = g.s.mem := by
  simp [Go.tileDst]

@[simp] theorem Go.tileSrc_mem (v : GoEnv) (f : StrFields) (ns : List ℕ) (g : Go) (k : ℕ) (up : List ℕ) :
    (Go.tileSrc v f ns g k up).s.mem = g.s.mem := by
  unfold Go.tileSrc
  dsimp only
  (repeat' split) <;> simp

@[simp] theorem Go.tileBoth_mem (v : GoEnv) (td : EType) (ha : ℕ) (dst : Option ℕ) (g : Go) :
    (Go.tileBoth v td ha dst g).s.mem = g.s.mem := by
  unfold Go.tileBoth
  extract_lets ps run t place src u x y
  have hrun : run.2.s.mem = g.s.mem := by simp [run, ps]
  have hu : u.s.mem = g.s.mem := by simp [u, src, t, hrun]
  have hx : x.s.mem = g.s.mem := by simp [x, hu]
  have hy : y.s.mem = g.s.mem := by simp only [y]; split <;> simp [hu]
  split
  · simp [hrun]
  · split
    · have h : (run.2.rd v ha 64 (ps.1.headD 64)).2.s.mem = g.s.mem := by simp [hrun]
      split
      · next ht => simpa using s_mem_of_eq ht h
      · next ht =>
        have h' := s_mem_of_eq ht h
        split
        · split <;> exact h'
        · exact h'
    · split
      · simp [hu]
      · split <;> simp [hx]
      · simp [hy]

@[simp] theorem Go.addRead_mem (v : GoEnv) (f : StrFields) (win : Bool) (ns : List ℕ) (g : Go) (css : List (List ℕ)) :
    (Go.addRead v f win ns g css).2.s.mem = g.s.mem := by
  refine foldl_snd_s_mem (fun acc cs => ?_) css (some [], g)
  have h : ((if cs.headD 0 = 0 then acc.2.flush else acc.2).target v f ns cs).2.s.mem = acc.2.s.mem := by simp
  split
  · rfl
  · split
    · next ht => exact s_mem_of_eq ht h
    · next ht =>
      have hg := s_mem_of_eq ht h
      extract_lets x dst src u z t rd o r d
      have hu : u.2.s.mem = acc.2.s.mem := by simp [u, x, hg]
      have ht : t.s.mem = acc.2.s.mem := by simp [t, hu]
      have hr : r.2.s.mem = acc.2.s.mem := by
        simp only [r, o, rd]
        split
        · exact ht
        · dsimp only
          split <;> simp [ht]
      split
      · exact hu
      · split
        · simp [hr]
        · split <;> simp [d, hr]

@[simp] theorem Go.addWrite_memOk (v : GoEnv) (f : StrFields) (g : Go) (rows : List AddRow) (hm : MemOk g.s) :
    MemOk (Go.addWrite v f g rows).s := by
  unfold Go.addWrite
  extract_lets t dsts
  refine foldl_s_memOk (fun u d h => ?_) dsts hm
  simp only [MemOk, State.bumpLo_mem, State.tick_mem, Go.countRow_mem]
  exact foldl_memOk (fun s p h => s.wrLocal_memOk _ _ h) _ h

@[simp] theorem Go.scatterAdd_memOk (v : GoEnv) (f : StrFields) (win : Bool) (ns : List ℕ) (g : Go) (hm : MemOk g.s) :
    MemOk (Go.scatterAdd v f win ns g).s := by
  refine foldl_s_memOk (fun t w h => ?_) _ hm
  have h' := Go.addRead_mem v f win ns t ((nest ns).filter (fun cs => posOf f ns cs / 64 == w))
  dsimp only
  split
  · exact h
  · split
    · next hr => exact Go.addWrite_memOk _ _ _ _ (memOk_of_mem_eq (s_mem_of_eq hr h') h)
    · next hr =>
      have h2 := memOk_of_mem_eq (s_mem_of_eq hr h') h
      exact h2

@[simp] theorem Go.clip_mem (g : Go) (v : GoEnv) (d : Desc) (t : EType) (r : ℕ) (n : ℕ) : (g.clip v d t r n).2.s.mem = g.s.mem := by
  simp [Go.clip]

@[simp] theorem Go.plain_mem (g : Go) (v : GoEnv) (k : CopyJob) (ts : EType) (td : EType) : (g.plain v k ts td).s.mem = g.s.mem := by
  refine foldl_s_mem (fun t r => ?_) _ g
  extract_lets src u
  have h : ((u.2.touch u.1).fetch v false true u.1 src).2.s.mem = t.s.mem := by simp [u]
  split
  · simp [u]
  · split
    · next ht => simp [s_mem_of_eq ht h]
    · next ht => simp [s_mem_of_eq ht h]

@[simp] theorem Go.moved_mem (g : Go) (v : GoEnv) (k : CopyJob) (ts : EType) (td : EType) (turn : Bool) (rows : List (List (ℕ × ℕ))) :
    (g.moved v k ts td turn rows).s.mem = g.s.mem := by
  simp [Go.moved]

@[simp] theorem Go.tileRow_mem (v : GoEnv) (k : CopyJob) (td : EType) (g : Go) (i : ℕ) : (Go.tileRow v k td g i).s.mem = g.s.mem := by
  generalize hf : @Go.tileRow = F
  delta Go.tileRow at hf
  have ht := congrFun (congrFun (congrFun (congrFun (congrFun hf v) k) td) g) i
  clear hf
  generalize F v k td g i = t at ht ⊢
  extract_lets +onlyGivenNames d ls js tiles at ht
  have h1 : tiles.2.s.mem = g.s.mem := by
    refine foldl_snd_s_mem_of_eq (fun acc j u hu => ?_) _ _
    extract_lets +onlyGivenNames ha ps run at hu
    have hr : run.2.s.mem = acc.2.s.mem := by rw [Go.running_mem, Go.partsOf_mem]
    clear_value run
    refine ite_elim hu (fun hu => by rw [← hu, hr]) (fun hu => ?_)
    extract_lets +onlyGivenNames x at hu
    have hx : x.2.s.mem = acc.2.s.mem := by rw [Go.tile_mem, hr]
    clear_value x
    split at hu
    · rw [← hu, Go.failAll_mem, hx]
    · dsimp only at hu
      rw [← hu]
      split
      · rw [Go.failAll_mem, Go.expand_mem, hx]
      · rw [Go.expand_mem, hx]
  clear_value tiles
  rw [← ht, ← h1]
  refine foldl_s_mem_of_eq (fun w l u hu => ?_) _ _
  extract_lets r m at hu
  refine ite_elim hu (fun hu => ?_) (fun hu => ?_)
  · rw [← hu, Go.clip_mem]
  · rw [← hu, Go.writeElts_mem, Go.clip_mem]

@[simp] theorem Go.copyTile_mem (v : GoEnv) (k : CopyJob) (ts : EType) (td : EType) (g : Go) (p : ℕ × ℕ) :
    (Go.copyTile v k ts td g p).s.mem = g.s.mem := by
  simp [Go.copyTile]

@[simp] theorem Go.tiledCopy_mem (g : Go) (v : GoEnv) (k : CopyJob) (ts : EType) (td : EType) :
    (g.tiledCopy v k ts td).s.mem = g.s.mem := by
  simp [Go.tiledCopy]

@[simp] theorem Go.copy_mem (g : Go) (v : GoEnv) (k : CopyJob) : (g.copy v k).s.mem = g.s.mem := by unfold Go.copy; (repeat' split) <;> simp

@[simp] theorem Go.eval_memOk (v : GoEnv) (w : W64) (g : Go) (hm : MemOk g.s) : MemOk (Go.eval v w g).s := by
  unfold Go.eval
  split <;> simp [MemOk, hm]

@[simp] theorem Go.ended_mem (g : Go) : (g.ended).s.mem = g.s.mem := by simp [Go.ended]

/-! ### ExecStream -/

@[simp] theorem State.putWord_memOk (s : State) (v : GoEnv) (a : ℕ) (w : ℕ) (mask : Option ℕ) (hm : MemOk s) :
    MemOk (s.putWord v a w mask).2 := by
  have hr : MemOk (s.readKeep v.who (4 + v.e.val) (localOf a) 64).2 := by simp [MemOk, hm]
  unfold State.putWord
  extract_lets l write
  have hw (t : State) (ht : MemOk t) (w : ℕ) : MemOk (write t w).2 := State.writeKeep_memOk _ _ _ _ _ _ _ ht
  split
  · exact hw s hm w
  · split
    · exact hw s hm w
    · split
      · next h => exact hw _ (memOk_of_eq h hr) _
      · exact hr

@[simp] theorem Go.put_memOk (g : Go) (v : GoEnv) (p : PutWord) (hm : MemOk g.s) : MemOk (g.put v p).2.2.s := by
  unfold Go.put
  dsimp only
  (repeat' split) <;> simp [MemOk, hm]

@[simp] theorem Go.puts_memOk (g : Go) (v : GoEnv) (ps : List PutWord) (rs : List ℕ) (failed : W64) (hm : MemOk g.s) :
    MemOk (g.puts v ps rs failed).s := by
  refine foldl_s_memOk (fun t p h => ?_) _ hm
  split
  · dsimp only
    split
    · exact h
    · exact Go.put_memOk _ v p.1 h
  · exact Go.put_memOk _ v p.1 h

@[simp] theorem State.goAskOne_mem (s : State) (c : Core) (e : Eng) (write : Bool) (p : StrAsk) : (s.goAskOne c e write p).mem = s.mem := by
  unfold State.goAskOne
  split <;> simp

@[simp] theorem State.goAsk_mem (s : State) (c : Core) (e : Eng) (write : Bool) (asks : List StrAsk) :
    (s.goAsk c e write asks).mem = s.mem := by
  simp [State.goAsk]

@[simp] theorem State.strPump_mem (s : State) (c : Core) (e : Eng) : (s.strPump c e).mem = s.mem := by
  unfold State.strPump
  split
  · rfl
  · refine foldl_mem (fun s q => ?_) _ s
    dsimp only
    split
    · split <;> simp
    · simp

@[simp] theorem State.strStop_memOk (s : State) (c : Core) (e : Eng) (hm : MemOk s) : MemOk (s.strStop c e) := by
  unfold State.strStop
  split <;> simp [MemOk, hm]

@[simp] theorem State.strGo_memOk (s : State) (c : Core) (e : Eng) (r : StrRun) (w : W64) (hm : MemOk s) : MemOk (s.strGo c e r w) := by
  unfold State.strGo
  extract_lets v g ps t u s1 job r1 s2
  have hg : MemOk g.s := memOk_of_mem_eq (Go.ended_mem _) (Go.eval_memOk _ _ _ hm)
  have h1 : MemOk s1 := memOk_of_mem_eq (State.cohLeave_mem _ _) (Go.puts_memOk _ _ _ _ _ hg)
  clear_value g u s1
  split
  · simp [MemOk, hm]
  · split
    · simp [MemOk, hm]
    · have h2 : MemOk s2 := by simp only [s2]; split <;> simp [MemOk, h1]
      refine State.settle_memOk _ _ ?_
      split
      · exact s2.strStop_memOk c e h2
      · exact h2

theorem execStreamGo_nextOk (c : Core) (e : Eng) (ecc : List (W64 × Ecc)) (s : State) (hm : MemOk s) : NextOk (execStreamGo c e ecc s) := by
  unfold execStreamGo
  refine State.live_nextOk hm ?_
  dsimp only
  (repeat' split) <;> simp [MemOk, hm]

theorem execStreamSig_nextOk (c : Core) (e : Eng) (s : State) (hm : MemOk s) : NextOk (execStreamSig c e s) := by
  have hp : MemOk (s.strPump c e) := memOk_of_mem_eq (s.strPump_mem c e) hm
  unfold execStreamSig
  refine State.live_nextOk hm ((nextOk_next _).mpr (State.strWord_memOk _ _ _ (fun r w => ?_) hp))
  dsimp only
  split
  · exact State.settle_memOk _ _ (memOk_of_mem_eq ((State.setFlag_mem _ _ _ _).trans (State.setRun_mem _ _ _ _)) hp)
  · exact hp

theorem execStreamEnd_nextOk (c : Core) (e : Eng) (s : State) (hm : MemOk s) : NextOk (execStreamEnd c e s) := by
  unfold execStreamEnd
  refine State.live_nextOk hm ?_
  dsimp only
  (repeat' split) <;> simp [MemOk, hm]

theorem execPartTimeout_nextOk (c : Core) (e : Eng) (part : Fin 64) (s : State) (hm : MemOk s) : NextOk (execPartTimeout c e part s) := by
  unfold execPartTimeout
  refine State.live_nextOk hm ((nextOk_next _).mpr ?_)
  split
  · extract_lets +onlyGivenNames lim readP writeP since due
    split
    · exact hm
    · next t ht =>
      have h : MemOk t := by
        obtain ⟨a, _, ha⟩ := Option.bind_eq_some_iff.mp ht
        exact State.reachBy_memOk hm ha
      extract_lets late lateR lateW mark
      exact memOk_of_mem_eq ((State.cohDone_mem _ _ _).trans ((State.setRun_mem _ _ _ _).trans (State.strForget_mem _ _ _ _))) h
  · exact hm

theorem execStrCtlWrite_nextOk (c : Core) (v : W64) (s : State) (hm : MemOk s) : NextOk (execStrCtlWrite c v s) := by
  unfold execStrCtlWrite
  refine State.live_nextOk hm ?_
  refine State.ifOn_nextOk _ ?_ hm
  simp [MemOk, hm]

@[simp] theorem State.setTrk_mem (s : State) (c : Core) (j : TrkJob) : (s.setTrk c j).mem = s.mem := rfl

@[simp] theorem State.popTrk_mem (s : State) (c : Core) : (s.popTrk c).mem = s.mem := by simp [State.popTrk]

@[simp] theorem State.trkFail_mem (s : State) (c : Core) (j : TrkJob) : (s.trkFail c j).mem = s.mem := by simp [State.trkFail]

@[simp] theorem State.trkRead_mem (s : State) (c : Core) (j : TrkJob) (a : ℕ) (n : ℕ) : (s.trkRead c j a n).2.mem = s.mem := by
  unfold State.trkRead
  split
  · split <;> simp
  · split
    · dsimp only
      split <;> simp
    · have h := s.busRead_mem (.unit c 13) 13 (localOf a) n
      split <;> next ht => exact mem_of_eq ht h

@[simp] theorem State.trkWrite_memOk (s : State) (c : Core) (j : TrkJob) (bs : List Byte) (hm : MemOk s) : MemOk (s.trkWrite c j bs).2 := by
  unfold State.trkWrite
  dsimp only
  split
  · split <;> simp [MemOk, hm]
  · have hw := s.writeKeep_memOk (.unit c 13) (.program c) 13 (coreProd c) (localOf j.dst.toNat) bs hm
    split
    · exact State.undone_memOk _ hm
    · exact hw
    · exact hw

@[simp] theorem State.trkStore_memOk (s : State) (c : Core) (j : TrkJob) (bs : List Byte) (hm : MemOk s) : MemOk (s.trkStore c j bs) := by
  have hw := s.trkWrite_memOk c j bs hm
  unfold State.trkStore
  split
  · next ht => simp [MemOk, memOk_of_eq ht hw]
  · next ht => simp [MemOk, memOk_of_eq ht hw]
  · next ht => exact memOk_of_eq ht hw

@[simp] theorem State.dropTrk_mem (s : State) (c : Core) (j : TrkJob) : (s.dropTrk c j).mem = s.mem := by simp [State.dropTrk]

@[simp] theorem State.passHdrs_mem (s : State) (c : Core) (hs : List Hdr) (ok : Bool) : (s.passHdrs c hs ok).mem = s.mem := rfl

@[simp] theorem State.ptestPair_mem (s : State) (c : Core) (j : TrkJob) (pd : ℕ) (w : StepWord) (last : Bool) (hs : List Hdr) (ok : Bool)
    (pair : ℕ) : (s.ptestPair c j pd w last hs ok pair).mem = s.mem := by
  simp [State.ptestPair]

theorem execTrickleDone_nextOk (c : Core) (ecc : Ecc) (s : State) (hm : MemOk s) : NextOk (execTrickleDone c ecc s) := by
  have hs (a : ℕ) : MemOk (s.strike a ecc) := memOk_of_mem_eq (s.strike_mem a ecc) hm
  have hr {a b n : ℕ} {j : TrkJob} {r : Except Bool (List Byte)} {t : State} (h : (s.strike a ecc).trkRead c j b n = (r, t)) : MemOk t :=
    memOk_of_mem_eq (mem_of_eq h (State.trkRead_mem _ _ _ _ _)) (hs a)
  unfold execTrickleDone
  refine State.live_nextOk hm ((nextOk_next _).mpr ?_)
  split
  · exact hm
  · split
    · exact hm
    · refine State.settle_memOk _ _ ?_
      split
      · exact State.trkStore_memOk _ _ _ _ (hs _)
      · split
        · next h =>
          exact State.trkStore_memOk _ _ _ _ (memOk_of_mem_eq ((State.setTrk_mem _ _ _).trans (State.readsDone_mem _ _ _)) (hr h))
        · next h => exact memOk_of_mem_eq (State.trkFail_mem _ _ _) (hr h)
        · next h => exact hr h
      · split
        · next h => exact memOk_of_mem_eq (State.ptestPair_mem _ _ _ _ _ _ _ _ _) (hr h)
        · next h => exact memOk_of_mem_eq ((State.dropTrk_mem _ _ _).trans (State.trkFail_mem _ _ _)) (hr h)
        · next h => exact hr h

end Sys2Proof.Machine
end

section
/-! The form of memory (O5): the sequencer and the step commands. -/
namespace Sys2Proof.Machine

/-! ### Sequencer -/

@[simp] theorem State.startAdd_mem (s : State) (c : Core) (e : Eng) (j : StrJob) : (s.startAdd c e j).mem = s.mem := rfl

theorem State.strStart_formed (s : State) (c : Core) (e : Eng) (j : StrJob) (hm : MemOk s) : (s.strStart c e j).Formed := by
  unfold State.strStart
  split
  · trivial
  · exact Issue.formed_of_mem_eq (State.startAdd_mem _ _ _ _) hm

theorem State.copyRefusal_mem {s : State} {c : Core} {w : StepWord} {t : State} (ht : s.copyRefusal c w = some t) : t.mem = s.mem := by
  unfold State.copyRefusal at ht
  dsimp only at ht
  split at ht <;> simp at ht
  all_goals subst ht; simp

theorem issueCopy_formed (c : Core) (w : StepWord) (s : State) (hm : MemOk s) : (issueCopy c w s).Formed := by
  unfold issueCopy
  split
  · next h => exact Issue.formed_of_mem_eq (State.copyRefusal_mem h) hm
  · dsimp only
    split
    · trivial
    · exact State.readScales_formed _ _ _ (fun t ht => Issue.formed_of_mem_eq (State.startAdd_mem _ _ _ _) ht) (fun t ht => ht) hm

@[simp] theorem State.trkAdd_mem (s : State) (c : Core) (js : List TrkJob) : (s.trkAdd c js).mem = s.mem := rfl

theorem State.trkQueue_formed (s : State) (c : Core) (js : List TrkJob) (hm : MemOk s) : (s.trkQueue c js).Formed := by
  unfold State.trkQueue
  split
  · trivial
  · exact Issue.formed_of_mem_eq (State.trkAdd_mem _ _ _) hm

theorem issueDload_formed (c : Core) (w : StepWord) (s : State) (hm : MemOk s) : (issueDload c w s).Formed := by
  have hr (l : List ℕ) : MemOk (s.readWords 12 l).2 := memOk_of_mem_eq (s.readWords_mem _ _) hm
  unfold issueDload
  dsimp only
  split
  · exact Issue.formed_of_mem_eq (State.readFault_mem _ _) (hr _)
  · exact Issue.formed_of_mem_eq ((State.guardDone_mem _ _ _).trans (State.onSeq_mem _ _ _)) (hr _)

theorem issueFsigr_formed (c : Core) (w : StepWord) (s : State) (hm : MemOk s) : (issueFsigr c w s).Formed := by
  unfold issueFsigr
  dsimp only
  refine Issue.formed_ite trivial ?_
  split
  · exact hm
  · refine Issue.formed_ite (Issue.formed_ite ?_ hm) (Issue.formed_of_mem_eq (State.sendPkt_mem _ _) hm)
    refine Issue.formed_of_mem_eq ?_ hm
    rw [ite_mem, State.requestStart_mem, State.setFlag_mem, ite_self]

theorem issueLd_formed (c : Core) (w : StepWord) (s : State) (hm : MemOk s) : (issueLd c w s).Formed := by
  have hr (l : List ℕ) : MemOk (s.readWords 12 l).2 := memOk_of_mem_eq (s.readWords_mem _ _) hm
  unfold issueLd
  dsimp only
  split
  · exact Issue.formed_of_mem_eq (State.readFault_mem _ _) (hr _)
  · exact Issue.formed_of_mem_eq (State.onSeq_mem _ _ _) (hr _)

theorem issuePtest_formed (c : Core) (w : StepWord) (s : State) (hm : MemOk s) : (issuePtest c w s).Formed := by
  unfold issuePtest
  dsimp only
  split
  · exact Issue.formed_of_mem_eq (State.panReject_mem _ _ _) hm
  · exact State.trkQueue_formed _ _ _ hm

@[simp] theorem State.stepBytes_mem (s : State) (c : Core) (a : ℕ) (n : ℕ) : (s.stepBytes c a n).2.mem = s.mem := by
  unfold State.stepBytes
  split
  · split <;> simp
  · split
    · dsimp only
      split <;> simp
    · have h := s.busRead_mem (.unit c 12) 12 (localOf a) n
      split <;> next ht => exact mem_of_eq ht h

theorem issueQpush_formed (c : Core) (w : StepWord) (s : State) (hm : MemOk s) : (issueQpush c w s).Formed := by
  have hb (a n : ℕ) {r : Except Bool (List Byte)} {t : State} (h : s.stepBytes c a n = (r, t)) : MemOk t :=
    memOk_of_mem_eq (mem_of_eq h (s.stepBytes_mem c a n)) hm
  unfold issueQpush
  dsimp only
  split
  · exact Issue.formed_of_mem_eq (State.qpReject_mem _ _ _) hm
  · split
    · next h => exact Issue.formed_of_mem_eq (State.readFault_mem _ _) (hb _ _ h)
    · next h => exact hb _ _ h
    · next t h =>
      have ht := hb _ _ h
      refine Issue.formed_of_mem_eq ?_ ht
      rw [ite_mem, State.onSeq_mem, ite_self, ite_mem, State.pushPkt_mem, ite_self]

theorem State.stepPop_formed {s : State} (c : Core) (w : StepWord) (limit : ℕ) {got : State → State} {empty : Issue}
    (hg : ∀ t, MemOk t → MemOk (got t)) (he : empty.Formed) (hm : MemOk s) : (s.stepPop c w limit got empty).Formed := by
  have hp {r : PopRes} {t : State} (h : s.popPkt (W.dQUEUE w) limit = (r, t)) : MemOk t :=
    memOk_of_mem_eq (mem_of_eq h (s.popPkt_mem _ _)) hm
  have hf (f : SeqSt → SeqSt) (t : State) (ht : MemOk t) : MemOk (got (t.onSeq c f)) :=
    hg _ (memOk_of_mem_eq (State.onSeq_mem _ _ _) ht)
  unfold State.stepPop
  dsimp only
  refine Issue.formed_ite he ?_
  split
  · exact he
  · next h => exact hp h
  · next t h =>
    have ht := hp h
    refine Issue.formed_ite (hf _ _ ht) (Issue.formed_ite (Issue.formed_ite (hf _ _ ?_) trivial) ?_)
    · refine foldl_memOk_of_eq (fun u p v hu hv => ?_) _ ht
      rw [← hv, MemOk, State.farAsk_mem]
      exact hu
    · split
      · exact State.busWrite_memOk _ _ _ _ _ _ _ hm
      · next h => exact Issue.formed_of_mem_eq (State.readFault_mem _ _) (hf _ _ (memOk_of_eq h (State.busWrite_memOk _ _ _ _ _ _ _ ht)))
      · next h => exact hf _ _ (memOk_of_eq h (State.busWrite_memOk _ _ _ _ _ _ _ ht))

theorem issueQpop_formed (c : Core) (w : StepWord) (s : State) (hm : MemOk s) : (issueQpop c w s).Formed :=
  Issue.formed_ite (Issue.formed_of_mem_eq (State.qpReject_mem _ _ _) hm) (State.stepPop_formed c w _ (fun _ ht => ht) trivial hm)

theorem issueQtry_formed (c : Core) (w : StepWord) (s : State) (hm : MemOk s) : (issueQtry c w s).Formed :=
  Issue.formed_ite (Issue.formed_of_mem_eq (State.qpReject_mem _ _ _) hm)
    (State.stepPop_formed c w _ (fun t ht => memOk_of_mem_eq (t.onSeq_mem _ _) ht) (Issue.formed_of_mem_eq (s.onSeq_mem _ _) hm) hm)

theorem issueTwait_formed (c : Core) (w : StepWord) (s : State) (hm : MemOk s) : (issueTwait c w s).Formed := by
  unfold issueTwait
  exact Issue.formed_ite hm trivial

/-- Every step leaves its unit with memory in canonical form. -/
theorem issueOf_formed (op : ℕ) (c : Core) (w : StepWord) (s : State) (hm : MemOk s) : (issueOf op c w s).Formed := by
  have onSeq (f : SeqSt → SeqSt) : (Issue.ok (s.onSeq c f)).Formed := Issue.formed_of_mem_eq (s.onSeq_mem _ _) hm
  unfold issueOf
  split
  · exact issueLoad_formed c w s hm
  · exact issuePass_formed c w s hm
  · exact issueFeed_formed c w s hm
  · exact issueExport_formed c w s hm
  · exact issueAclr_formed c w s hm
  · exact issueMove_formed c w _ s hm
  · exact issueMove_formed c w _ s hm
  · exact issueFres_formed c w s hm
  · exact issueFpres_formed c w s hm
  · exact Issue.formed_of_mem_eq (State.closeTime_mem _ _ _) hm
  · exact Issue.formed_of_mem_eq (State.releaseFill_mem _ _ _ _) hm
  · exact issueDisp_formed c w s hm
  · exact issueSop_formed c w s hm
  · exact issueSdrain_formed c w s hm
  · exact issueSclr_formed c w s hm
  iterate 5 exact issueVector_formed c w s hm
  · exact State.strStart_formed _ _ _ _ hm
  · exact issueCopy_formed c w s hm
  · exact State.trkQueue_formed _ _ _ hm
  · exact issueDload_formed c w s hm
  · exact State.trkQueue_formed _ _ _ hm
  · exact Issue.formed_of_mem_eq ((State.guardDone_mem _ _ _).trans (State.onSeq_mem _ _ _)) hm
  · exact Issue.formed_of_mem_eq (State.setFlag_mem _ _ _ _) hm
  · exact issueFsigr_formed c w s hm
  · exact Issue.formed_ite hm trivial
  · exact Issue.formed_ite hm trivial
  iterate 4 exact onSeq _
  · exact issueLd_formed c w s hm
  · exact State.trkQueue_formed _ _ _ hm
  · exact onSeq _
  · exact onSeq _
  · exact issuePtest_formed c w s hm
  · exact onSeq _
  · exact issueBset_formed c w s hm
  · exact issueBelay_formed c w s hm
  · exact issueQpush_formed c w s hm
  · exact issueQpop_formed c w s hm
  · exact issueQtry_formed c w s hm
  · exact issueTwait_formed c w s hm
  · exact onSeq _
  · exact hm

@[simp] theorem State.seqBad_mem (s : State) (c : Core) (code : ℕ) : (s.seqBad c code).mem = s.mem := by simp [State.seqBad]

@[simp] theorem State.stallOn_mem (s : State) (c : Core) (w : StepWord) (why : ℕ) (flag : ℕ) : (s.stallOn c w why flag).mem = s.mem := rfl

@[simp] theorem State.handOver_memOk (s : State) (c : Core) (w : StepWord) (hm : MemOk s) : MemOk (s.handOver c w) := by
  have h : (issueAny c w s).Formed := issueOf_formed _ c w s hm
  unfold State.handOver
  dsimp only
  generalize issueAny c w s = o at h
  cases o with
  | ok t => exact State.settle_memOk _ _ (memOk_of_mem_eq (State.advancePc_mem _ _ _ _) h)
  | hold why flag => exact memOk_of_mem_eq (State.stallOn_mem _ _ _ _ _) hm
  | wait why t => exact memOk_of_mem_eq (State.stallOn_mem _ _ _ _ _) h
  | bad code => exact memOk_of_mem_eq (State.seqBad_mem _ _ _) hm

@[simp] theorem State.attempt_memOk (s : State) (c : Core) (w : StepWord) (hm : MemOk s) : MemOk (s.attempt c w) := by
  unfold State.attempt
  (repeat' split) <;> simp [MemOk, hm]

theorem State.stepCmd_nextOk {s : State} (c : Core) (w : StepWord) (mine : Bool) (hm : MemOk s) : NextOk (s.stepCmd c w mine) := by
  unfold State.stepCmd
  split
  · refine (nextOk_next _).mpr ?_
    split
    · exact s.attempt_memOk c w hm
    · exact hm
  · exact nextOk_refused _

/-! ### ExecSteps -/

theorem execLoad_nextOk (c : Core) (w : StepWord) (s : State) (hm : MemOk s) : NextOk (execLoad c w s) :=
  State.live_nextOk hm (State.stepCmd_nextOk c w _ hm)

theorem execPass_nextOk (c : Core) (w : StepWord) (s : State) (hm : MemOk s) : NextOk (execPass c w s) :=
  State.live_nextOk hm (State.stepCmd_nextOk c w _ hm)

theorem execFeed_nextOk (c : Core) (w : StepWord) (s : State) (hm : MemOk s) : NextOk (execFeed c w s) :=
  State.live_nextOk hm (State.stepCmd_nextOk c w _ hm)

theorem execExportStep_nextOk (c : Core) (w : StepWord) (s : State) (hm : MemOk s) : NextOk (execExportStep c w s) :=
  State.live_nextOk hm (State.stepCmd_nextOk c w _ hm)

theorem execAclr_nextOk (c : Core) (w : StepWord) (s : State) (hm : MemOk s) : NextOk (execAclr c w s) :=
  State.live_nextOk hm (State.stepCmd_nextOk c w _ hm)

theorem execAsave_nextOk (c : Core) (w : StepWord) (s : State) (hm : MemOk s) : NextOk (execAsave c w s) :=
  State.live_nextOk hm (State.stepCmd_nextOk c w _ hm)

theorem execArestore_nextOk (c : Core) (w : StepWord) (s : State) (hm : MemOk s) : NextOk (execArestore c w s) :=
  State.live_nextOk hm (State.stepCmd_nextOk c w _ hm)

theorem execFres_nextOk (c : Core) (w : StepWord) (s : State) (hm : MemOk s) : NextOk (execFres c w s) :=
  State.live_nextOk hm (State.stepCmd_nextOk c w _ hm)

theorem execFpres_nextOk (c : Core) (w : StepWord) (s : State) (hm : MemOk s) : NextOk (execFpres c w s) :=
  State.live_nextOk hm (State.stepCmd_nextOk c w _ hm)

theorem execFflush_nextOk (c : Core) (w : StepWord) (s : State) (hm : MemOk s) : NextOk (execFflush c w s) :=
  State.live_nextOk hm (State.stepCmd_nextOk c w _ hm)

theorem execFrel_nextOk (c : Core) (w : StepWord) (s : State) (hm : MemOk s) : NextOk (execFrel c w s) :=
  State.live_nextOk hm (State.stepCmd_nextOk c w _ hm)

theorem execDisp_nextOk (c : Core) (w : StepWord) (s : State) (hm : MemOk s) : NextOk (execDisp c w s) :=
  State.live_nextOk hm (State.stepCmd_nextOk c w _ hm)

theorem execSop_nextOk (c : Core) (w : StepWord) (s : State) (hm : MemOk s) : NextOk (execSop c w s) :=
  State.live_nextOk hm (State.stepCmd_nextOk c w _ hm)

theorem execSdrain_nextOk (c : Core) (w : StepWord) (s : State) (hm : MemOk s) : NextOk (execSdrain c w s) :=
  State.live_nextOk hm (State.stepCmd_nextOk c w _ hm)

theorem execSclr_nextOk (c : Core) (w : StepWord) (s : State) (hm : MemOk s) : NextOk (execSclr c w s) :=
  State.live_nextOk hm (State.stepCmd_nextOk c w _ hm)

theorem execVop_nextOk (c : Core) (w : StepWord) (s : State) (hm : MemOk s) : NextOk (execVop c w s) :=
  State.live_nextOk hm (State.stepCmd_nextOk c w _ hm)

theorem execVred_nextOk (c : Core) (w : StepWord) (s : State) (hm : MemOk s) : NextOk (execVred c w s) :=
  State.live_nextOk hm (State.stepCmd_nextOk c w _ hm)

theorem execVrow_nextOk (c : Core) (w : StepWord) (s : State) (hm : MemOk s) : NextOk (execVrow c w s) :=
  State.live_nextOk hm (State.stepCmd_nextOk c w _ hm)

theorem execOsmUpdate_nextOk (c : Core) (w : StepWord) (s : State) (hm : MemOk s) : NextOk (execOsmUpdate c w s) :=
  State.live_nextOk hm (State.stepCmd_nextOk c w _ hm)

theorem execOsmRescale_nextOk (c : Core) (w : StepWord) (s : State) (hm : MemOk s) : NextOk (execOsmRescale c w s) :=
  State.live_nextOk hm (State.stepCmd_nextOk c w _ hm)

theorem execOsmFinal_nextOk (c : Core) (w : StepWord) (s : State) (hm : MemOk s) : NextOk (execOsmFinal c w s) :=
  State.live_nextOk hm (State.stepCmd_nextOk c w _ hm)

theorem execQuant_nextOk (c : Core) (w : StepWord) (s : State) (hm : MemOk s) : NextOk (execQuant c w s) :=
  State.live_nextOk hm (State.stepCmd_nextOk c w _ hm)

theorem execStrm_nextOk (c : Core) (w : StepWord) (s : State) (hm : MemOk s) : NextOk (execStrm c w s) :=
  State.live_nextOk hm (State.stepCmd_nextOk c w _ hm)

theorem execCopy_nextOk (c : Core) (w : StepWord) (s : State) (hm : MemOk s) : NextOk (execCopy c w s) :=
  State.live_nextOk hm (State.stepCmd_nextOk c w _ hm)

theorem execTrickle_nextOk (c : Core) (w : StepWord) (s : State) (hm : MemOk s) : NextOk (execTrickle c w s) :=
  State.live_nextOk hm (State.stepCmd_nextOk c w _ hm)

theorem execDload_nextOk (c : Core) (w : StepWord) (s : State) (hm : MemOk s) : NextOk (execDload c w s) :=
  State.live_nextOk hm (State.stepCmd_nextOk c w _ hm)

theorem execDstore_nextOk (c : Core) (w : StepWord) (s : State) (hm : MemOk s) : NextOk (execDstore c w s) :=
  State.live_nextOk hm (State.stepCmd_nextOk c w _ hm)

theorem execDset_nextOk (c : Core) (w : StepWord) (s : State) (hm : MemOk s) : NextOk (execDset c w s) :=
  State.live_nextOk hm (State.stepCmd_nextOk c w _ hm)

theorem execFset_nextOk (c : Core) (w : StepWord) (s : State) (hm : MemOk s) : NextOk (execFset c w s) :=
  State.live_nextOk hm (State.stepCmd_nextOk c w _ hm)

theorem execFsigr_nextOk (c : Core) (w : StepWord) (s : State) (hm : MemOk s) : NextOk (execFsigr c w s) :=
  State.live_nextOk hm (State.stepCmd_nextOk c w _ hm)

theorem execFwait_nextOk (c : Core) (w : StepWord) (s : State) (hm : MemOk s) : NextOk (execFwait c w s) :=
  State.live_nextOk hm (State.stepCmd_nextOk c w _ hm)

theorem execFence_nextOk (c : Core) (w : StepWord) (s : State) (hm : MemOk s) : NextOk (execFence c w s) :=
  State.live_nextOk hm (State.stepCmd_nextOk c w _ hm)

theorem execAlu_nextOk (c : Core) (w : StepWord) (s : State) (hm : MemOk s) : NextOk (execAlu c w s) :=
  State.live_nextOk hm (State.stepCmd_nextOk c w _ hm)

theorem execMovi_nextOk (c : Core) (w : StepWord) (s : State) (hm : MemOk s) : NextOk (execMovi c w s) :=
  State.live_nextOk hm (State.stepCmd_nextOk c w _ hm)

theorem execCmp_nextOk (c : Core) (w : StepWord) (s : State) (hm : MemOk s) : NextOk (execCmp c w s) :=
  State.live_nextOk hm (State.stepCmd_nextOk c w _ hm)

theorem execPlog_nextOk (c : Core) (w : StepWord) (s : State) (hm : MemOk s) : NextOk (execPlog c w s) :=
  State.live_nextOk hm (State.stepCmd_nextOk c w _ hm)

theorem execLd_nextOk (c : Core) (w : StepWord) (s : State) (hm : MemOk s) : NextOk (execLd c w s) :=
  State.live_nextOk hm (State.stepCmd_nextOk c w _ hm)

theorem execSt_nextOk (c : Core) (w : StepWord) (s : State) (hm : MemOk s) : NextOk (execSt c w s) :=
  State.live_nextOk hm (State.stepCmd_nextOk c w _ hm)

theorem execBr_nextOk (c : Core) (w : StepWord) (s : State) (hm : MemOk s) : NextOk (execBr c w s) :=
  State.live_nextOk hm (State.stepCmd_nextOk c w _ hm)

theorem execLoop_nextOk (c : Core) (w : StepWord) (s : State) (hm : MemOk s) : NextOk (execLoop c w s) :=
  State.live_nextOk hm (State.stepCmd_nextOk c w _ hm)

theorem execEndl_nextOk (c : Core) (w : StepWord) (s : State) (hm : MemOk s) : NextOk (execEndl c w s) :=
  State.live_nextOk hm (State.stepCmd_nextOk c w _ hm)

theorem execPtest_nextOk (c : Core) (w : StepWord) (s : State) (hm : MemOk s) : NextOk (execPtest c w s) :=
  State.live_nextOk hm (State.stepCmd_nextOk c w _ hm)

theorem execNop_nextOk (c : Core) (w : StepWord) (s : State) (hm : MemOk s) : NextOk (execNop c w s) :=
  State.live_nextOk hm (State.stepCmd_nextOk c w _ hm)

theorem execEndStep_nextOk (c : Core) (w : StepWord) (s : State) (hm : MemOk s) : NextOk (execEndStep c w s) :=
  State.live_nextOk hm (State.stepCmd_nextOk c w _ hm)

theorem execBset_nextOk (c : Core) (w : StepWord) (s : State) (hm : MemOk s) : NextOk (execBset c w s) :=
  State.live_nextOk hm (State.stepCmd_nextOk c w _ hm)

theorem execBelay_nextOk (c : Core) (w : StepWord) (s : State) (hm : MemOk s) : NextOk (execBelay c w s) :=
  State.live_nextOk hm (State.stepCmd_nextOk c w _ hm)

theorem execQpush_nextOk (c : Core) (w : StepWord) (s : State) (hm : MemOk s) : NextOk (execQpush c w s) :=
  State.live_nextOk hm (State.stepCmd_nextOk c w _ hm)

theorem execQpop_nextOk (c : Core) (w : StepWord) (s : State) (hm : MemOk s) : NextOk (execQpop c w s) :=
  State.live_nextOk hm (State.stepCmd_nextOk c w _ hm)

theorem execQtry_nextOk (c : Core) (w : StepWord) (s : State) (hm : MemOk s) : NextOk (execQtry c w s) :=
  State.live_nextOk hm (State.stepCmd_nextOk c w _ hm)

theorem execTwait_nextOk (c : Core) (w : StepWord) (s : State) (hm : MemOk s) : NextOk (execTwait c w s) :=
  State.live_nextOk hm (State.stepCmd_nextOk c w _ hm)

theorem execTtime_nextOk (c : Core) (w : StepWord) (s : State) (hm : MemOk s) : NextOk (execTtime c w s) :=
  State.live_nextOk hm (State.stepCmd_nextOk c w _ hm)

@[simp] theorem State.retry_memOk (s : State) (c : Core) (ok : ℕ → Bool) (waited : ℕ) (hm : MemOk s) : MemOk (s.retry c ok waited) := by
  unfold State.retry
  split <;> simp [MemOk, hm]

theorem execGuardSatisfied_nextOk (c : Core) (waited : ℕ) (s : State) (hm : MemOk s) : NextOk (execGuardSatisfied c waited s) := by
  unfold execGuardSatisfied
  refine State.live_nextOk hm ?_
  simp [MemOk, hm]

theorem execSlotTimeout_nextOk (c : Core) (s : State) (hm : MemOk s) : NextOk (execSlotTimeout c s) := by
  unfold execSlotTimeout
  refine State.live_nextOk hm ?_
  (repeat' split) <;> simp [MemOk, hm]

theorem execQpopWake_nextOk (c : Core) (waited : ℕ) (s : State) (hm : MemOk s) : NextOk (execQpopWake c waited s) := by
  unfold execQpopWake
  refine State.live_nextOk hm ?_
  simp [MemOk, hm]

theorem execTwaitDone_nextOk (c : Core) (waited : ℕ) (s : State) (hm : MemOk s) : NextOk (execTwaitDone c waited s) := by
  unfold execTwaitDone
  refine State.live_nextOk hm ?_
  simp [MemOk, hm]

end Sys2Proof.Machine
end

section
/-! The settlement of O5: every command keeps the form of memory, by its row's lemma. -/
namespace Sys2Proof.Machine

/-- Every command that answers a next state keeps the canonical form of memory. -/
theorem exec_nextOk (i : Instr) (s : State) (hm : MemOk s) : NextOk (exec i s) := by
  cases i with
  | load c w => exact execLoad_nextOk c w s hm
  | loadBegin c a waited => exact execLoadBegin_nextOk c a waited s hm
  | loadDone c a => exact execLoadDone_nextOk c a s hm
  | pass c w => exact execPass_nextOk c w s hm
  | planeSwap c a => exact execPlaneSwap_nextOk c a s hm
  | feed c w => exact execFeed_nextOk c w s hm
  | feedStart c f starve => exact execFeedStart_nextOk c f starve s hm
  | exportStep c w => exact execExportStep_nextOk c w s hm
  | aclr c w => exact execAclr_nextOk c w s hm
  | asave c w => exact execAsave_nextOk c w s hm
  | arestore c w => exact execArestore_nextOk c w s hm
  | fres c w => exact execFres_nextOk c w s hm
  | fpres c w => exact execFpres_nextOk c w s hm
  | fflush c w => exact execFflush_nextOk c w s hm
  | frel c w => exact execFrel_nextOk c w s hm
  | fillDeadline c g => exact execFillDeadline_nextOk c g s hm
  | fillWatchdog c g f => exact execFillWatchdog_nextOk c g f s hm
  | coreFgctxWrite c g v => exact execCoreFgctxWrite_nextOk c g v s hm
  | disp c w => exact execDisp_nextOk c w s hm
  | dispResume c waited => exact execDispResume_nextOk c waited s hm
  | sop c w => exact execSop_nextOk c w s hm
  | sieveJobStart c dealWait bankWait resWait => exact execSieveJobStart_nextOk c dealWait bankWait resWait s hm
  | mergeTileClose c waited => exact execMergeTileClose_nextOk c waited s hm
  | sdrain c w => exact execSdrain_nextOk c w s hm
  | sclr c w => exact execSclr_nextOk c w s hm
  | vop c w => exact execVop_nextOk c w s hm
  | vred c w => exact execVred_nextOk c w s hm
  | vrow c w => exact execVrow_nextOk c w s hm
  | osmUpdate c w => exact execOsmUpdate_nextOk c w s hm
  | osmRescale c w => exact execOsmRescale_nextOk c w s hm
  | osmFinal c w => exact execOsmFinal_nextOk c w s hm
  | quant c w => exact execQuant_nextOk c w s hm
  | tileOutputWrite c => exact execTileOutputWrite_nextOk c s hm
  | vecAmaxWrite c n v => exact execVecAmaxWrite_nextOk c n v s hm
  | strm c w => exact execStrm_nextOk c w s hm
  | copy c w => exact execCopy_nextOk c w s hm
  | trickle c w => exact execTrickle_nextOk c w s hm
  | trickleDone c ecc => exact execTrickleDone_nextOk c ecc s hm
  | dload c w => exact execDload_nextOk c w s hm
  | dstore c w => exact execDstore_nextOk c w s hm
  | dset c w => exact execDset_nextOk c w s hm
  | fset c w => exact execFset_nextOk c w s hm
  | fsigr c w => exact execFsigr_nextOk c w s hm
  | fwait c w => exact execFwait_nextOk c w s hm
  | fence c w => exact execFence_nextOk c w s hm
  | guardSatisfied c waited => exact execGuardSatisfied_nextOk c waited s hm
  | slotTimeout c => exact execSlotTimeout_nextOk c s hm
  | alu c w => exact execAlu_nextOk c w s hm
  | movi c w => exact execMovi_nextOk c w s hm
  | cmp c w => exact execCmp_nextOk c w s hm
  | plog c w => exact execPlog_nextOk c w s hm
  | ld c w => exact execLd_nextOk c w s hm
  | st c w => exact execSt_nextOk c w s hm
  | br c w => exact execBr_nextOk c w s hm
  | loop c w => exact execLoop_nextOk c w s hm
  | endl c w => exact execEndl_nextOk c w s hm
  | ptest c w => exact execPtest_nextOk c w s hm
  | nop c w => exact execNop_nextOk c w s hm
  | endStep c w => exact execEndStep_nextOk c w s hm
  | bset c w => exact execBset_nextOk c w s hm
  | belay c w => exact execBelay_nextOk c w s hm
  | belayStageReady c n => exact execBelayStageReady_nextOk c n s hm
  | belayCreditGrant c n src => exact execBelayCreditGrant_nextOk c n src s hm
  | belayRowReceive c n src row => exact execBelayRowReceive_nextOk c n src row s hm
  | belayTimeout c n => exact execBelayTimeout_nextOk c n s hm
  | qpush c w => exact execQpush_nextOk c w s hm
  | qpop c w => exact execQpop_nextOk c w s hm
  | qpopWake c waited => exact execQpopWake_nextOk c waited s hm
  | qtry c w => exact execQtry_nextOk c w s hm
  | twait c w => exact execTwait_nextOk c w s hm
  | twaitDone c waited => exact execTwaitDone_nextOk c waited s hm
  | ttime c w => exact execTtime_nextOk c w s hm
  | startTake c => exact execStartTake_nextOk c s hm
  | clearFault c v => exact execClearFault_nextOk c v s hm
  | unitDisable c v => exact execUnitDisable_nextOk c v s hm
  | abort c v => exact execAbort_nextOk c v s hm
  | unitEnable c v => exact execUnitEnable_nextOk c v s hm
  | drainDone c unit => exact execDrainDone_nextOk c unit s hm
  | seqFlagset c v => exact execSeqFlagset_nextOk c v s hm
  | seqFlagclr c v => exact execSeqFlagclr_nextOk c v s hm
  | accWindowAccess who addr op => exact execAccWindowAccess_nextOk who addr op s hm
  | meshPantryAccess a ecc => exact execMeshPantryAccess_nextOk a ecc s hm
  | panInvalGo c v => exact execPanInvalGo_nextOk c v s hm
  | streamBegin c e => exact execStreamBegin_nextOk c e s hm
  | streamAdmit c e waited => exact execStreamAdmit_nextOk c e waited s hm
  | streamAddr c e => exact execStreamAddr_nextOk c e s hm
  | streamDesc c e => exact execStreamDesc_nextOk c e s hm
  | streamLoop c e => exact execStreamLoop_nextOk c e s hm
  | streamStride c e => exact execStreamStride_nextOk c e s hm
  | streamIdx c e => exact execStreamIdx_nextOk c e s hm
  | streamFill c e => exact execStreamFill_nextOk c e s hm
  | streamCvt c e => exact execStreamCvt_nextOk c e s hm
  | streamWina c e => exact execStreamWina_nextOk c e s hm
  | streamWinb c e => exact execStreamWinb_nextOk c e s hm
  | streamCred c e => exact execStreamCred_nextOk c e s hm
  | streamGo c e ecc => exact execStreamGo_nextOk c e ecc s hm
  | streamWait c e => exact execStreamWait_nextOk c e s hm
  | streamSig c e => exact execStreamSig_nextOk c e s hm
  | streamEnd c e => exact execStreamEnd_nextOk c e s hm
  | streamWaitTimeout c e => exact execStreamWaitTimeout_nextOk c e s hm
  | partTimeout c e part => exact execPartTimeout_nextOk c e part s hm
  | strCtlWrite c v => exact execStrCtlWrite_nextOk c v s hm
  | monGovrun d v => exact execMonGovrun_nextOk d v s hm
  | governorRun d => exact execGovernorRun_nextOk d s hm
  | topoXdispCount => exact execTopoXdispCount_nextOk s hm
  | xdispRows c => exact execXdispRows_nextOk c s hm
  | xdCountReceive c g rank m => exact execXdCountReceive_nextOk c g rank m s hm
  | xdRowReceive c g rank j srcDev srcCore entry row => exact execXdRowReceive_nextOk c g rank j srcDev srcCore entry row s hm
  | topoXdispReturn => exact execTopoXdispReturn_nextOk s hm
  | xdReturnReceive c entry row => exact execXdReturnReceive_nextOk c entry row s hm
  | coreXrxWrite c g b v => exact execCoreXrxWrite_nextOk c g b v s hm
  | memRequest m r => exact execMemRequest_nextOk m r s hm
  | memGrant m ecc => exact execMemGrant_nextOk m ecc s hm
  | memPreempt m words => exact execMemPreempt_nextOk m words s hm
  | hbmPeriodicCal pc => exact execHbmPeriodicCal_nextOk pc s hm
  | zeroFillDone t => exact execZeroFillDone_nextOk t s hm
  | hbmPriocommit v => exact execHbmPriocommit_nextOk v s hm
  | lpPriocommit v => exact execLpPriocommit_nextOk v s hm
  | coreMpriocommit v => exact execCoreMpriocommit_nextOk v s hm
  | hbmNmgreq h r => exact execHbmNmgreq_nextOk h r s hm
  | nmgRun h ecc => exact execNmgRun_nextOk h ecc s hm
  | nmgDone h => exact execNmgDone_nextOk h s hm
  | packetPush q port data written => exact execPacketPush_nextOk q port data written s hm
  | packetPop q pop => exact execPacketPop_nextOk q pop s hm
  | packetBreak q => exact execPacketBreak_nextOk q s hm
  | qpQcfgWrite q v => exact execQpQcfgWrite_nextOk q v s hm
  | qpFlush q v => exact execQpFlush_nextOk q v s hm
  | tbTimeset v => exact execTbTimeset_nextOk v s hm
  | syncInEdge now => exact execSyncInEdge_nextOk now s hm
  | timeLock => exact execTimeLock_nextOk s hm
  | refLost why => exact execRefLost_nextOk why s hm
  | holdoverExpiry => exact execHoldoverExpiry_nextOk s hm
  | timeRequest t1 => exact execTimeRequest_nextOk t1 s hm
  | timeRequestReceive l t2 t3 => exact execTimeRequestReceive_nextOk l t2 t3 s hm
  | timeReply t1 t2 t3 t4 state depth => exact execTimeReply_nextOk t1 t2 t3 t4 state depth s hm
  | syncOutPulse => exact execSyncOutPulse_nextOk s hm
  | pitchStart => exact execPitchStart_nextOk s hm
  | topoStart => exact execTopoStart_nextOk s hm
  | topoSwap => exact execTopoSwap_nextOk s hm
  | topoLinkwin => exact execTopoLinkwin_nextOk s hm
  | linkwinEnd l => exact execLinkwinEnd_nextOk l s hm
  | topoColl => exact execTopoColl_nextOk s hm
  | topoCalwin => exact execTopoCalwin_nextOk s hm
  | topoDeadline => exact execTopoDeadline_nextOk s hm
  | topoSleep => exact execTopoSleep_nextOk s hm
  | topoHeart => exact execTopoHeart_nextOk s hm
  | topoEpoch => exact execTopoEpoch_nextOk s hm
  | flitReceive l flit => exact execFlitReceive_nextOk l flit s hm
  | retryRequest l seq => exact execRetryRequest_nextOk l seq s hm
  | ackTimeout l => exact execAckTimeout_nextOk l s hm
  | recordClose e => exact execRecordClose_nextOk e s hm
  | sealReceive l flit => exact execSealReceive_nextOk l flit s hm
  | packetForward p => exact execPacketForward_nextOk p s hm
  | pktWrite p => exact execPktWrite_nextOk p s hm
  | pktRead p => exact execPktRead_nextOk p s hm
  | pktResponse p => exact execPktResponse_nextOk p s hm
  | linkDown l reason => exact execLinkDown_nextOk l reason s hm
  | linkRetrainTimer e => exact execLinkRetrainTimer_nextOk e s hm
  | trainingDone e x4 laneHi half => exact execTrainingDone_nextOk e x4 laneHi half s hm
  | trainingTimeout e => exact execTrainingTimeout_nextOk e s hm
  | linkKeying l peer => exact execLinkKeying_nextOk l peer s hm
  | rekey l => exact execRekey_nextOk l s hm
  | retrain l => exact execRetrain_nextOk l s hm
  | wakeTx l => exact execWakeTx_nextOk l s hm
  | wakeDet l => exact execWakeDet_nextOk l s hm
  | collFailNotice c coll ring dev link => exact execCollFailNotice_nextOk c coll ring dev link s hm
  | collTimeout c ring => exact execCollTimeout_nextOk c ring s hm
  | collEnd c => exact execCollEnd_nextOk c s hm
  | rdShared h txid addr => exact execRdShared_nextOk h txid addr s hm
  | rdOwn h txid addr => exact execRdOwn_nextOk h txid addr s hm
  | rdNc h txid addr lines => exact execRdNc_nextOk h txid addr lines s hm
  | wrNc h txid addr data => exact execWrNc_nextOk h txid addr data s hm
  | wrPart h txid addr data mask => exact execWrPart_nextOk h txid addr data mask s hm
  | wbDirty h txid addr data => exact execWbDirty_nextOk h txid addr data s hm
  | evict h txid addr => exact execEvict_nextOk h txid addr s hm
  | snpRsp h tag data => exact execSnpRsp_nextOk h tag data s hm
  | snoopTimeout h addr => exact execSnoopTimeout_nextOk h addr s hm
  | menuReq h txid entry data => exact execMenuReq_nextOk h txid entry data s hm
  | doorbell h txid queue data => exact execDoorbell_nextOk h txid queue data s hm
  | popWaitExpiry h => exact execPopWaitExpiry_nextOk h s hm
  | cData h txid reason data => exact execCData_nextOk h txid reason data s hm
  | cCmp h txid reason => exact execCCmp_nextOk h txid reason s hm
  | cInv h txid addr => exact execCInv_nextOk h txid addr s hm
  | nzFlitReceive h body => exact execNzFlitReceive_nextOk h body s hm
  | msgSend h => exact execMsgSend_nextOk h s hm
  | msgResend h => exact execMsgResend_nextOk h s hm
  | halfDown h => exact execHalfDown_nextOk h s hm
  | nzKeying h compKey compSig => exact execNzKeying_nextOk h compKey compSig s hm
  | nzRetrain h => exact execNzRetrain_nextOk h s hm
  | nzRekey h => exact execNzRekey_nextOk h s hm
  | porNAssert => exact execPorNAssert_nextOk s
  | resetNAssert => exact execResetNAssert_nextOk s
  | resetRelease devid => exact execResetRelease_nextOk devid s hm
  | imageRead => exact execImageRead_nextOk s hm
  | imageReadDone => exact execImageReadDone_nextOk s hm
  | weightLoadDone entry => exact execWeightLoadDone_nextOk entry s hm
  | loadWaitExpiry => exact execLoadWaitExpiry_nextOk s hm
  | erase paddr => exact execErase_nextOk paddr s hm
  | program paddr => exact execProgram_nextOk paddr s hm
  | bootRead paddr => exact execBootRead_nextOk paddr s hm
  | verify paddr => exact execVerify_nextOk paddr s hm
  | flashCmdDone ok => exact execFlashCmdDone_nextOk ok s hm
  | bootReset => exact execBootReset_nextOk s hm
  | lardWrite n v who => exact execLardWrite_nextOk n v who s hm
  | lardWriteDone => exact execLardWriteDone_nextOk s hm
  | getId p => exact execGetId_nextOk p s hm
  | attest p => exact execAttest_nextOk p s hm
  | challenge p => exact execChallenge_nextOk p s hm
  | debugOpen p => exact execDebugOpen_nextOk p s hm
  | pwTry p arg => exact execPwTry_nextOk p arg s hm
  | pwSet p arg => exact execPwSet_nextOk p arg s hm
  | pwClear p => exact execPwClear_nextOk p s hm
  | commitVersion p => exact execCommitVersion_nextOk p s hm
  | ownSet p => exact execOwnSet_nextOk p s hm
  | ownClear p => exact execOwnClear_nextOk p s hm
  | debugClose p => exact execDebugClose_nextOk p s hm
  | never p => exact execNever_nextOk p s hm
  | nonceExpiry => exact execNonceExpiry_nextOk s hm
  | trngFail => exact execTrngFail_nextOk s hm
  | heartbeatReceive l hb => exact execHeartbeatReceive_nextOk l hb s hm
  | attachWaitExpiry => exact execAttachWaitExpiry_nextOk s hm
  | attachMsg l m => exact execAttachMsg_nextOk l m s hm
  | resyncDone => exact execResyncDone_nextOk s hm
  | rejoinPitch => exact execRejoinPitch_nextOk s hm
  | detach => exact execDetach_nextOk s hm
  | attach => exact execAttach_nextOk s hm
  | detachAck => exact execDetachAck_nextOk s hm
  | pairDetach => exact execPairDetach_nextOk s hm
  | releasePitch => exact execReleasePitch_nextOk s hm
  | pwrReqActive who => exact execPwrReqActive_nextOk who s hm
  | pwrReqIdle => exact execPwrReqIdle_nextOk s hm
  | pwrReqNap len => exact execPwrReqNap_nextOk len s hm
  | pwrReqBivouac save len => exact execPwrReqBivouac_nextOk save len s hm
  | pwrReqWatch save len => exact execPwrReqWatch_nextOk save len s hm
  | domainQuery => exact execDomainQuery_nextOk s hm
  | delayLimExpiry => exact execDelayLimExpiry_nextOk s hm
  | pwrCommit => exact execPwrCommit_nextOk s hm
  | saveDone => exact execSaveDone_nextOk s hm
  | offStep => exact execOffStep_nextOk s hm
  | avsAck => exact execAvsAck_nextOk s hm
  | avsTimeout => exact execAvsTimeout_nextOk s hm
  | wakeNLow => exact execWakeNLow_nextOk s hm
  | nzIdleExit h => exact execNzIdleExit_nextOk h s hm
  | wakePitch => exact execWakePitch_nextOk s hm
  | tempWake temp => exact execTempWake_nextOk temp s hm
  | railWake aon vio => exact execRailWake_nextOk aon vio s hm
  | watchSample smp => exact execWatchSample_nextOk smp s hm
  | wakeStep => exact execWakeStep_nextOk s hm
  | restoreDone failed => exact execRestoreDone_nextOk failed s hm
  | pwrPadRelease v => exact execPwrPadRelease_nextOk v s hm
  | ungate d => exact execUngate_nextOk d s hm
  | opChange op => exact execOpChange_nextOk op s hm
  | thermalStep temp => exact execThermalStep_nextOk temp s hm
  | thermtrip temp => exact execThermtrip_nextOk temp s hm
  | vddAonLow => exact execVddAonLow_nextOk s
  | railUndervolt => exact execRailUndervolt_nextOk s hm
  | fltBistreq v => exact execFltBistreq_nextOk v s hm
  | bistStart c a => exact execBistStart_nextOk c a s hm
  | bistDone c a pass => exact execBistDone_nextOk c a pass s hm
  | bistRefuse c a => exact execBistRefuse_nextOk c a s hm
  | fltCalreq v => exact execFltCalreq_nextOk v s hm
  | serdesCalDone links halves => exact execSerdesCalDone_nextOk links halves s hm
  | fieldRestore f copyOk => exact execFieldRestore_nextOk f copyOk s hm
  | monWindowEnd m => exact execMonWindowEnd_nextOk m s hm
  | monClr m => exact execMonClr_nextOk m s hm
  | monCfgWrite m v => exact execMonCfgWrite_nextOk m v s hm
  | registerWrite who addr data => exact execRegisterWrite_nextOk who addr data s hm
  | secCmdDone => exact execSecCmdDone_nextOk s hm
  | monSample m v => exact execMonSample_nextOk m v s hm

/-- Settles O5, by the lemma of the row of the command at the front of the queue. -/
theorem stepKeepsMemoryForm : Obligations.StepKeepsMemoryForm := by
  unfold Obligations.StepKeepsMemoryForm
  intro s t hm ht
  unfold step at ht
  split at ht
  · cases ht
    exact hm
  · next c rest _ => exact exec_nextOk c { s with pending := rest } hm t ht

end Sys2Proof.Machine
end
